-- ==== Sys2Proof/Word.lean ====
section
/-!
DEFINITION. The word types of the Trivor: bytes, 32-bit registers, 64-bit addresses and lane masks (rules R4, R13).
-/
namespace Sys2Proof

/-- One byte of memory (R4). -/
abbrev Byte := BitVec 8

/-- A 32-bit register value or instruction word (R13, R51). -/
abbrev Word := BitVec 32

/-- A 64-bit address or special-register value (R28, R133). -/
abbrev Dword := BitVec 64

/-- A set of lanes of one group: bit `l` is lane `l` (R18). -/
abbrev LaneMask := BitVec 64

/-- A 7-bit register field of an instruction word (R14, R52). -/
abbrev RegField := BitVec 7

end Sys2Proof
end

