-- ==== Sys2Proof/Config.lean ====
section
/-!
DEFINITION. What is fixed for the part: its figures (R1, R2), and the free values, opaque constants that nothing in Lean can
evaluate, for what the spec leaves open (log 9 to 13).
-/
namespace Sys2Proof.Config

/-- Logical cores of the part (R2). -/
def numCores : Nat := 320
/-- Logical clusters of the part (R2). -/
def numClusters : Nat := 40
/-- Compute dies of the part (R2). -/
def numDies : Nat := 8
/-- HBM stacks of the part (R2). -/
def numStacks : Nat := 16
/-- Slots of a core (R10). -/
def slotsPerCore : Nat := 128
/-- Scratchpad bytes of a core (R264). -/
def scratchPerCore : Nat := 8388608
/-- Accumulator tiles of a core (R264). -/
def tilesPerCore : Nat := 1024
/-- Physical addresses from here on are host memory (R272). -/
def hostBase : Nat := 2 ^ 40
/-- What a byte of memory that nothing has written reads as (log 2). -/
def emptyByte : Byte := 0

/-- free value: how many core cycles pass with an issue, for sr.cyc in normal mode (R30) -/
opaque freeCycles : Nat → Nat
/-- free value: a die's reference counter when it stamps a record (R283, R382) -/
opaque freeRefCount : Nat → Dword
/-- free value: microseconds that a team has run, for the recall estimates (R327) -/
opaque freeElapsed : Nat → Nat
/-- free value: bytes that a core has to save for a context, from its tracked dirty lines (R327) -/
opaque freeSpill : Nat → Nat
/-- free value: whether a restored scratchpad line, of a team and by its number, claims a physical line where the outgoing context has one (R317) -/
opaque freeClaim : Nat → Nat → Bool
/-- Sets of a die's cache: 16 slices of 1,024 (R1, R267). -/
def dieCacheSets : Nat := 16384
/-- Ways of each of its sets (R1, R267). -/
def dieCacheWays : Nat := 16
/-- free value: the die-cache slice and set of a line, by a hash the spec does not give (R267) -/
opaque dieCacheSet : Nat → Fin 16384
/-- free value: the CRC-32C that chooses a path, of the destination part and the key, whose byte layout the spec does not give (R359) -/
opaque pathHash : Nat → Nat → Nat
/-- free value: which usable plane has the least queued bytes when a sprayed packet is sent (R360) -/
opaque freePlane : Nat → Nat
/-- free value: the device's ECDSA P-384 signature over bytes (R394, R401) -/
opaque freeSignature : List Byte → List Byte
/-- free value: whether a signature that another device made verifies (R390, R395) -/
opaque freeVerify : List Byte → Bool
/-- free value: the 16 fused bytes of DEVID (R401) -/
opaque devid : List Byte
/-- free value: the digest of each measured firmware: 1 controller, 2 base die, 3 compute die (R402) -/
opaque firmwareDigest : Nat → List Byte
/-- free value: the certificate chain in slot 0 (R401) -/
opaque certificate : List Byte
/-- free value: the bytes of the remap table and slice table that are measured, of the remap table itself, the retired clusters, the dies with a spare left,
the die of a minimal start and the slices' masks; the spec gives them no layout (R402) -/
opaque tableBytes : List (Nat × Nat) × List Nat → List Nat → List Nat → Nat → List (Nat × Nat × Nat) → List Byte
/-- free value: random bytes and key shares of an SPDM answer (R401) -/
opaque freeNonce : Nat → List Byte
/-- free value: whether an SPDM FINISH message authentication code verifies (R401) -/
opaque freeMacOk : List Byte → Bool
/-- free value: what timing still holds a group at a sample: 0 nothing, 1 a result's latency, 2 its port's divider or function unit (R100, R132, R303) -/
opaque freeHold : Nat → Fin 3
/-- free value: whether the in-field test holds the ports of a cluster in a sampled cycle (R380) -/
opaque freeTest : Nat → Bool
/-- free value: for how many cluster-cycles a test pass has held the ports of its cluster (R380) -/
opaque freeTestHeld : Nat → Nat
/-- free value: the reason with which the start attempt after a failed one fails, another number where it does not (R404) -/
opaque freeReason : Nat → Nat
/-- free value: the ports that fail training in the start attempt after a failed one (R404) -/
opaque freePortsDown : Nat → BitVec 36
/-- free value: the lowest die whose self-test passes in the start attempt after a failed one (R404) -/
opaque freeGoodDie : Nat → Nat
/-- free value: how many slices the queue of a core's copy engine holds beyond one (R190) -/
opaque engineQueue : Nat
/-- free value: which frame of a clean pool an allocation draws (R282) -/
opaque freeFrame : Nat → Nat
/-- free value: which of several tiles of one name that a router holds answers (R209) -/
opaque freePick : Nat → Nat

end Sys2Proof.Config
end

