-- ==== Sys2Proof/Syntax.lean ====
section
/-!
DEFINITION. The syntax of every row of the opcode table: 203 encoded instructions (R55-R71) and 151 events of the part, the
fabric and the host, whose arguments say what the event brings from outside (a packet, a command, a group, an engine's record).
-/
namespace Sys2Proof

/-- The guard prefix of every encoded instruction: `neg` is bit 25, `p` bits 24..21 (R51). -/
structure Guard where
  neg : Bool
  p : BitVec 4
deriving DecidableEq, Repr

/-- The 32-byte packet header and its payload (R358); `key` for named kinds holds tensor id and tile index. -/
structure Packet where
  kind : Nat
  spray : Bool := false
  cut : Bool := false
  noHold : Bool := false
  srcPart : Nat := 0
  srcDie : Nat := 0
  dstPart : Nat := 0
  dstDie : Nat := 0
  ctx : Nat := 0
  plane : Nat := 0
  rid : Nat := 0
  key : Nat := 0
  ackLo : Nat := 0
  aux : Nat := 0
  payload : List Byte := []
deriving DecidableEq, Repr

/-- The routers of named tiles: the hub of a compute die of this part, and a leaf or spine switch of a plane (R373). -/
inductive Router
  | hub (die : Nat)
  | leaf (plane n : Nat)
  | spine (plane n : Nat)
deriving DecidableEq, Repr

/-- A face of a router: a slip of the die at a hub, a port, or the hub of another die of the part (R374). -/
inductive Face
  | slip (id : Nat)
  | port (n : Nat)
  | die (d : Nat)
deriving DecidableEq, Repr

/-- What EDIT and TREAD of a twin name (R350, R354). -/
inductive TwinTarget
  | reg (team grp lane n : Nat)
  | pred (team grp lane n : Nat)
  | mask (team grp n : Nat)
  | special (team grp lane n : Nat)
  | bytes (va len : Nat)
  | scratch (team offset len : Nat)
deriving DecidableEq, Repr

/-- One facsimile manifest that a host holds, for one part and step (R387, R390). -/
structure Manifest where
  part : Nat
  step : Nat
  gen : Word
  member : Nat
  ngrp : Nat
  done : Bool
  pdone : Bool
  signedOk : Bool
  chunk : Nat
  regions : List (Nat × List Byte)
  digests : List (List Byte)
  parity : List Byte
  parityDigest : List Byte
deriving DecidableEq, Repr

/-- What the tests of one start attempt found (R404): the reason of a failed step, and the ports that failed training. -/
structure StartResult where
  reason : Nat
  portsDown : BitVec 36
  lowestGoodDie : Nat
deriving DecidableEq, Repr

/-- The values of the platform sensors at one update (R408). -/
structure Sensors where
  power : Nat
  step : Nat
  junction : List Nat
  inlet : Nat
  outlet : Nat
deriving DecidableEq, Repr

/-- What a requester offers to NEGOTIATE_ALGORITHMS (R401). -/
structure SpdmOffer where
  ecdsaP384 : Bool
  sha384 : Bool
  ecdheP384 : Bool
  aes256gcm : Bool
deriving DecidableEq, Repr

/-- The instructions and events of the opcode table, one constructor per row. -/
inductive Instr
  /-- IADD (R97): Integer add of A and B into D, modulo 2^32. -/
  | iadd (g : Guard) (d : RegField) (a : RegField) (b : RegField)
  /-- ISUB (R97): Integer subtract B from A into D. -/
  | isub (g : Guard) (d : RegField) (a : RegField) (b : RegField)
  /-- IMUL (R97): Low 32 bits of A times B into D. -/
  | imul (g : Guard) (d : RegField) (a : RegField) (b : RegField)
  /-- IMAD (R97): D plus the low 32 bits of A times B into D. -/
  | imad (g : Guard) (d : RegField) (a : RegField) (b : RegField)
  /-- IMULH (R97): High word of the signed product of A and B into D. -/
  | imulh (g : Guard) (d : RegField) (a : RegField) (b : RegField)
  /-- IMULHN (R97): High word of the unsigned product of A and B into D. -/
  | imulhn (g : Guard) (d : RegField) (a : RegField) (b : RegField)
  /-- AND (R97): Bitwise AND of A and B into D. -/
  | and (g : Guard) (d : RegField) (a : RegField) (b : RegField)
  /-- OR (R97): Bitwise OR of A and B into D. -/
  | or (g : Guard) (d : RegField) (a : RegField) (b : RegField)
  /-- XOR (R97): Bitwise XOR of A and B into D. -/
  | xor (g : Guard) (d : RegField) (a : RegField) (b : RegField)
  /-- ANDN (R97): A AND NOT B into D. -/
  | andn (g : Guard) (d : RegField) (a : RegField) (b : RegField)
  /-- SHL (R97): A shifted left by B, 0 when B is 32 or more. -/
  | shl (g : Guard) (d : RegField) (a : RegField) (b : RegField)
  /-- SHR (R97): A shifted right logically by B. -/
  | shr (g : Guard) (d : RegField) (a : RegField) (b : RegField)
  /-- SRA (R97): A shifted right arithmetically by B. -/
  | sra (g : Guard) (d : RegField) (a : RegField) (b : RegField)
  /-- IMIN (R97): Signed minimum of A and B into D. -/
  | imin (g : Guard) (d : RegField) (a : RegField) (b : RegField)
  /-- IMAX (R97): Signed maximum of A and B into D. -/
  | imax (g : Guard) (d : RegField) (a : RegField) (b : RegField)
  /-- NMIN (R97): Unsigned minimum of A and B into D. -/
  | nmin (g : Guard) (d : RegField) (a : RegField) (b : RegField)
  /-- NMAX (R97): Unsigned maximum of A and B into D. -/
  | nmax (g : Guard) (d : RegField) (a : RegField) (b : RegField)
  /-- SEL (R98): Writes A where the guard holds and B elsewhere, in every active lane. -/
  | sel (g : Guard) (d : RegField) (a : RegField) (b : RegField)
  /-- BFX (R99): Extracts a bit field of A described by B, optionally sign-extended. -/
  | bfx (g : Guard) (d : RegField) (a : RegField) (b : RegField)
  /-- BFI (R99): Inserts the low bits of A into a field of D described by B. -/
  | bfi (g : Guard) (d : RegField) (a : RegField) (b : RegField)
  /-- ADD64 (R101): Adds pair A to pair D modulo 2^64. -/
  | add64 (g : Guard) (d : RegField) (a : RegField)
  /-- SUB64 (R101): Subtracts pair A from pair D modulo 2^64. -/
  | sub64 (g : Guard) (d : RegField) (a : RegField)
  /-- DIVS (R102): Signed truncating division of D by A. -/
  | divs (g : Guard) (d : RegField) (a : RegField)
  /-- DIVN (R102): Unsigned division of D by A. -/
  | divn (g : Guard) (d : RegField) (a : RegField)
  /-- REMS (R102): Remainder of signed division of D by A. -/
  | rems (g : Guard) (d : RegField) (a : RegField)
  /-- REMN (R102): Remainder of unsigned division of D by A. -/
  | remn (g : Guard) (d : RegField) (a : RegField)
  /-- POPC (R101): Count of set bits of A into D. -/
  | popc (g : Guard) (d : RegField) (a : RegField)
  /-- CLZ (R101): Count of leading zeros of A into D. -/
  | clz (g : Guard) (d : RegField) (a : RegField)
  /-- BREV (R101): Bit reverse of A into D. -/
  | brev (g : Guard) (d : RegField) (a : RegField)
  /-- BSWAP (R101): Byte reverse of A into D. -/
  | bswap (g : Guard) (d : RegField) (a : RegField)
  /-- IABS (R101): Absolute value of A into D. -/
  | iabs (g : Guard) (d : RegField) (a : RegField)
  /-- INEG (R101): Two's-complement negation of A into D. -/
  | ineg (g : Guard) (d : RegField) (a : RegField)
  /-- MOV (R101): Copies A into D. -/
  | mov (g : Guard) (d : RegField) (a : RegField)
  /-- SHLI (R103): A shifted left by an immediate count. -/
  | shli (g : Guard) (d : RegField) (a : RegField) (k : BitVec 5)
  /-- SHRI (R103): A shifted right logically by an immediate count. -/
  | shri (g : Guard) (d : RegField) (a : RegField) (k : BitVec 5)
  /-- SRAI (R103): A shifted right arithmetically by an immediate count. -/
  | srai (g : Guard) (d : RegField) (a : RegField) (k : BitVec 5)
  /-- RORI (R103): A rotated right by an immediate count. -/
  | rori (g : Guard) (d : RegField) (a : RegField) (k : BitVec 5)
  /-- MOVI (R104): Writes the sign-extended 14-bit immediate into D. -/
  | movi (g : Guard) (d : RegField) (i : BitVec 14)
  /-- ADDI (R104): Adds the sign-extended 14-bit immediate to D. -/
  | addi (g : Guard) (d : RegField) (i : BitVec 14)
  /-- FADD (R119): FP32 addition rounded by mode. -/
  | fadd (g : Guard) (d : RegField) (a : RegField) (b : RegField)
  /-- FMUL (R119): FP32 multiplication rounded by mode. -/
  | fmul (g : Guard) (d : RegField) (a : RegField) (b : RegField)
  /-- FFMA (R119): Fused FP32 A times B plus D with one rounding. -/
  | ffma (g : Guard) (d : RegField) (a : RegField) (b : RegField)
  /-- FMIN (R119): FP32 minimum without rounding. -/
  | fmin (g : Guard) (d : RegField) (a : RegField) (b : RegField)
  /-- FMAX (R119): FP32 maximum without rounding. -/
  | fmax (g : Guard) (d : RegField) (a : RegField) (b : RegField)
  /-- HADD (R119): Packed FP16x2 addition. -/
  | hadd (g : Guard) (d : RegField) (a : RegField) (b : RegField)
  /-- HMUL (R119): Packed FP16x2 multiplication. -/
  | hmul (g : Guard) (d : RegField) (a : RegField) (b : RegField)
  /-- HFMA (R119): Packed FP16x2 fused multiply-add into D. -/
  | hfma (g : Guard) (d : RegField) (a : RegField) (b : RegField)
  /-- HMIN (R119): Packed FP16x2 minimum per half. -/
  | hmin (g : Guard) (d : RegField) (a : RegField) (b : RegField)
  /-- HMAX (R119): Packed FP16x2 maximum per half. -/
  | hmax (g : Guard) (d : RegField) (a : RegField) (b : RegField)
  /-- BFMA (R119): Packed BF16x2 fused multiply-add into D. -/
  | bfma (g : Guard) (d : RegField) (a : RegField) (b : RegField)
  /-- FSQRT (R120): Correctly rounded FP32 square root of A. -/
  | fsqrt (g : Guard) (d : RegField) (a : RegField)
  /-- FRCP (R120): Correctly rounded FP32 reciprocal of A. -/
  | frcp (g : Guard) (d : RegField) (a : RegField)
  /-- FRSQ (R120): Correctly rounded FP32 reciprocal square root of A. -/
  | frsq (g : Guard) (d : RegField) (a : RegField)
  /-- FEXP2 (R120): 2 to the power A, correctly rounded RNE. -/
  | fexp2 (g : Guard) (d : RegField) (a : RegField)
  /-- FLOG2 (R120): Base-2 logarithm of A, correctly rounded RNE. -/
  | flog2 (g : Guard) (d : RegField) (a : RegField)
  /-- FSIN (R120): Sine of A, correctly rounded RNE. -/
  | fsin (g : Guard) (d : RegField) (a : RegField)
  /-- FCOS (R120): Cosine of A, correctly rounded RNE. -/
  | fcos (g : Guard) (d : RegField) (a : RegField)
  /-- FTANH (R120): Hyperbolic tangent of A, correctly rounded RNE. -/
  | ftanh (g : Guard) (d : RegField) (a : RegField)
  /-- FABS (R120): Clears the sign bit of A. -/
  | fabs (g : Guard) (d : RegField) (a : RegField)
  /-- FNEG (R120): Inverts the sign bit of A. -/
  | fneg (g : Guard) (d : RegField) (a : RegField)
  /-- FRINT (R120): Rounds A to an integral FP32 value by mode. -/
  | frint (g : Guard) (d : RegField) (a : RegField)
  /-- FFLOOR (R120): Rounds A to an integral value toward minus infinity. -/
  | ffloor (g : Guard) (d : RegField) (a : RegField)
  /-- FCEIL (R120): Rounds A to an integral value toward plus infinity. -/
  | fceil (g : Guard) (d : RegField) (a : RegField)
  /-- FTRUNC (R120): Rounds A to an integral value toward zero. -/
  | ftrunc (g : Guard) (d : RegField) (a : RegField)
  /-- FCLASS (R122): Writes the one-hot class mask of A. -/
  | fclass (g : Guard) (d : RegField) (a : RegField)
  /-- HABS (R120): Clears both sign bits of a packed FP16 pair. -/
  | habs (g : Guard) (d : RegField) (a : RegField)
  /-- HNEG (R120): Inverts both sign bits of a packed FP16 pair. -/
  | hneg (g : Guard) (d : RegField) (a : RegField)
  /-- HSQRT (R120): Square root of each FP16 half. -/
  | hsqrt (g : Guard) (d : RegField) (a : RegField)
  /-- HRCP (R120): Reciprocal of each FP16 half. -/
  | hrcp (g : Guard) (d : RegField) (a : RegField)
  /-- BABS (R120): Clears both sign bits of a packed BF16 pair. -/
  | babs (g : Guard) (d : RegField) (a : RegField)
  /-- BNEG (R120): Inverts both sign bits of a packed BF16 pair. -/
  | bneg (g : Guard) (d : RegField) (a : RegField)
  /-- CVT_F32_I32 (R123): Converts i32 to FP32 by mode. -/
  | cvtF32I32 (g : Guard) (d : RegField) (a : RegField)
  /-- CVT_F32_N32 (R123): Converts n32 to FP32 by mode. -/
  | cvtF32N32 (g : Guard) (d : RegField) (a : RegField)
  /-- CVT_I32_F32 (R123): Converts FP32 to i32, clamped. -/
  | cvtI32F32 (g : Guard) (d : RegField) (a : RegField)
  /-- CVT_N32_F32 (R123): Converts FP32 to n32, clamped. -/
  | cvtN32F32 (g : Guard) (d : RegField) (a : RegField)
  /-- CVT_F32_H2_LO (R123): Widens the low FP16 half of A to FP32. -/
  | cvtF32H2Lo (g : Guard) (d : RegField) (a : RegField)
  /-- CVT_F32_H2_HI (R123): Widens the high FP16 half of A to FP32. -/
  | cvtF32H2Hi (g : Guard) (d : RegField) (a : RegField)
  /-- CVT_H2_F32 (R123): Packs pair A as two FP16 halves of D. -/
  | cvtH2F32 (g : Guard) (d : RegField) (a : RegField) (s : Bool)
  /-- CVT_F32_B2_LO (R123): Widens the low BF16 half of A to FP32. -/
  | cvtF32B2Lo (g : Guard) (d : RegField) (a : RegField)
  /-- CVT_F32_B2_HI (R123): Widens the high BF16 half of A to FP32. -/
  | cvtF32B2Hi (g : Guard) (d : RegField) (a : RegField)
  /-- CVT_B2_F32 (R123): Packs pair A as two BF16 halves of D. -/
  | cvtB2F32 (g : Guard) (d : RegField) (a : RegField) (s : Bool)
  /-- CVT_H2_B2 (R123): Converts both BF16 halves of A to FP16. -/
  | cvtH2B2 (g : Guard) (d : RegField) (a : RegField) (s : Bool)
  /-- CVT_B2_H2 (R123): Converts both FP16 halves of A to BF16. -/
  | cvtB2H2 (g : Guard) (d : RegField) (a : RegField) (s : Bool)
  /-- CVT_E4M3_F32 (R123): Packs quad A as four E4M3 bytes of D. -/
  | cvtE4m3F32 (g : Guard) (d : RegField) (a : RegField) (s : Bool)
  /-- CVT_F32_E4M3 (R123): Widens four E4M3 bytes of A into quad D. -/
  | cvtF32E4m3 (g : Guard) (d : RegField) (a : RegField)
  /-- CVT_E5M2_F32 (R123): Packs quad A as four E5M2 bytes of D. -/
  | cvtE5m2F32 (g : Guard) (d : RegField) (a : RegField) (s : Bool)
  /-- CVT_F32_E5M2 (R123): Widens four E5M2 bytes of A into quad D. -/
  | cvtF32E5m2 (g : Guard) (d : RegField) (a : RegField)
  /-- CVT_E2M1_F32 (R123): Packs quad A as four E2M1 nibbles of D. -/
  | cvtE2m1F32 (g : Guard) (d : RegField) (a : RegField) (s : Bool)
  /-- CVT_F32_E2M1 (R123): Widens four E2M1 nibbles of A into quad D. -/
  | cvtF32E2m1 (g : Guard) (d : RegField) (a : RegField)
  /-- CVT_E4M3_H2 (R123): Packs four FP16 elements of pair A as E4M3 bytes. -/
  | cvtE4m3H2 (g : Guard) (d : RegField) (a : RegField) (s : Bool)
  /-- CVT_H2_E4M3 (R123): Widens four E4M3 bytes into FP16 halves of pair D. -/
  | cvtH2E4m3 (g : Guard) (d : RegField) (a : RegField)
  /-- CVT_I8_I32 (R123): Clamps quad A to four i8 bytes of D. -/
  | cvtI8I32 (g : Guard) (d : RegField) (a : RegField)
  /-- CVT_I32_I8 (R123): Sign-extends four i8 bytes of A into quad D. -/
  | cvtI32I8 (g : Guard) (d : RegField) (a : RegField)
  /-- CVT_N8_N32 (R123): Clamps quad A to four n8 bytes of D. -/
  | cvtN8N32 (g : Guard) (d : RegField) (a : RegField)
  /-- CVT_N32_N8 (R123): Zero-extends four n8 bytes of A into quad D. -/
  | cvtN32N8 (g : Guard) (d : RegField) (a : RegField)
  /-- ICMP (R106): Integer compare writing PD and its complement to PD^1. -/
  | icmp (g : Guard) (p : BitVec 4) (c : BitVec 3) (a : RegField) (b : RegField)
  /-- FCMP (R125): FP32 compare writing PD and its complement to PD^1. -/
  | fcmp (g : Guard) (p : BitVec 4) (c : BitVec 3) (a : RegField) (b : RegField)
  /-- HCMP (R125): Per-half FP16 compare writing the low result to PD and the high to PD^1. -/
  | hcmp (g : Guard) (p : BitVec 4) (c : BitVec 3) (a : RegField) (b : RegField)
  /-- PAND (R107): PD := PA and PB. -/
  | pand (g : Guard) (p : BitVec 4) (a : BitVec 4) (b : BitVec 4)
  /-- POR (R107): PD := PA or PB. -/
  | por (g : Guard) (p : BitVec 4) (a : BitVec 4) (b : BitVec 4)
  /-- PXOR (R107): PD := PA xor PB. -/
  | pxor (g : Guard) (p : BitVec 4) (a : BitVec 4) (b : BitVec 4)
  /-- PANDN (R107): PD := PA and not PB. -/
  | pandn (g : Guard) (p : BitVec 4) (a : BitVec 4) (b : BitVec 4)
  /-- PNOT (R107): PD := not PA. -/
  | pnot (g : Guard) (p : BitVec 4) (a : BitVec 4)
  /-- PTST (R107): PD := vA not zero. -/
  | ptst (g : Guard) (p : BitVec 4) (a : RegField)
  /-- PTOV (R107): Copies p0-p15 into bits 15:0 of vD. -/
  | ptov (g : Guard) (d : RegField)
  /-- VTOP (R107): Copies bits 15:1 of vA into p1-p15. -/
  | vtop (g : Guard) (a : RegField)
  /-- SHFL_IDX (R128): Each writing lane takes A of the lane named by its D. -/
  | shflIdx (g : Guard) (d : RegField) (a : RegField)
  /-- FIRST (R129): Broadcasts A of the lowest executing lane. -/
  | first (g : Guard) (d : RegField) (a : RegField)
  /-- VANY (R129): Writes 1 if A is non-zero in any executing lane. -/
  | vany (g : Guard) (d : RegField) (a : RegField)
  /-- VALL (R129): Writes 1 if A is non-zero in every executing lane. -/
  | vall (g : Guard) (d : RegField) (a : RegField)
  /-- VBAL (R129): Writes the mask of executing lanes with A non-zero. -/
  | vbal (g : Guard) (d : RegField) (a : RegField)
  /-- IREDSUM (R130): Integer sum reduction over the executing fragment. -/
  | iredsum (g : Guard) (d : RegField) (a : RegField)
  /-- IREDMIN (R130): Signed minimum reduction. -/
  | iredmin (g : Guard) (d : RegField) (a : RegField)
  /-- IREDMAX (R130): Signed maximum reduction. -/
  | iredmax (g : Guard) (d : RegField) (a : RegField)
  /-- NREDMIN (R130): Unsigned minimum reduction. -/
  | nredmin (g : Guard) (d : RegField) (a : RegField)
  /-- NREDMAX (R130): Unsigned maximum reduction. -/
  | nredmax (g : Guard) (d : RegField) (a : RegField)
  /-- REDAND (R130): Bitwise AND reduction. -/
  | redand (g : Guard) (d : RegField) (a : RegField)
  /-- REDOR (R130): Bitwise OR reduction. -/
  | redor (g : Guard) (d : RegField) (a : RegField)
  /-- REDXOR (R130): Bitwise XOR reduction. -/
  | redxor (g : Guard) (d : RegField) (a : RegField)
  /-- FREDSUM (R130): FP32 sum reduction in the fixed lane tree. -/
  | fredsum (g : Guard) (d : RegField) (a : RegField)
  /-- FREDMIN (R130): FP32 minimum reduction. -/
  | fredmin (g : Guard) (d : RegField) (a : RegField)
  /-- FREDMAX (R130): FP32 maximum reduction. -/
  | fredmax (g : Guard) (d : RegField) (a : RegField)
  /-- HREDSUM (R130): Per-half FP16 sum reduction. -/
  | hredsum (g : Guard) (d : RegField) (a : RegField)
  /-- ISCAN (R131): Inclusive integer prefix sum. -/
  | iscan (g : Guard) (d : RegField) (a : RegField)
  /-- ISCANX (R131): Exclusive integer prefix sum. -/
  | iscanx (g : Guard) (d : RegField) (a : RegField)
  /-- FSCAN (R131): Inclusive FP32 prefix sum from tree nodes. -/
  | fscan (g : Guard) (d : RegField) (a : RegField)
  /-- FSCANX (R131): Exclusive FP32 prefix sum from tree nodes. -/
  | fscanx (g : Guard) (d : RegField) (a : RegField)
  /-- SHFL_UP (R128): Each writing lane takes A of lane l minus c. -/
  | shflUp (g : Guard) (d : RegField) (a : RegField) (k : BitVec 5)
  /-- SHFL_DN (R128): Each writing lane takes A of lane l plus c. -/
  | shflDn (g : Guard) (d : RegField) (a : RegField) (k : BitVec 5)
  /-- SHFL_XOR (R128): Each writing lane takes A of lane l xor c. -/
  | shflXor (g : Guard) (d : RegField) (a : RegField) (k : BitVec 5)
  /-- LD (R138): Global load of 1 to 16 bytes per lane with a load counter. -/
  | ld (g : Guard) (d : RegField) (a : RegField) (h : BitVec 2) (c : BitVec 2) (s : BitVec 3)
  /-- ST (R139): Global store of 1 to 16 bytes per lane into held lines or write combining. -/
  | st (g : Guard) (d : RegField) (a : RegField) (h : BitVec 2) (c : BitVec 2) (s : BitVec 3)
  /-- LDA (R146): Global load that is an acquire at its scope. -/
  | lda (g : Guard) (d : RegField) (a : RegField) (z : BitVec 2) (s : BitVec 3)
  /-- STL (R146): Global store that is a release at its scope, after the waits of its scope. -/
  | stl (g : Guard) (d : RegField) (a : RegField) (z : BitVec 2) (s : BitVec 3)
  /-- LDS (R138): Scratchpad load checked against line presence. -/
  | lds (g : Guard) (d : RegField) (a : RegField) (c : BitVec 2) (s : BitVec 3)
  /-- STS (R139): Scratchpad store checked against line presence. -/
  | sts (g : Guard) (d : RegField) (a : RegField) (c : BitVec 2) (s : BitVec 3)
  /-- GATH (R144): Indexed global gather of one element per lane. -/
  | gath (g : Guard) (d : RegField) (a : RegField) (w : BitVec 2) (x : Bool) (e : BitVec 2) (c : BitVec 2)
  /-- SCAT (R144): Indexed global scatter of one element per lane. -/
  | scat (g : Guard) (d : RegField) (a : RegField) (w : BitVec 2) (x : Bool) (e : BitVec 2) (c : BitVec 2)
  /-- ATOM (R149): Global atomic step per lane at the home, both acquire and release. -/
  | atom (g : Guard) (d : RegField) (a : RegField) (o : BitVec 4) (s : BitVec 3)
  /-- ATOMS (R149): Scratchpad atomic step per lane at scopes 0-2. -/
  | atoms (g : Guard) (d : RegField) (a : RegField) (o : BitVec 4) (s : BitVec 3)
  /-- FENCE (R150): Full fence ordering earlier before later accesses at its scope. -/
  | fence (g : Guard) (s : BitVec 3)
  /-- FENCE_ACQ (R150): Acquire fence after earlier loads and atomics complete. -/
  | fenceAcq (g : Guard) (s : BitVec 3)
  /-- FENCE_REL (R150): Release fence after earlier accesses are performed at its scope. -/
  | fenceRel (g : Guard) (s : BitVec 3)
  /-- WAITC (R151): Stops the group until load counter cN is at most n. -/
  | waitc (g : Guard) (k : BitVec 6) (c : BitVec 2)
  /-- AWAIT (R152): Parks the group until each lane's word differs from D, then acquires. -/
  | await (g : Guard) (d : RegField) (a : RegField) (s : BitVec 3)
  /-- SLFIND (R154): Looks up the team's shelf-list entry for a tag. -/
  | slfind (g : Guard) (d : RegField) (a : RegField)
  /-- SLSET (R154): Installs a tag and line into the team's shelf list. -/
  | slset (g : Guard) (d : RegField) (a : RegField)
  /-- SLDROP (R154): Removes the team's shelf-list entry for a line. -/
  | sldrop (g : Guard) (a : RegField)
  /-- PRESQ (R154): Reads the present and pending bits of a scratchpad line. -/
  | presq (g : Guard) (d : RegField) (a : RegField)
  /-- PREF (R155): Starts a prefetch of a line or translation and never faults. -/
  | pref (g : Guard) (a : RegField) (h : BitVec 2)
  /-- MMA (R165): Group-collective matrix multiply-accumulate of one chunk into a tile. -/
  | mma (g : Guard) (d : RegField) (a : RegField) (b : RegField)
  /-- TILEOP_GEMM (R180): Hands a blocked GEMM over many tiles to the matrix engine. -/
  | tileopGemm (g : Guard) (a : RegField) (c : BitVec 2)
  /-- TILEOP_TRQ (R181): Hands a transpose-requantise of a tensor to the engine. -/
  | tileopTrq (g : Guard) (a : RegField) (c : BitVec 2)
  /-- TILEOP_CKV (R182): Hands a checksum verify and correct sweep of tiles to the engine. -/
  | tileopCkv (g : Guard) (a : RegField) (c : BitVec 2)
  /-- TILEOP_DRN (R182): Hands a checked drain of tiles to scratchpad to the engine. -/
  | tileopDrn (g : Guard) (a : RegField) (c : BitVec 2)
  /-- MXCLR (R170): Clears a tile and its checksums, V := 1. -/
  | mxclr (g : Guard) (a : RegField)
  /-- MXLD (R170): Loads a tile, or the lattice table, from scratchpad. -/
  | mxld (g : Guard) (d : RegField) (a : RegField)
  /-- MXST (R170): Stores a tile, or the lattice table, to scratchpad. -/
  | mxst (g : Guard) (d : RegField) (a : RegField)
  /-- MXDRN (R174): Compares, corrects, writes and clears a tile, or raises ABFT_UE. -/
  | mxdrn (g : Guard) (d : RegField) (a : RegField)
  /-- MXTOL (R172): Sets the group's checksum tolerance. -/
  | mxtol (g : Guard) (a : RegField)
  /-- MXRTOL (R172): Reads the group's checksum tolerance. -/
  | mxrtol (g : Guard) (d : RegField)
  /-- MXWAIT (R172): Stops the group until its earlier matrix work has completed. -/
  | mxwait (g : Guard)
  /-- COPY (R191): Supplies one slice to the team copy and marks destination lines pending. -/
  | copy (g : Guard) (a : RegField) (b : BitVec 4)
  /-- PUBLISH (R194): Waits for shadow writes, then exchanges a region's visible and shadow copies. -/
  | publish (g : Guard) (a : RegField)
  /-- MCAST (R197): Sends scratchpad bytes to the teams of the gang named by a mask. -/
  | mcast (g : Guard) (d : RegField) (a : RegField) (b : BitVec 4)
  /-- NBINIT (R202): Sets a named barrier's expected-member count. -/
  | nbinit (g : Guard) (a : RegField) (b : BitVec 4)
  /-- NBARR (R201): Arrives on a named barrier. -/
  | nbarr (g : Guard) (b : BitVec 4)
  /-- NBWAIT (R204): Stops the group until a named barrier reaches the wanted phase. -/
  | nbwait (g : Guard) (a : RegField) (b : BitVec 4)
  /-- NBSYNC (R204): Arrives, then waits for the phase the arrival completes. -/
  | nbsync (g : Guard) (b : BitVec 4)
  /-- WAITL (R204): As NBSYNC, and writes 1 in the last-arriver group. -/
  | waitl (g : Guard) (d : RegField) (b : BitVec 4)
  /-- NBRD (R204): Reads a named barrier's phase and arrivals. -/
  | nbrd (g : Guard) (d : RegField) (b : BitVec 4)
  /-- CALLSLIP (R207): Marks 16 lines pending and sends an interest for a named tile. -/
  | callslip (g : Guard) (d : RegField) (a : RegField)
  /-- ACCESSION (R209): Announces a tile under a name into the hub holdings and answers pending interests. -/
  | accession (g : Guard) (d : RegField) (a : RegField)
  /-- SLIPCAN (R210): Cancels every slip of the team for a name. -/
  | slipcan (g : Guard) (a : RegField)
  /-- HANDOFF (R212): Passes a token to the next team in dispatch order as a device release. -/
  | handoff (g : Guard) (a : RegField)
  /-- HANDWAIT (R213): Waits for the previous team's hand-off and writes token and status. -/
  | handwait (g : Guard) (d : RegField)
  /-- COLLRED (R215): Hands an all-reduce descriptor to the collective engine. -/
  | collred (g : Guard) (a : RegField)
  /-- COLLRSC (R215): Hands a reduce-scatter descriptor to the collective engine. -/
  | collrsc (g : Guard) (a : RegField)
  /-- COLLGAT (R215): Hands a gather descriptor to the collective engine. -/
  | collgat (g : Guard) (a : RegField)
  /-- COLLBC (R215): Hands a broadcast descriptor to the collective engine. -/
  | collbc (g : Guard) (a : RegField)
  /-- OPREG (R230): Registers the inverse routine of an operation kind. -/
  | opreg (g : Guard) (k : BitVec 7) (a : RegField)
  /-- OPDO (R231): Declares a speculative operation, resolving conflicts in the object table. -/
  | opdo (g : Guard) (k : BitVec 7) (a : RegField)
  /-- CONLD (R230): Loads the 1 KiB concordance image. -/
  | conld (g : Guard) (a : RegField)
  /-- BRA (R108): Per-lane branch to a PC-relative target where the guard holds. -/
  | bra (g : Guard) (o : BitVec 21)
  /-- CALL (R108): Per-lane call writing the return PC to v119. -/
  | call (g : Guard) (o : BitVec 21)
  /-- MOVC (R105): Writes a resolved constant-pool word into D. -/
  | movc (g : Guard) (d : BitVec 6) (i : BitVec 14)
  /-- BRX (R109): Per-lane indirect jump to the PC in vA. -/
  | brx (g : Guard) (a : RegField)
  /-- RET (R109): Per-lane return to the PC in vA. -/
  | ret (g : Guard) (a : RegField)
  /-- EXIT (R111): Sets Exited and clears the lane's mask bits. -/
  | exit (g : Guard)
  /-- JOIN (R112): Sets the lane's bit of mask mN. -/
  | join (g : Guard) (m : BitVec 7)
  /-- LEAVE (R112): Clears the lane's bit of mask mN and tests release. -/
  | leave (g : Guard) (m : BitVec 7)
  /-- WAITM (R113): Blocks the lane on mask mN until its members all wait there. -/
  | waitm (g : Guard) (m : BitVec 7)
  /-- YIELD (R115): Sets the yield exclusion of the executing lanes. -/
  | yield (g : Guard)
  /-- SETWB (R116): Sets the group's register window base. -/
  | setwb (g : Guard) (b : RegField)
  /-- BRK (R222): Forks a twin when enabled, otherwise raises BREAK. -/
  | brk (g : Guard)
  /-- TRAP (R222): Raises TRAP_INSTR with DETAIL d. -/
  | trap (g : Guard) (t : BitVec 7)
  /-- TRET (R219): Returns handler-set lanes to sr.tpc or the resume address. -/
  | tret (g : Guard)
  /-- RDSR (R223): Reads a special register into vA. -/
  | rdsr (g : Guard) (a : RegField) (x : BitVec 7)
  /-- WRSR (R223): Writes a special register from vA, subject to its access code. -/
  | wrsr (g : Guard) (a : RegField) (x : BitVec 7)
  /-- LAUNCH (R226): Releases at device scope and appends a launch packet to a queue. -/
  | launch (g : Guard) (a : RegField)
  /-- FACSIM (R228): Releases at system scope and waits for the launch-wide facsimile cut. -/
  | facsim (g : Guard) (a : RegField)
  /-- SMPSUSP (R224): Sets the group's sampling suspend bit. -/
  | smpsusp (g : Guard)
  /-- SMPRES (R224): Clears the group's sampling suspend bit. -/
  | smpres (g : Guard)
  /-- LOAD_COMPLETION (R138): A load's registers are written and its counter drops. -/
  | loadCompletion (acc : Nat)
  /-- STORE_COMPLETION (R140): A store's bytes reach the die cache, write combining or scratchpad and its counter drops. -/
  | storeCompletion (acc : Nat)
  /-- ATOM_COMPLETION (R149): An atomic's old value and status are written back. -/
  | atomCompletion (acc : Nat)
  /-- AWAIT_COMPLETION (R152): Every watched word differs from D and the group resumes with an acquire. -/
  | awaitCompletion (team grp : Nat)
  /-- LINE_ARRIVAL (R135): A pending scratchpad line becomes present and waiting checks run again. -/
  | lineArrival (team line : Nat)
  /-- INSTRUCTION_FETCH (R305): A 256-byte code line beyond the instruction buffer arrives from the die cache. -/
  | instructionFetch (team grp : Nat)
  /-- MATRIX_WORK_COMPLETION (R167): An MMA or MXCTL operation completes on its tile. -/
  | matrixWorkCompletion (work : Nat)
  /-- TILEOP_COMPLETION (R182): The engine writes STATUS, drops the counter and raises ABFT_UE or LAPSE if needed. -/
  | tileopCompletion (op : Nat)
  /-- TEAM_COPY_START (R189): A team copy starts once every group has issued its slice or ended. -/
  | teamCopyStart (team n : Nat)
  /-- TEAM_COPY_END (R191): All slices of a team copy end; completion records and transfer-unit arrival. -/
  | teamCopyEnd (team n : Nat)
  /-- MCAST_RECEIPT (R199): A receiver accepts or refuses a whole send and arrives on its barrier. -/
  | mcastReceipt (send bit : Nat)
  /-- MCAST_SEND_END (R199): Sender writes REFUSED and DELIVERED and its transfer unit arrives. -/
  | mcastSendEnd (send : Nat)
  /-- PUBLISH_EXCHANGE (R194): Shadow writes have landed; visible and shadow copies flip in one step. -/
  | publishExchange (team grp : Nat)
  /-- PUBLISH_BACKGROUND_COPY (R195): Base die finishes copying the new visible copy into the new shadow. -/
  | publishBackgroundCopy (ctx base : Nat)
  /-- TILE_DELIVERY (R207): A named tile lands in the slip's lines, which become present. -/
  | tileDelivery (slip : Nat)
  /-- COLLECTIVE_END (R215): A participant's collective writes land and its transfer unit arrives. -/
  | collectiveEnd (coll : Nat) (agree : Bool) (parts : List (List Byte))
  /-- FACSIM_CUT (R228): Every started team has issued FACSIM or ended; pages are copied. -/
  | facsimCut (launch : Nat)
  /-- FACSIM_COPY_COMPLETE (R386): All facsimile copies complete, sr.gen advances and STATUS is written. -/
  | facsimCopyComplete (launch : Nat)
  /-- FACSIMILE_DRAIN (R388): Background drain of a facsimile to host memory, ending with DONE. -/
  | facsimileDrain (ctx : Nat)
  /-- TASK_COMMIT (R229): An ended task commits once every lower task has committed. -/
  | taskCommit (team : Nat)
  /-- UNDO_RUN_END (R232): An undo run ends; the next runs, or the task is cleared and relaunched. -/
  | undoRunEnd (team : Nat)
  /-- GROUP_END (R22): A group whose lanes exited and whose accesses and matrix work completed ends. -/
  | groupEnd (team grp : Nat)
  /-- LINE_SCRUB (R265): Scrubber finishes zeroing a freed team's lines and tiles. -/
  | lineScrub (scrub : Nat)
  /-- GANG_RETIREMENT (R294): A deterministic gang retires in curve order and releases its held lines. -/
  | gangRetirement (launch gang : Nat)
  /-- LAUNCH_COMPLETION (R288): The completion record is written with DONE last as a system release. -/
  | launchCompletion (launch : Nat)
  /-- LAUNCH_ADMISSION (R286): Dispatcher takes a ready queue head, checks it and admits or refuses it. -/
  | launchAdmission (slice : Nat)
  /-- DEPENDENCE_READY (R287): All records named by DEPS show DONE, making the head ready or refused. -/
  | dependenceReady (queue prio : Nat)
  /-- DISPATCH_DECISION (R290): Places one team or gang, or reserves one share for a gang. -/
  | dispatchDecision (slice : Nat)
  /-- SWAP (R315): 64-cycle exchange of active and shadow banks once the incoming state is restored. -/
  | swap (core : Nat)
  /-- RESTORE_COMPLETE (R314): Restore engine finishes filling the shadow bank with the next context. -/
  | restoreComplete (core : Nat)
  /-- SPILL_COMPLETE (R322): The outgoing context's spill completes and the ladder goes to OUT. -/
  | spillComplete (core ctx : Nat)
  /-- MIGRATION_COPY_END (R277): Copier passes the last line; another pass or FREEZE begins. -/
  | migrationCopyEnd (mig : Nat)
  /-- MIGRATION_FREEZE_END (R277): Dirty lines recopied and translation flipped; DRAIN begins. -/
  | migrationFreezeEnd (mig : Nat)
  /-- MIGRATION_DRAIN_END (R277): Queued arrivals are performed at the new home; migration ends. -/
  | migrationDrainEnd (mig : Nat)
  /-- TWIN_CLAIM (R339): Arbiter grants or refuses a breakpoint or watchpoint claim. -/
  | twinClaim (ctx : Nat)
  /-- CUT_MARKER (R341): Cut marker or a marked item reaches a core or home, which cuts. -/
  | cutMarker (ctx : Nat) (home : Bool) (place : Nat)
  /-- CUT_COMPLETE (R341): Every core and home has cut; cut notice sent and twin FROZEN. -/
  | cutComplete (ctx : Nat)
  /-- STEP_DONE (R349): A stepped twin group finishes its issues or traps and is spilled. -/
  | stepDone (ctx : Nat)
  /-- RIVAL_END (R349): Every team of a rival has ended and its twin number is freed. -/
  | rivalEnd (ctx : Nat)
  /-- WC_AGE_EXPIRY (R368): A write-combining entry's age counter reaches 0 and it drains. -/
  | wcAgeExpiry (entry : Nat)
  /-- ACCESSION_HOLDING_READY (R209): The engine finishes reading an accessioned tile into the hub holdings, releasing waiting scratchpad writes and sending tile data to pending interests. -/
  | accessionHoldingReady (op : Nat)
  /-- ISSUE_DECISION (R21): Per-group issue decision that finds every eligible lane yield-excluded and clears the exclusions. -/
  | issueDecision (team grp : Nat)
  /-- ASYNC_TRAP_TAKEN (R218): A pending asynchronous trap is taken at its fragment's next issue decision. -/
  | asyncTrapTaken (team grp : Nat)
  /-- COPY_FAULT (R191): A slice stops at a fault and raises the cause asynchronously. -/
  | copyFault (team n grp : Nat)
  /-- SLIP_LAPSE (R208): A slip's lifetime expires and its unfilled lines become absent. -/
  | slipLapse (slip : Nat)
  /-- PARITY_BUILD (R389): Collective engine builds a member's parity chunk, ending with PDONE. -/
  | parityBuild (ctx : Nat) (others : List (Nat × List Byte))
  /-- HOST_FED_APPEND (R285): Monitor sees NEXT of the tail written and links the packet. -/
  | hostFedAppend (queue packet : Nat)
  /-- START_BARRIER_RELEASE (R289): Multi-part start barrier releases every replica with the combined result. -/
  | startBarrierRelease (queue : Nat) (pass : Bool) (status count : Nat)
  /-- START_BARRIER_TIMEOUT (R289): Start barrier not released in 10,000 us; every replica refuses with 0x24. -/
  | startBarrierTimeout (queue : Nat)
  /-- GANG_AGED (R292): 4,096 decisions pass since a gang's first reservation; it becomes aged. -/
  | gangAged (launch gang : Nat)
  /-- STALL_SAMPLE (R301): Sampling unit takes a sample every PERIOD cycles and writes or drops a record. -/
  | stallSample (core : Nat)
  /-- SMPCTL_WRITE (R300): Host write to sr.smpctl; setting EN clears FULL, WIDX and sr.smpdrop. -/
  | smpctlWrite (core : Nat) (v : Word)
  /-- BUDGET_PERIOD (R298): A new 65,536-cycle period resets background budget use. -/
  | budgetPeriod (die : Nat)
  /-- FRAME_SCRUB (R282): Scrub engine zeros a freed frame and moves it to the clean pool. -/
  | frameScrub (stack : Nat)
  /-- WATCHDOG (R325): A context's watchdog count reaches its limit and the context is killed on that core. -/
  | watchdog (core ctx : Nat)
  /-- PARK_RULE (R320): Parked fraction exceeds THR for the window; the core swaps the context out. -/
  | parkRule (core : Nat)
  /-- QUANTUM_EXPIRY (R323): Active time reaches QUANTUM with another ready context; ladder to SOFT. -/
  | quantumExpiry (core ctx : Nat)
  /-- PREEMPT_REQUEST (R322): Host command asking cores for a context starts the escalation ladder. -/
  | preemptRequest (fn ctx : Nat) (cores : List Nat)
  /-- GRACE_TIMER_EXPIRY (R322): Grace time ends; ladder goes from SOFT to HALT. -/
  | graceTimerExpiry (core ctx : Nat)
  /-- KILL_TIMER_EXPIRY (R322): Kill time ends in HALT; ladder goes to KILL. -/
  | killTimerExpiry (core ctx : Nat)
  /-- SPILL_LINE (R317): Spill engine moves one line between core and save area. -/
  | spillLine (core ctx : Nat)
  /-- RECALL (R326): Operator recall stops admission and chooses an action per queue. -/
  | recall (fn : Nat) (mask : Dword) (due : Nat) (noDiscard : Bool)
  /-- RECALL_SWITCH_TIME (R329): At S(q) a RUN queue with resident teams is discarded or checkpointed. -/
  | recallSwitchTime (queue : Nat)
  /-- RECALL_DUE (R329): At the due date everything still resident is killed and reported KILLED. -/
  | recallDue (mask : Dword)
  /-- STORE_REFUSAL (R311): A target refuses a remote store line; a STORE_IMPRECISE report is delivered. -/
  | storeRefusal (req : Nat) (readOnly : Bool)
  /-- PROMOTION_REQUEST (R245): Marked core performs earlier core-local releases at the acquire's scope and answers. -/
  | promotionRequest (core scope : Nat) (p : Packet)
  /-- PAGE_MIGRATE (R277): Host command begins moving a page to a new home in state COPY. -/
  | pageMigrate (fn ctx va newPa : Nat)
  /-- HOST_INVALIDATE (R275): Host invalidation is acknowledged once old translations are dropped and their accesses performed. -/
  | hostInvalidate (ctx va : Nat)
  /-- FAULT_FILL (R274): Host posts a fill; groups parked on the page repeat their checks. -/
  | faultFill (ctx va : Nat) (leaf : Dword)
  /-- FAULT_REFUSAL (R274): Host refuses a fault; parked groups raise PAGE_FAULT. -/
  | faultRefusal (ctx va : Nat)
  /-- CXL_MEM_READ (R397): Host read of HBM performed at the line's home, refused on a MET page. -/
  | cxlMemRead (pa n : Nat)
  /-- CXL_MEM_WRITE (R397): Host write to HBM performed at the line's home at system scope. -/
  | cxlMemWrite (pa : Nat) (bytes : List Byte)
  /-- CUT (R340): A core captures every group of the context into the twin. -/
  | cut (core ctx : Nat)
  /-- TEST_PASS_END (R380): A cluster's in-field test pass passes and its pass time is recorded. -/
  | testPassEnd (cluster time : Nat)
  /-- TEST_PASS_FAIL (R381): A failed pass kills the cluster's contexts, retires it and sends a taint notice. -/
  | testPassFail (cluster time : Nat)
  /-- WARNING (R384): Corrected errors reach THRESH within WINDOW and the warning word is rewritten. -/
  | warning (die : Nat)
  /-- LOAD_PACKET (R359): A load request arrives at its home and is answered. -/
  | loadPacket (p : Packet)
  /-- STORE_PACKET (R365): A store arrives at the target, checked against exports and the reply cache. -/
  | storePacket (p : Packet)
  /-- ATOMIC_PACKET (R364): An atomic arrives at the target, applied once or answered from the reply cache. -/
  | atomicPacket (p : Packet)
  /-- REPLY_PACKET (R363): A reply returns to the source and ends its request. -/
  | replyPacket (p : Packet)
  /-- CUSTODY_PACKET (R362): Custody arrives and the previous hop frees its copy. -/
  | custodyPacket (p : Packet)
  /-- ERROR_NOTICE (R362): A switch reports that it cannot deliver a packet. -/
  | errorNotice (p : Packet)
  /-- ENGINE_DATA_PACKET (R360): Sprayed engine data enters the reorder buffer and lands in order. -/
  | engineDataPacket (p : Packet) (last : Bool)
  /-- INTEREST_PACKET (R374): A router answers, merges or forwards an interest for a named tile. -/
  | interestPacket (router : Router) (face : Face) (p : Packet)
  /-- TILE_DATA_PACKET (R375): Tile data passes a router, is held and sent on every face. -/
  | tileDataPacket (router : Router) (p : Packet)
  /-- LAPSE_NOTICE (R376): A lapse notice ends the slips of its name at the issuing hub. -/
  | lapseNotice (p : Packet)
  /-- PENDING_ENTRY_EXPIRY (R376): A pending interest entry expires and lapse notices go to its faces. -/
  | pendingEntryExpiry (router : Router) (entry : Nat)
  /-- RELEASE_PACKET (R371): A barrier release packet arrives at a member part. -/
  | releasePacket (p : Packet)
  /-- FLIT_CRC_ERROR (R357): A receiver asks for a replay and the sender replays from its retry buffer. -/
  | flitCrcError (port : Nat) (replayed : Bool)
  /-- ACTIVE_LIST_CHANGE (R361): Usable plane list changes after old ordered packets are answered. -/
  | activeListChange (planes : List Nat)
  /-- RETRANSMIT_TIMEOUT (R363): No reply within 100 us; the request is resent or refused after four sends. -/
  | retransmitTimeout (req : Nat)
  /-- BUSY_RESEND (R365): 10 us after a busy reply the source resends busy stores in order. -/
  | busyResend (part die : Nat)
  /-- REPLY_CACHE_EXPIRY (R364): An atomic entry is freed after 1,000 us and the expiry mark advances. -/
  | replyCacheExpiry (die src : Nat) (rid : Word)
  /-- CATALOGUE_LOAD (R373): A hub or switch catalogue entry is loaded. -/
  | catalogueLoad (router : Router) (index : Nat) (v : BitVec 128)
  /-- CTXNEW (R272): Creates a context with its translation table base. -/
  | ctxnew (fn ctx slice base : Nat)
  /-- CTXFREE (R399): Frees a context that has no team or queue. -/
  | ctxfree (fn ctx : Nat)
  /-- QCREATE (R284): Creates a launch queue with its anchor, feed and replica set. -/
  | qcreate (fn queue ctx : Nat) (deviceFed : Bool) (anchor : Nat) (repset : List Nat) (deft : Word)
  /-- REGIMG (R403): Copies and measures a kernel image into the image store. -/
  | regimg (fn ctx addr dataBase : Nat)
  /-- MAPWIN (R397): Maps a host-memory window. -/
  | mapwin (fn index base size : Nat)
  /-- FRAME_ALLOC (R282): Allocates a clean frame from a stack's clean pool, stalling if empty. -/
  | frameAlloc (fn slice stack : Nat)
  /-- FRAME_FREE (R282): Returns a frame to its stack's scrub queue. -/
  | frameFree (fn frame : Nat)
  /-- PUBREG (R276): Registers a publishable region with its shadow. -/
  | pubreg (fn ctx va bytes pa : Nat)
  /-- METREG (R391): Registers a metered region with its allowlist and signs an open statement. -/
  | metreg (fn : Nat) (region : Word) (base pages : Nat) (allow : List (List Byte))
  /-- METDEREG (R395): Deregisters a metered region and signs a close statement. -/
  | metdereg (fn : Nat) (region : Word)
  /-- SLICESET (R281): Changes the slice table for unused clusters and stacks. -/
  | sliceset (fn slice : Nat) (clusters : BitVec 40) (stackSet : BitVec 16)
  /-- SETREG_CXPARK (R321): Sets a context's park rule. -/
  | setregCxpark (fn ctx : Nat) (v : Word)
  /-- SETREG_CXTIME (R323): Sets a context's grace, kill and quantum times. -/
  | setregCxtime (fn ctx : Nat) (v : Dword)
  /-- SETREG_TWINCTL (R338): Sets twin control, reserving or returning the overlay. -/
  | setregTwinctl (fn ctx : Nat) (v : Word)
  /-- SETREG_BPIMG (R336): Sets a breakpoint's image filter. -/
  | setregBpimg (fn ctx n : Nat) (v : Dword)
  /-- SETREG_BGBUD (R299): Sets a background activity's budget. -/
  | setregBgbud (fn n die : Nat) (v : Word)
  /-- SETREG_WARNCFG (R384): Sets a die's warning thresholds. -/
  | setregWarncfg (fn die : Nat) (v : Word)
  /-- SETREG_WATCHDOG_LIMIT (R304): Sets a context's watchdog limit. -/
  | setregWatchdogLimit (fn ctx : Nat) (v : Dword)
  /-- HOST_REGISTER_WRITE (R28): Host write to an RH register that has no row of its own. -/
  | hostRegisterWrite (unit num : Nat) (v : Dword)
  /-- TWIN_STEP (R350): Restores the twin and lets one group issue n instructions. -/
  | twinStep (fn ctx team grp n : Nat)
  /-- TWIN_EDIT (R350): Writes saved state or view bytes of a frozen twin. -/
  | twinEdit (fn ctx : Nat) (target : TwinTarget) (v : List Byte)
  /-- TWIN_RELEASE (R348): Sends the twin's quarantine queue in order. -/
  | twinRelease (fn ctx : Nat)
  /-- TWIN_RESUME (R351): Makes the twin a rival context. -/
  | twinResume (fn ctx : Nat)
  /-- TWIN_DISCARD (R351): Stops the twin and frees its save areas, overlay and number. -/
  | twinDiscard (fn ctx : Nat)
  /-- TREAD (R354): Reads a frozen twin's register or memory view. -/
  | tread (fn ctx : Nat) (target : TwinTarget)
  /-- EXPORT (R369): Writes an export window for remote accesses. -/
  | exportWindow (fn index : Nat) (v : BitVec 128)
  /-- RESTORE (R390): Restores the highest usable facsimile step, rebuilding one part from parity if needed. -/
  | restore (fn ctx : Nat) (manifests : List Manifest) (onto : Nat)
  /-- MIGRATE_IN (R395): Continues a metered region's chain on the destination part. -/
  | migrateIn (fn : Nat) (region : Word) (base pages : Nat) (allow : List (List Byte)) (stmt : List Byte)
  /-- MIGRATE_OUT (R395): Signs a final statement and deregisters the region. -/
  | migrateOut (fn : Nat) (region : Word)
  /-- REPLACE (R395): Continues a lost part's chain on a new part with GAP set. -/
  | replace (fn : Nat) (region : Word) (base pages : Nat) (allow : List (List Byte)) (stmt : List Byte)
  /-- PWRLIM (R406): Sets the module power limit. -/
  | pwrlim (fn watts : Nat)
  /-- STARTINFO (R405): Returns the start record. -/
  | startinfo (fn : Nat)
  /-- POWER_WINDOW (R406): Each 1 ms window the controller picks the clock step that keeps power under the limit. -/
  | powerWindow (milliwatts : Nat)
  /-- THROTTLE_105 (R407): A die reaching 105 C goes to clock step 4. -/
  | throttle105 (die : Nat)
  /-- THROTTLE_END_95 (R407): A throttled die falling below 95 C leaves step 4. -/
  | throttleEnd95 (die : Nat)
  /-- THERMAL_TRIP (R407): At 115 C every clock stops, every launch ends and the part is held in reset. -/
  | thermalTrip (die : Nat)
  /-- POWER_GOOD (R404): Power-good starts a start-up attempt. -/
  | powerGood (result : StartResult)
  /-- FUNDAMENTAL_RESET (R405): A fundamental reset starts a normal start-up attempt. -/
  | fundamentalReset (byHost : Bool) (result : StartResult)
  /-- SENSOR_UPDATE (R408): PLDM sensors are updated every 10 ms. -/
  | sensorUpdate (v : Sensors)
  /-- PLDM_SENSOR_READ (R408): Returns platform sensor values over MCTP. -/
  | pldmSensorRead (sensor : Nat)
  /-- MCTP_CONTROL (R408): Handles an MCTP control message. -/
  | mctpControl (cmd : Nat) (arg : Nat)
  /-- GET_VERSION (R401): SPDM version request. -/
  | getVersion
  /-- GET_CAPABILITIES (R401): SPDM capabilities request. -/
  | getCapabilities (peer : List Byte)
  /-- NEGOTIATE_ALGORITHMS (R401): SPDM negotiation of P-384, SHA-384 and AES-256-GCM. -/
  | negotiateAlgorithms (offer : SpdmOffer)
  /-- GET_DIGESTS (R401): SPDM certificate digests request. -/
  | getDigests
  /-- GET_CERTIFICATE (R401): SPDM request for the device certificate. -/
  | getCertificate (slot offset length : Nat)
  /-- CHALLENGE (R401): SPDM challenge signed by the device identity key. -/
  | challenge (slot : Nat) (nonce : List Byte)
  /-- GET_MEASUREMENTS (R402): Returns the six measurement blocks. -/
  | getMeasurements (index : Nat) (sign : Bool) (nonce : List Byte)
  /-- KEY_EXCHANGE (R401): SPDM ECDHE key exchange. -/
  | keyExchange (share : List Byte)
  /-- FINISH (R401): SPDM session finish. -/
  | finish (mac : List Byte)
  /-- KEY_UPDATE (R401): SPDM session key update. -/
  | keyUpdate (op : Nat)
  /-- BARRIER_PACKET (R371): A member's barrier packet with PASS and STATUS arrives at the home spine's reduction unit and is combined. -/
  | barrierPacket (plane spine : Nat) (p : Packet)
  /-- BARRIER_HOME_FAILURE (R371): The home spine of an open barrier fails, so the barrier ends as failed with status 0x24 and the start count moves to its mirror. -/
  | barrierHomeFailure (set : List Nat) (kind : Nat)
  /-- RECALL_LIFT (R330): The host lifts a recall, after which discarded teams are placed again and the context is restored on the same cores. -/
  | recallLift (fn : Nat) (mask : Dword)
  /-- CXL_MEM_COMPLETION (R146): A CXL.mem completion acknowledges a drained host-memory store, letting a release at scope 3-5 that waits for it go on. -/
  | cxlMemCompletion (req : Nat)
  /-- FACSIMILE_REGISTRATION (R386): The host registers a context's facsimile areas, manifest template and drain target through the Iswell controller. -/
  | facsimileRegistration (fn ctx : Nat) (areas : List (Nat × Nat)) (template target bytes : Nat)
  /-- WARNING_WORD_REGISTRATION (R385): The host registers a context's 8-byte warning word for the Iswell controller to rewrite on each warning. -/
  | warningWordRegistration (fn ctx va : Nat)
deriving DecidableEq, Repr

end Sys2Proof
end

