-- ==== Sys2Proof/WellFormed.lean ====
section
/-!
DEFINITION. The checks of an encoded instruction that its word alone decides beyond the opcode tables: the modifier, mask,
window and kind values that R72 row 2 rejects (R137, R148, R70, R71). Events carry no encoding and are well formed.
-/
namespace Sys2Proof

/-- LD and LDS sizes: code 7 is no size (R137). -/
def ldSizeOk (s : BitVec 3) : Bool := s.toNat != 7

/-- ST and STS sizes: the sign-extending codes 1 and 3 and code 7 are no store size (R137). -/
def stSizeOk (s : BitVec 3) : Bool := s.toNat != 1 && s.toNat != 3 && s.toNat != 7

/-- ST has no hint 3 (R137). -/
def stHintOk (h : BitVec 2) : Bool := h.toNat != 3

/-- ATOM and ATOMS have the operations 0x0-0xD (R148). -/
def atomOpOk (o : BitVec 4) : Bool := o.toNat < 14

/-- JOIN, LEAVE and WAITM name m0-m11 (R71). -/
def maskOk (m : BitVec 7) : Bool := m.toNat < 12

/-- SETWB sets a base of 0-240 in steps of 8 (R71). -/
def windowOk (b : BitVec 7) : Bool := b.toNat < 31

/-- OPREG and OPDO name the kinds 0-63 (R70). -/
def kindOk (k : BitVec 7) : Bool := k.toNat < 64

/-- The word-level well-formedness of an instruction (R72 row 2). -/
def Instr.wf : Instr → Bool
  | .iadd _ _ _ _ => true
  | .isub _ _ _ _ => true
  | .imul _ _ _ _ => true
  | .imad _ _ _ _ => true
  | .imulh _ _ _ _ => true
  | .imulhn _ _ _ _ => true
  | .and _ _ _ _ => true
  | .or _ _ _ _ => true
  | .xor _ _ _ _ => true
  | .andn _ _ _ _ => true
  | .shl _ _ _ _ => true
  | .shr _ _ _ _ => true
  | .sra _ _ _ _ => true
  | .imin _ _ _ _ => true
  | .imax _ _ _ _ => true
  | .nmin _ _ _ _ => true
  | .nmax _ _ _ _ => true
  | .sel _ _ _ _ => true
  | .bfx _ _ _ _ => true
  | .bfi _ _ _ _ => true
  | .add64 _ _ _ => true
  | .sub64 _ _ _ => true
  | .divs _ _ _ => true
  | .divn _ _ _ => true
  | .rems _ _ _ => true
  | .remn _ _ _ => true
  | .popc _ _ _ => true
  | .clz _ _ _ => true
  | .brev _ _ _ => true
  | .bswap _ _ _ => true
  | .iabs _ _ _ => true
  | .ineg _ _ _ => true
  | .mov _ _ _ => true
  | .shli _ _ _ _ => true
  | .shri _ _ _ _ => true
  | .srai _ _ _ _ => true
  | .rori _ _ _ _ => true
  | .movi _ _ _ => true
  | .addi _ _ _ => true
  | .fadd _ _ _ _ => true
  | .fmul _ _ _ _ => true
  | .ffma _ _ _ _ => true
  | .fmin _ _ _ _ => true
  | .fmax _ _ _ _ => true
  | .hadd _ _ _ _ => true
  | .hmul _ _ _ _ => true
  | .hfma _ _ _ _ => true
  | .hmin _ _ _ _ => true
  | .hmax _ _ _ _ => true
  | .bfma _ _ _ _ => true
  | .fsqrt _ _ _ => true
  | .frcp _ _ _ => true
  | .frsq _ _ _ => true
  | .fexp2 _ _ _ => true
  | .flog2 _ _ _ => true
  | .fsin _ _ _ => true
  | .fcos _ _ _ => true
  | .ftanh _ _ _ => true
  | .fabs _ _ _ => true
  | .fneg _ _ _ => true
  | .frint _ _ _ => true
  | .ffloor _ _ _ => true
  | .fceil _ _ _ => true
  | .ftrunc _ _ _ => true
  | .fclass _ _ _ => true
  | .habs _ _ _ => true
  | .hneg _ _ _ => true
  | .hsqrt _ _ _ => true
  | .hrcp _ _ _ => true
  | .babs _ _ _ => true
  | .bneg _ _ _ => true
  | .cvtF32I32 _ _ _ => true
  | .cvtF32N32 _ _ _ => true
  | .cvtI32F32 _ _ _ => true
  | .cvtN32F32 _ _ _ => true
  | .cvtF32H2Lo _ _ _ => true
  | .cvtF32H2Hi _ _ _ => true
  | .cvtH2F32 _ _ _ _ => true
  | .cvtF32B2Lo _ _ _ => true
  | .cvtF32B2Hi _ _ _ => true
  | .cvtB2F32 _ _ _ _ => true
  | .cvtH2B2 _ _ _ _ => true
  | .cvtB2H2 _ _ _ _ => true
  | .cvtE4m3F32 _ _ _ _ => true
  | .cvtF32E4m3 _ _ _ => true
  | .cvtE5m2F32 _ _ _ _ => true
  | .cvtF32E5m2 _ _ _ => true
  | .cvtE2m1F32 _ _ _ _ => true
  | .cvtF32E2m1 _ _ _ => true
  | .cvtE4m3H2 _ _ _ _ => true
  | .cvtH2E4m3 _ _ _ => true
  | .cvtI8I32 _ _ _ => true
  | .cvtI32I8 _ _ _ => true
  | .cvtN8N32 _ _ _ => true
  | .cvtN32N8 _ _ _ => true
  | .icmp _ _ _ _ _ => true
  | .fcmp _ _ _ _ _ => true
  | .hcmp _ _ _ _ _ => true
  | .pand _ _ _ _ => true
  | .por _ _ _ _ => true
  | .pxor _ _ _ _ => true
  | .pandn _ _ _ _ => true
  | .pnot _ _ _ => true
  | .ptst _ _ _ => true
  | .ptov _ _ => true
  | .vtop _ _ => true
  | .shflIdx _ _ _ => true
  | .first _ _ _ => true
  | .vany _ _ _ => true
  | .vall _ _ _ => true
  | .vbal _ _ _ => true
  | .iredsum _ _ _ => true
  | .iredmin _ _ _ => true
  | .iredmax _ _ _ => true
  | .nredmin _ _ _ => true
  | .nredmax _ _ _ => true
  | .redand _ _ _ => true
  | .redor _ _ _ => true
  | .redxor _ _ _ => true
  | .fredsum _ _ _ => true
  | .fredmin _ _ _ => true
  | .fredmax _ _ _ => true
  | .hredsum _ _ _ => true
  | .iscan _ _ _ => true
  | .iscanx _ _ _ => true
  | .fscan _ _ _ => true
  | .fscanx _ _ _ => true
  | .shflUp _ _ _ _ => true
  | .shflDn _ _ _ _ => true
  | .shflXor _ _ _ _ => true
  | .ld _ _ _ _ _ s => ldSizeOk s
  | .st _ _ _ h _ s => stSizeOk s && stHintOk h
  | .lda _ _ _ _ _ => true
  | .stl _ _ _ _ _ => true
  | .lds _ _ _ _ s => ldSizeOk s
  | .sts _ _ _ _ s => stSizeOk s
  | .gath _ _ _ _ _ _ _ => true
  | .scat _ _ _ _ _ _ _ => true
  | .atom _ _ _ o _ => atomOpOk o
  | .atoms _ _ _ o _ => atomOpOk o
  | .fence _ _ => true
  | .fenceAcq _ _ => true
  | .fenceRel _ _ => true
  | .waitc _ _ _ => true
  | .await _ _ _ _ => true
  | .slfind _ _ _ => true
  | .slset _ _ _ => true
  | .sldrop _ _ => true
  | .presq _ _ _ => true
  | .pref _ _ _ => true
  | .mma _ _ _ _ => true
  | .tileopGemm _ _ _ => true
  | .tileopTrq _ _ _ => true
  | .tileopCkv _ _ _ => true
  | .tileopDrn _ _ _ => true
  | .mxclr _ _ => true
  | .mxld _ _ _ => true
  | .mxst _ _ _ => true
  | .mxdrn _ _ _ => true
  | .mxtol _ _ => true
  | .mxrtol _ _ => true
  | .mxwait _ => true
  | .copy _ _ _ => true
  | .publish _ _ => true
  | .mcast _ _ _ _ => true
  | .nbinit _ _ _ => true
  | .nbarr _ _ => true
  | .nbwait _ _ _ => true
  | .nbsync _ _ => true
  | .waitl _ _ _ => true
  | .nbrd _ _ _ => true
  | .callslip _ _ _ => true
  | .accession _ _ _ => true
  | .slipcan _ _ => true
  | .handoff _ _ => true
  | .handwait _ _ => true
  | .collred _ _ => true
  | .collrsc _ _ => true
  | .collgat _ _ => true
  | .collbc _ _ => true
  | .opreg _ k _ => kindOk k
  | .opdo _ k _ => kindOk k
  | .conld _ _ => true
  | .bra _ _ => true
  | .call _ _ => true
  | .movc _ _ _ => true
  | .brx _ _ => true
  | .ret _ _ => true
  | .exit _ => true
  | .join _ m => maskOk m
  | .leave _ m => maskOk m
  | .waitm _ m => maskOk m
  | .yield _ => true
  | .setwb _ b => windowOk b
  | .brk _ => true
  | .trap _ _ => true
  | .tret _ => true
  | .rdsr _ _ _ => true
  | .wrsr _ _ _ => true
  | .launch _ _ => true
  | .facsim _ _ => true
  | .smpsusp _ => true
  | .smpres _ => true
  | .loadCompletion _ => true
  | .storeCompletion _ => true
  | .atomCompletion _ => true
  | .awaitCompletion _ _ => true
  | .lineArrival _ _ => true
  | .instructionFetch _ _ => true
  | .matrixWorkCompletion _ => true
  | .tileopCompletion _ => true
  | .teamCopyStart _ _ => true
  | .teamCopyEnd _ _ => true
  | .mcastReceipt _ _ => true
  | .mcastSendEnd _ => true
  | .publishExchange _ _ => true
  | .publishBackgroundCopy _ _ => true
  | .tileDelivery _ => true
  | .facsimCut _ => true
  | .facsimCopyComplete _ => true
  | .facsimileDrain _ => true
  | .taskCommit _ => true
  | .undoRunEnd _ => true
  | .groupEnd _ _ => true
  | .lineScrub _ => true
  | .gangRetirement _ _ => true
  | .launchCompletion _ => true
  | .launchAdmission _ => true
  | .dependenceReady _ _ => true
  | .dispatchDecision _ => true
  | .frameScrub _ => true
  | .swap _ => true
  | .restoreComplete _ => true
  | .spillLine _ _ => true
  | .spillComplete _ _ => true
  | .migrationCopyEnd _ => true
  | .migrationFreezeEnd _ => true
  | .migrationDrainEnd _ => true
  | .twinClaim _ => true
  | .cut _ _ => true
  | .cutMarker _ _ _ => true
  | .cutComplete _ => true
  | .stepDone _ => true
  | .wcAgeExpiry _ => true
  | .accessionHoldingReady _ => true
  | .issueDecision _ _ => true
  | .asyncTrapTaken _ _ => true
  | .copyFault _ _ _ => true
  | .slipLapse _ => true
  | .collectiveEnd _ _ _ => true
  | .parityBuild _ _ => true
  | .hostFedAppend _ _ => true
  | .startBarrierRelease _ _ _ _ => true
  | .startBarrierTimeout _ => true
  | .gangAged _ _ => true
  | .stallSample _ => true
  | .smpctlWrite _ _ => true
  | .budgetPeriod _ => true
  | .watchdog _ _ => true
  | .parkRule _ => true
  | .quantumExpiry _ _ => true
  | .preemptRequest _ _ _ => true
  | .graceTimerExpiry _ _ => true
  | .killTimerExpiry _ _ => true
  | .recall _ _ _ _ => true
  | .recallSwitchTime _ => true
  | .recallDue _ => true
  | .storeRefusal _ _ => true
  | .promotionRequest _ _ _ => true
  | .pageMigrate _ _ _ _ => true
  | .hostInvalidate _ _ => true
  | .faultFill _ _ _ => true
  | .faultRefusal _ _ => true
  | .cxlMemRead _ _ => true
  | .cxlMemWrite _ _ => true
  | .rivalEnd _ => true
  | .testPassEnd _ _ => true
  | .testPassFail _ _ => true
  | .warning _ => true
  | .loadPacket _ => true
  | .storePacket _ => true
  | .atomicPacket _ => true
  | .replyPacket _ => true
  | .custodyPacket _ => true
  | .errorNotice _ => true
  | .engineDataPacket _ _ => true
  | .interestPacket _ _ _ => true
  | .tileDataPacket _ _ => true
  | .lapseNotice _ => true
  | .pendingEntryExpiry _ _ => true
  | .releasePacket _ => true
  | .flitCrcError _ _ => true
  | .activeListChange _ => true
  | .retransmitTimeout _ => true
  | .busyResend _ _ => true
  | .replyCacheExpiry _ _ _ => true
  | .catalogueLoad _ _ _ => true
  | .ctxnew _ _ _ _ => true
  | .ctxfree _ _ => true
  | .qcreate _ _ _ _ _ _ _ => true
  | .regimg _ _ _ _ => true
  | .mapwin _ _ _ _ => true
  | .frameAlloc _ _ _ => true
  | .frameFree _ _ => true
  | .pubreg _ _ _ _ _ => true
  | .metreg _ _ _ _ _ => true
  | .metdereg _ _ => true
  | .sliceset _ _ _ _ => true
  | .setregCxpark _ _ _ => true
  | .setregCxtime _ _ _ => true
  | .setregTwinctl _ _ _ => true
  | .setregBpimg _ _ _ _ => true
  | .setregBgbud _ _ _ _ => true
  | .setregWarncfg _ _ _ => true
  | .setregWatchdogLimit _ _ _ => true
  | .hostRegisterWrite _ _ _ => true
  | .twinStep _ _ _ _ _ => true
  | .twinEdit _ _ _ _ => true
  | .twinRelease _ _ => true
  | .twinResume _ _ => true
  | .twinDiscard _ _ => true
  | .tread _ _ _ => true
  | .exportWindow _ _ _ => true
  | .restore _ _ _ _ => true
  | .migrateIn _ _ _ _ _ _ => true
  | .migrateOut _ _ => true
  | .replace _ _ _ _ _ _ => true
  | .pwrlim _ _ => true
  | .startinfo _ => true
  | .powerWindow _ => true
  | .throttle105 _ => true
  | .throttleEnd95 _ => true
  | .thermalTrip _ => true
  | .powerGood _ => true
  | .fundamentalReset _ _ => true
  | .sensorUpdate _ => true
  | .pldmSensorRead _ => true
  | .mctpControl _ _ => true
  | .getVersion => true
  | .getCapabilities _ => true
  | .negotiateAlgorithms _ => true
  | .getDigests => true
  | .getCertificate _ _ _ => true
  | .challenge _ _ => true
  | .getMeasurements _ _ _ => true
  | .keyExchange _ => true
  | .finish _ => true
  | .keyUpdate _ => true
  | .barrierPacket _ _ _ => true
  | .barrierHomeFailure _ _ => true
  | .recallLift _ _ => true
  | .cxlMemCompletion _ => true
  | .facsimileRegistration _ _ _ _ _ _ => true
  | .warningWordRegistration _ _ _ => true

end Sys2Proof
end

