-- ==== Sys2Proof/Decode.lean ====
section
/-!
DEFINITION. Decoding an instruction word, total and rejecting what the tables of R55-R71 leave unassigned, and the encoder
written from the same tables.
-/
namespace Sys2Proof

/-- The `len` bits of a word from bit `lo` upward. -/
def fld (w : Word) (lo len : Nat) : BitVec len := w.extractLsb' lo len

/-- The guard in bits 25 and 24..21 of every word (R51). -/
def guardOf (w : Word) : Guard := ⟨fld w 25 1 == 1#1, fld w 21 4⟩

/-- The words of major 0x14 (R56-R71): a non-zero unused field or an unlisted code is no instruction. -/
def decodeInt1 (w : Word) : Option Instr :=
  if fld w 0 7 == 0x0#7 then some (.add64 (guardOf w) (fld w 14 7) (fld w 7 7)) else
  if fld w 0 7 == 0x1#7 then some (.sub64 (guardOf w) (fld w 14 7) (fld w 7 7)) else
  if fld w 0 7 == 0x2#7 then some (.divs (guardOf w) (fld w 14 7) (fld w 7 7)) else
  if fld w 0 7 == 0x3#7 then some (.divn (guardOf w) (fld w 14 7) (fld w 7 7)) else
  if fld w 0 7 == 0x4#7 then some (.rems (guardOf w) (fld w 14 7) (fld w 7 7)) else
  if fld w 0 7 == 0x5#7 then some (.remn (guardOf w) (fld w 14 7) (fld w 7 7)) else
  if fld w 0 7 == 0x8#7 then some (.popc (guardOf w) (fld w 14 7) (fld w 7 7)) else
  if fld w 0 7 == 0x9#7 then some (.clz (guardOf w) (fld w 14 7) (fld w 7 7)) else
  if fld w 0 7 == 0xA#7 then some (.brev (guardOf w) (fld w 14 7) (fld w 7 7)) else
  if fld w 0 7 == 0xB#7 then some (.bswap (guardOf w) (fld w 14 7) (fld w 7 7)) else
  if fld w 0 7 == 0xC#7 then some (.iabs (guardOf w) (fld w 14 7) (fld w 7 7)) else
  if fld w 0 7 == 0xD#7 then some (.ineg (guardOf w) (fld w 14 7) (fld w 7 7)) else
  if fld w 0 7 == 0xE#7 then some (.mov (guardOf w) (fld w 14 7) (fld w 7 7)) else
  none

/-- The words of major 0x15 (R56-R71): a non-zero unused field or an unlisted code is no instruction. -/
def decodeShi (w : Word) : Option Instr :=
  if fld w 5 2 == 0x0#2 then some (.shli (guardOf w) (fld w 14 7) (fld w 7 7) (fld w 0 5)) else
  if fld w 5 2 == 0x1#2 then some (.shri (guardOf w) (fld w 14 7) (fld w 7 7) (fld w 0 5)) else
  if fld w 5 2 == 0x2#2 then some (.srai (guardOf w) (fld w 14 7) (fld w 7 7) (fld w 0 5)) else
  if fld w 5 2 == 0x3#2 then some (.rori (guardOf w) (fld w 14 7) (fld w 7 7) (fld w 0 5)) else
  none

/-- The words of major 0x23 (R56-R71): a non-zero unused field or an unlisted code is no instruction. -/
def decodeFp1 (w : Word) : Option Instr :=
  if fld w 0 7 == 0x0#7 then some (.fsqrt (guardOf w) (fld w 14 7) (fld w 7 7)) else
  if fld w 0 7 == 0x1#7 then some (.frcp (guardOf w) (fld w 14 7) (fld w 7 7)) else
  if fld w 0 7 == 0x2#7 then some (.frsq (guardOf w) (fld w 14 7) (fld w 7 7)) else
  if fld w 0 7 == 0x3#7 then some (.fexp2 (guardOf w) (fld w 14 7) (fld w 7 7)) else
  if fld w 0 7 == 0x4#7 then some (.flog2 (guardOf w) (fld w 14 7) (fld w 7 7)) else
  if fld w 0 7 == 0x5#7 then some (.fsin (guardOf w) (fld w 14 7) (fld w 7 7)) else
  if fld w 0 7 == 0x6#7 then some (.fcos (guardOf w) (fld w 14 7) (fld w 7 7)) else
  if fld w 0 7 == 0x7#7 then some (.ftanh (guardOf w) (fld w 14 7) (fld w 7 7)) else
  if fld w 0 7 == 0x8#7 then some (.fabs (guardOf w) (fld w 14 7) (fld w 7 7)) else
  if fld w 0 7 == 0x9#7 then some (.fneg (guardOf w) (fld w 14 7) (fld w 7 7)) else
  if fld w 0 7 == 0xA#7 then some (.frint (guardOf w) (fld w 14 7) (fld w 7 7)) else
  if fld w 0 7 == 0xB#7 then some (.ffloor (guardOf w) (fld w 14 7) (fld w 7 7)) else
  if fld w 0 7 == 0xC#7 then some (.fceil (guardOf w) (fld w 14 7) (fld w 7 7)) else
  if fld w 0 7 == 0xD#7 then some (.ftrunc (guardOf w) (fld w 14 7) (fld w 7 7)) else
  if fld w 0 7 == 0xE#7 then some (.fclass (guardOf w) (fld w 14 7) (fld w 7 7)) else
  if fld w 0 7 == 0x10#7 then some (.habs (guardOf w) (fld w 14 7) (fld w 7 7)) else
  if fld w 0 7 == 0x11#7 then some (.hneg (guardOf w) (fld w 14 7) (fld w 7 7)) else
  if fld w 0 7 == 0x12#7 then some (.hsqrt (guardOf w) (fld w 14 7) (fld w 7 7)) else
  if fld w 0 7 == 0x13#7 then some (.hrcp (guardOf w) (fld w 14 7) (fld w 7 7)) else
  if fld w 0 7 == 0x14#7 then some (.babs (guardOf w) (fld w 14 7) (fld w 7 7)) else
  if fld w 0 7 == 0x15#7 then some (.bneg (guardOf w) (fld w 14 7) (fld w 7 7)) else
  none

/-- The words of major 0x24 (R56-R71): a non-zero unused field or an unlisted code is no instruction. -/
def decodeCvt (w : Word) : Option Instr :=
  if fld w 0 7 == 0x0#7 then some (.cvtF32I32 (guardOf w) (fld w 14 7) (fld w 7 7)) else
  if fld w 0 7 == 0x1#7 then some (.cvtF32N32 (guardOf w) (fld w 14 7) (fld w 7 7)) else
  if fld w 0 7 == 0x2#7 then some (.cvtI32F32 (guardOf w) (fld w 14 7) (fld w 7 7)) else
  if fld w 0 7 == 0x3#7 then some (.cvtN32F32 (guardOf w) (fld w 14 7) (fld w 7 7)) else
  if fld w 0 7 == 0x4#7 then some (.cvtF32H2Lo (guardOf w) (fld w 14 7) (fld w 7 7)) else
  if fld w 0 7 == 0x5#7 then some (.cvtF32H2Hi (guardOf w) (fld w 14 7) (fld w 7 7)) else
  if fld w 0 6 == 0x6#6 then some (.cvtH2F32 (guardOf w) (fld w 14 7) (fld w 7 7) (fld w 6 1 == 1#1)) else
  if fld w 0 7 == 0x7#7 then some (.cvtF32B2Lo (guardOf w) (fld w 14 7) (fld w 7 7)) else
  if fld w 0 7 == 0x8#7 then some (.cvtF32B2Hi (guardOf w) (fld w 14 7) (fld w 7 7)) else
  if fld w 0 6 == 0x9#6 then some (.cvtB2F32 (guardOf w) (fld w 14 7) (fld w 7 7) (fld w 6 1 == 1#1)) else
  if fld w 0 6 == 0xA#6 then some (.cvtH2B2 (guardOf w) (fld w 14 7) (fld w 7 7) (fld w 6 1 == 1#1)) else
  if fld w 0 6 == 0xB#6 then some (.cvtB2H2 (guardOf w) (fld w 14 7) (fld w 7 7) (fld w 6 1 == 1#1)) else
  if fld w 0 6 == 0xC#6 then some (.cvtE4m3F32 (guardOf w) (fld w 14 7) (fld w 7 7) (fld w 6 1 == 1#1)) else
  if fld w 0 7 == 0xD#7 then some (.cvtF32E4m3 (guardOf w) (fld w 14 7) (fld w 7 7)) else
  if fld w 0 6 == 0xE#6 then some (.cvtE5m2F32 (guardOf w) (fld w 14 7) (fld w 7 7) (fld w 6 1 == 1#1)) else
  if fld w 0 7 == 0xF#7 then some (.cvtF32E5m2 (guardOf w) (fld w 14 7) (fld w 7 7)) else
  if fld w 0 6 == 0x10#6 then some (.cvtE2m1F32 (guardOf w) (fld w 14 7) (fld w 7 7) (fld w 6 1 == 1#1)) else
  if fld w 0 7 == 0x11#7 then some (.cvtF32E2m1 (guardOf w) (fld w 14 7) (fld w 7 7)) else
  if fld w 0 6 == 0x12#6 then some (.cvtE4m3H2 (guardOf w) (fld w 14 7) (fld w 7 7) (fld w 6 1 == 1#1)) else
  if fld w 0 7 == 0x13#7 then some (.cvtH2E4m3 (guardOf w) (fld w 14 7) (fld w 7 7)) else
  if fld w 0 7 == 0x14#7 then some (.cvtI8I32 (guardOf w) (fld w 14 7) (fld w 7 7)) else
  if fld w 0 7 == 0x15#7 then some (.cvtI32I8 (guardOf w) (fld w 14 7) (fld w 7 7)) else
  if fld w 0 7 == 0x16#7 then some (.cvtN8N32 (guardOf w) (fld w 14 7) (fld w 7 7)) else
  if fld w 0 7 == 0x17#7 then some (.cvtN32N8 (guardOf w) (fld w 14 7) (fld w 7 7)) else
  none

/-- The words of major 0x28 (R56-R71): a non-zero unused field or an unlisted code is no instruction. -/
def decodePred (w : Word) : Option Instr :=
  if fld w 18 3 == 0x0#3 && fld w 11 3 == 0x0#3 && fld w 4 3 == 0x0#3 then some (.pand (guardOf w) (fld w 14 4) (fld w 7 4) (fld w 0 4)) else
  if fld w 18 3 == 0x0#3 && fld w 11 3 == 0x0#3 && fld w 4 3 == 0x1#3 then some (.por (guardOf w) (fld w 14 4) (fld w 7 4) (fld w 0 4)) else
  if fld w 18 3 == 0x0#3 && fld w 11 3 == 0x0#3 && fld w 4 3 == 0x2#3 then some (.pxor (guardOf w) (fld w 14 4) (fld w 7 4) (fld w 0 4)) else
  if fld w 18 3 == 0x0#3 && fld w 11 3 == 0x0#3 && fld w 4 3 == 0x3#3 then some (.pandn (guardOf w) (fld w 14 4) (fld w 7 4) (fld w 0 4)) else
  if fld w 18 3 == 0x0#3 && fld w 11 3 == 0x0#3 && fld w 0 7 == 0x40#7 then some (.pnot (guardOf w) (fld w 14 4) (fld w 7 4)) else
  if fld w 18 3 == 0x0#3 && fld w 0 7 == 0x50#7 then some (.ptst (guardOf w) (fld w 14 4) (fld w 7 7)) else
  if fld w 0 14 == 0x60#14 then some (.ptov (guardOf w) (fld w 14 7)) else
  if fld w 14 7 == 0x0#7 && fld w 0 7 == 0x70#7 then some (.vtop (guardOf w) (fld w 7 7)) else
  none

/-- The words of major 0x29 (R56-R71): a non-zero unused field or an unlisted code is no instruction. -/
def decodeLane (w : Word) : Option Instr :=
  if fld w 0 7 == 0x0#7 then some (.shflIdx (guardOf w) (fld w 14 7) (fld w 7 7)) else
  if fld w 0 7 == 0x1#7 then some (.first (guardOf w) (fld w 14 7) (fld w 7 7)) else
  if fld w 0 7 == 0x2#7 then some (.vany (guardOf w) (fld w 14 7) (fld w 7 7)) else
  if fld w 0 7 == 0x3#7 then some (.vall (guardOf w) (fld w 14 7) (fld w 7 7)) else
  if fld w 0 7 == 0x4#7 then some (.vbal (guardOf w) (fld w 14 7) (fld w 7 7)) else
  if fld w 0 7 == 0x8#7 then some (.iredsum (guardOf w) (fld w 14 7) (fld w 7 7)) else
  if fld w 0 7 == 0x9#7 then some (.iredmin (guardOf w) (fld w 14 7) (fld w 7 7)) else
  if fld w 0 7 == 0xA#7 then some (.iredmax (guardOf w) (fld w 14 7) (fld w 7 7)) else
  if fld w 0 7 == 0xB#7 then some (.nredmin (guardOf w) (fld w 14 7) (fld w 7 7)) else
  if fld w 0 7 == 0xC#7 then some (.nredmax (guardOf w) (fld w 14 7) (fld w 7 7)) else
  if fld w 0 7 == 0xD#7 then some (.redand (guardOf w) (fld w 14 7) (fld w 7 7)) else
  if fld w 0 7 == 0xE#7 then some (.redor (guardOf w) (fld w 14 7) (fld w 7 7)) else
  if fld w 0 7 == 0xF#7 then some (.redxor (guardOf w) (fld w 14 7) (fld w 7 7)) else
  if fld w 0 7 == 0x10#7 then some (.fredsum (guardOf w) (fld w 14 7) (fld w 7 7)) else
  if fld w 0 7 == 0x11#7 then some (.fredmin (guardOf w) (fld w 14 7) (fld w 7 7)) else
  if fld w 0 7 == 0x12#7 then some (.fredmax (guardOf w) (fld w 14 7) (fld w 7 7)) else
  if fld w 0 7 == 0x13#7 then some (.hredsum (guardOf w) (fld w 14 7) (fld w 7 7)) else
  if fld w 0 7 == 0x18#7 then some (.iscan (guardOf w) (fld w 14 7) (fld w 7 7)) else
  if fld w 0 7 == 0x19#7 then some (.iscanx (guardOf w) (fld w 14 7) (fld w 7 7)) else
  if fld w 0 7 == 0x1A#7 then some (.fscan (guardOf w) (fld w 14 7) (fld w 7 7)) else
  if fld w 0 7 == 0x1B#7 then some (.fscanx (guardOf w) (fld w 14 7) (fld w 7 7)) else
  if fld w 5 2 == 0x1#2 then some (.shflUp (guardOf w) (fld w 14 7) (fld w 7 7) (fld w 0 5)) else
  if fld w 5 2 == 0x2#2 then some (.shflDn (guardOf w) (fld w 14 7) (fld w 7 7) (fld w 0 5)) else
  if fld w 5 2 == 0x3#2 then some (.shflXor (guardOf w) (fld w 14 7) (fld w 7 7) (fld w 0 5)) else
  none

/-- The words of major 0x2C (R56-R71): a non-zero unused field or an unlisted code is no instruction. -/
def decodeLdaStl (w : Word) : Option Instr :=
  if fld w 5 2 == 0x0#2 then some (.lda (guardOf w) (fld w 14 7) (fld w 7 7) (fld w 3 2) (fld w 0 3)) else
  if fld w 5 2 == 0x2#2 then some (.stl (guardOf w) (fld w 14 7) (fld w 7 7) (fld w 3 2) (fld w 0 3)) else
  none

/-- The words of major 0x2D (R56-R71): a non-zero unused field or an unlisted code is no instruction. -/
def decodeLds (w : Word) : Option Instr :=
  if fld w 5 2 == 0x0#2 then some (.lds (guardOf w) (fld w 14 7) (fld w 7 7) (fld w 3 2) (fld w 0 3)) else
  none

/-- The words of major 0x2E (R56-R71): a non-zero unused field or an unlisted code is no instruction. -/
def decodeSts (w : Word) : Option Instr :=
  if fld w 5 2 == 0x0#2 then some (.sts (guardOf w) (fld w 14 7) (fld w 7 7) (fld w 3 2) (fld w 0 3)) else
  none

/-- The words of major 0x33 (R56-R71): a non-zero unused field or an unlisted code is no instruction. -/
def decodeMemctl (w : Word) : Option Instr :=
  if fld w 3 18 == 0x0#18 then some (.fence (guardOf w) (fld w 0 3)) else
  if fld w 3 18 == 0x1#18 then some (.fenceAcq (guardOf w) (fld w 0 3)) else
  if fld w 3 18 == 0x2#18 then some (.fenceRel (guardOf w) (fld w 0 3)) else
  if fld w 13 8 == 0x0#8 && fld w 2 5 == 0x6#5 then some (.waitc (guardOf w) (fld w 7 6) (fld w 0 2)) else
  if fld w 3 4 == 0x4#4 then some (.await (guardOf w) (fld w 14 7) (fld w 7 7) (fld w 0 3)) else
  if fld w 0 7 == 0x28#7 then some (.slfind (guardOf w) (fld w 14 7) (fld w 7 7)) else
  if fld w 0 7 == 0x30#7 then some (.slset (guardOf w) (fld w 14 7) (fld w 7 7)) else
  if fld w 14 7 == 0x0#7 && fld w 0 7 == 0x38#7 then some (.sldrop (guardOf w) (fld w 7 7)) else
  if fld w 0 7 == 0x40#7 then some (.presq (guardOf w) (fld w 14 7) (fld w 7 7)) else
  if fld w 14 7 == 0x0#7 && fld w 2 5 == 0x12#5 then some (.pref (guardOf w) (fld w 7 7) (fld w 0 2)) else
  none

/-- The words of major 0x35 (R56-R71): a non-zero unused field or an unlisted code is no instruction. -/
def decodeTileop (w : Word) : Option Instr :=
  if fld w 14 7 == 0x0#7 && fld w 5 2 == 0x0#2 && fld w 0 3 == 0x0#3 then some (.tileopGemm (guardOf w) (fld w 7 7) (fld w 3 2)) else
  if fld w 14 7 == 0x0#7 && fld w 5 2 == 0x0#2 && fld w 0 3 == 0x1#3 then some (.tileopTrq (guardOf w) (fld w 7 7) (fld w 3 2)) else
  if fld w 14 7 == 0x0#7 && fld w 5 2 == 0x0#2 && fld w 0 3 == 0x2#3 then some (.tileopCkv (guardOf w) (fld w 7 7) (fld w 3 2)) else
  if fld w 14 7 == 0x0#7 && fld w 5 2 == 0x0#2 && fld w 0 3 == 0x3#3 then some (.tileopDrn (guardOf w) (fld w 7 7) (fld w 3 2)) else
  none

/-- The words of major 0x36 (R56-R71): a non-zero unused field or an unlisted code is no instruction. -/
def decodeMxctl (w : Word) : Option Instr :=
  if fld w 14 7 == 0x0#7 && fld w 0 7 == 0x0#7 then some (.mxclr (guardOf w) (fld w 7 7)) else
  if fld w 0 7 == 0x1#7 then some (.mxld (guardOf w) (fld w 14 7) (fld w 7 7)) else
  if fld w 0 7 == 0x2#7 then some (.mxst (guardOf w) (fld w 14 7) (fld w 7 7)) else
  if fld w 0 7 == 0x3#7 then some (.mxdrn (guardOf w) (fld w 14 7) (fld w 7 7)) else
  if fld w 14 7 == 0x0#7 && fld w 0 7 == 0x4#7 then some (.mxtol (guardOf w) (fld w 7 7)) else
  if fld w 0 14 == 0x5#14 then some (.mxrtol (guardOf w) (fld w 14 7)) else
  if fld w 0 21 == 0x6#21 then some (.mxwait (guardOf w)) else
  none

/-- The words of major 0x37 (R56-R71): a non-zero unused field or an unlisted code is no instruction. -/
def decodeCopy (w : Word) : Option Instr :=
  if fld w 14 7 == 0x0#7 && fld w 4 3 == 0x0#3 then some (.copy (guardOf w) (fld w 7 7) (fld w 0 4)) else
  if fld w 14 7 == 0x0#7 && fld w 0 7 == 0x10#7 then some (.publish (guardOf w) (fld w 7 7)) else
  none

/-- The words of major 0x38 (R56-R71): a non-zero unused field or an unlisted code is no instruction. -/
def decodeMcast (w : Word) : Option Instr :=
  if fld w 4 3 == 0x0#3 then some (.mcast (guardOf w) (fld w 14 7) (fld w 7 7) (fld w 0 4)) else
  none

/-- The words of major 0x39 (R56-R71): a non-zero unused field or an unlisted code is no instruction. -/
def decodeNbar (w : Word) : Option Instr :=
  if fld w 14 7 == 0x0#7 && fld w 4 3 == 0x0#3 then some (.nbinit (guardOf w) (fld w 7 7) (fld w 0 4)) else
  if fld w 4 17 == 0x1#17 then some (.nbarr (guardOf w) (fld w 0 4)) else
  if fld w 14 7 == 0x0#7 && fld w 4 3 == 0x2#3 then some (.nbwait (guardOf w) (fld w 7 7) (fld w 0 4)) else
  if fld w 4 17 == 0x3#17 then some (.nbsync (guardOf w) (fld w 0 4)) else
  if fld w 4 10 == 0x4#10 then some (.waitl (guardOf w) (fld w 14 7) (fld w 0 4)) else
  if fld w 4 10 == 0x5#10 then some (.nbrd (guardOf w) (fld w 14 7) (fld w 0 4)) else
  none

/-- The words of major 0x3A (R56-R71): a non-zero unused field or an unlisted code is no instruction. -/
def decodeName (w : Word) : Option Instr :=
  if fld w 0 7 == 0x0#7 then some (.callslip (guardOf w) (fld w 14 7) (fld w 7 7)) else
  if fld w 0 7 == 0x1#7 then some (.accession (guardOf w) (fld w 14 7) (fld w 7 7)) else
  if fld w 14 7 == 0x0#7 && fld w 0 7 == 0x2#7 then some (.slipcan (guardOf w) (fld w 7 7)) else
  none

/-- The words of major 0x3B (R56-R71): a non-zero unused field or an unlisted code is no instruction. -/
def decodeColl (w : Word) : Option Instr :=
  if fld w 14 7 == 0x0#7 && fld w 0 7 == 0x0#7 then some (.handoff (guardOf w) (fld w 7 7)) else
  if fld w 0 14 == 0x1#14 then some (.handwait (guardOf w) (fld w 14 7)) else
  if fld w 14 7 == 0x0#7 && fld w 0 7 == 0x2#7 then some (.collred (guardOf w) (fld w 7 7)) else
  if fld w 14 7 == 0x0#7 && fld w 0 7 == 0x3#7 then some (.collrsc (guardOf w) (fld w 7 7)) else
  if fld w 14 7 == 0x0#7 && fld w 0 7 == 0x4#7 then some (.collgat (guardOf w) (fld w 7 7)) else
  if fld w 14 7 == 0x0#7 && fld w 0 7 == 0x5#7 then some (.collbc (guardOf w) (fld w 7 7)) else
  none

/-- The words of major 0x3C (R56-R71): a non-zero unused field or an unlisted code is no instruction. -/
def decodeSpec (w : Word) : Option Instr :=
  if fld w 0 7 == 0x0#7 then some (.opreg (guardOf w) (fld w 14 7) (fld w 7 7)) else
  if fld w 0 7 == 0x1#7 then some (.opdo (guardOf w) (fld w 14 7) (fld w 7 7)) else
  if fld w 14 7 == 0x0#7 && fld w 0 7 == 0x2#7 then some (.conld (guardOf w) (fld w 7 7)) else
  none

/-- The words of major 0x3F (R56-R71): a non-zero unused field or an unlisted code is no instruction. -/
def decodeCtl (w : Word) : Option Instr :=
  if fld w 20 1 == 0x0#1 then some (.movc (guardOf w) (fld w 14 6) (fld w 0 14)) else
  if fld w 14 7 == 0x40#7 && fld w 0 7 == 0x0#7 then some (.brx (guardOf w) (fld w 7 7)) else
  if fld w 14 7 == 0x41#7 && fld w 0 7 == 0x0#7 then some (.ret (guardOf w) (fld w 7 7)) else
  if fld w 0 21 == 0x108000#21 then some (.exit (guardOf w)) else
  if fld w 7 14 == 0x2180#14 then some (.join (guardOf w) (fld w 0 7)) else
  if fld w 7 14 == 0x2200#14 then some (.leave (guardOf w) (fld w 0 7)) else
  if fld w 7 14 == 0x2280#14 then some (.waitm (guardOf w) (fld w 0 7)) else
  if fld w 0 21 == 0x118000#21 then some (.yield (guardOf w)) else
  if fld w 7 14 == 0x2380#14 then some (.setwb (guardOf w) (fld w 0 7)) else
  if fld w 0 21 == 0x120000#21 then some (.brk (guardOf w)) else
  if fld w 7 14 == 0x2480#14 then some (.trap (guardOf w) (fld w 0 7)) else
  if fld w 0 21 == 0x128000#21 then some (.tret (guardOf w)) else
  if fld w 14 7 == 0x4B#7 then some (.rdsr (guardOf w) (fld w 7 7) (fld w 0 7)) else
  if fld w 14 7 == 0x4C#7 then some (.wrsr (guardOf w) (fld w 7 7) (fld w 0 7)) else
  if fld w 14 7 == 0x4D#7 && fld w 0 7 == 0x0#7 then some (.launch (guardOf w) (fld w 7 7)) else
  if fld w 14 7 == 0x4E#7 && fld w 0 7 == 0x0#7 then some (.facsim (guardOf w) (fld w 7 7)) else
  if fld w 0 21 == 0x13C000#21 then some (.smpsusp (guardOf w)) else
  if fld w 0 21 == 0x140000#21 then some (.smpres (guardOf w)) else
  none

/-- The instruction that a word encodes, or none where the tables assign the word no instruction (R72 row 2). -/
def decodeWord (w : Word) : Option Instr :=
  match (fld w 26 6).toNat with
  | 0x00 => some (.iadd (guardOf w) (fld w 14 7) (fld w 7 7) (fld w 0 7))
  | 0x01 => some (.isub (guardOf w) (fld w 14 7) (fld w 7 7) (fld w 0 7))
  | 0x02 => some (.imul (guardOf w) (fld w 14 7) (fld w 7 7) (fld w 0 7))
  | 0x03 => some (.imad (guardOf w) (fld w 14 7) (fld w 7 7) (fld w 0 7))
  | 0x04 => some (.imulh (guardOf w) (fld w 14 7) (fld w 7 7) (fld w 0 7))
  | 0x05 => some (.imulhn (guardOf w) (fld w 14 7) (fld w 7 7) (fld w 0 7))
  | 0x06 => some (.and (guardOf w) (fld w 14 7) (fld w 7 7) (fld w 0 7))
  | 0x07 => some (.or (guardOf w) (fld w 14 7) (fld w 7 7) (fld w 0 7))
  | 0x08 => some (.xor (guardOf w) (fld w 14 7) (fld w 7 7) (fld w 0 7))
  | 0x09 => some (.andn (guardOf w) (fld w 14 7) (fld w 7 7) (fld w 0 7))
  | 0x0A => some (.shl (guardOf w) (fld w 14 7) (fld w 7 7) (fld w 0 7))
  | 0x0B => some (.shr (guardOf w) (fld w 14 7) (fld w 7 7) (fld w 0 7))
  | 0x0C => some (.sra (guardOf w) (fld w 14 7) (fld w 7 7) (fld w 0 7))
  | 0x0D => some (.imin (guardOf w) (fld w 14 7) (fld w 7 7) (fld w 0 7))
  | 0x0E => some (.imax (guardOf w) (fld w 14 7) (fld w 7 7) (fld w 0 7))
  | 0x0F => some (.nmin (guardOf w) (fld w 14 7) (fld w 7 7) (fld w 0 7))
  | 0x10 => some (.nmax (guardOf w) (fld w 14 7) (fld w 7 7) (fld w 0 7))
  | 0x11 => some (.sel (guardOf w) (fld w 14 7) (fld w 7 7) (fld w 0 7))
  | 0x12 => some (.bfx (guardOf w) (fld w 14 7) (fld w 7 7) (fld w 0 7))
  | 0x13 => some (.bfi (guardOf w) (fld w 14 7) (fld w 7 7) (fld w 0 7))
  | 0x14 => decodeInt1 w
  | 0x15 => decodeShi w
  | 0x16 => some (.movi (guardOf w) (fld w 14 7) (fld w 0 14))
  | 0x17 => some (.addi (guardOf w) (fld w 14 7) (fld w 0 14))
  | 0x18 => some (.fadd (guardOf w) (fld w 14 7) (fld w 7 7) (fld w 0 7))
  | 0x19 => some (.fmul (guardOf w) (fld w 14 7) (fld w 7 7) (fld w 0 7))
  | 0x1A => some (.ffma (guardOf w) (fld w 14 7) (fld w 7 7) (fld w 0 7))
  | 0x1B => some (.fmin (guardOf w) (fld w 14 7) (fld w 7 7) (fld w 0 7))
  | 0x1C => some (.fmax (guardOf w) (fld w 14 7) (fld w 7 7) (fld w 0 7))
  | 0x1D => some (.hadd (guardOf w) (fld w 14 7) (fld w 7 7) (fld w 0 7))
  | 0x1E => some (.hmul (guardOf w) (fld w 14 7) (fld w 7 7) (fld w 0 7))
  | 0x1F => some (.hfma (guardOf w) (fld w 14 7) (fld w 7 7) (fld w 0 7))
  | 0x20 => some (.hmin (guardOf w) (fld w 14 7) (fld w 7 7) (fld w 0 7))
  | 0x21 => some (.hmax (guardOf w) (fld w 14 7) (fld w 7 7) (fld w 0 7))
  | 0x22 => some (.bfma (guardOf w) (fld w 14 7) (fld w 7 7) (fld w 0 7))
  | 0x23 => decodeFp1 w
  | 0x24 => decodeCvt w
  | 0x25 => some (.icmp (guardOf w) (fld w 17 4) (fld w 14 3) (fld w 7 7) (fld w 0 7))
  | 0x26 => some (.fcmp (guardOf w) (fld w 17 4) (fld w 14 3) (fld w 7 7) (fld w 0 7))
  | 0x27 => some (.hcmp (guardOf w) (fld w 17 4) (fld w 14 3) (fld w 7 7) (fld w 0 7))
  | 0x28 => decodePred w
  | 0x29 => decodeLane w
  | 0x2A => some (.ld (guardOf w) (fld w 14 7) (fld w 7 7) (fld w 5 2) (fld w 3 2) (fld w 0 3))
  | 0x2B => some (.st (guardOf w) (fld w 14 7) (fld w 7 7) (fld w 5 2) (fld w 3 2) (fld w 0 3))
  | 0x2C => decodeLdaStl w
  | 0x2D => decodeLds w
  | 0x2E => decodeSts w
  | 0x2F => some (.gath (guardOf w) (fld w 14 7) (fld w 7 7) (fld w 5 2) (fld w 4 1 == 1#1) (fld w 2 2) (fld w 0 2))
  | 0x30 => some (.scat (guardOf w) (fld w 14 7) (fld w 7 7) (fld w 5 2) (fld w 4 1 == 1#1) (fld w 2 2) (fld w 0 2))
  | 0x31 => some (.atom (guardOf w) (fld w 14 7) (fld w 7 7) (fld w 3 4) (fld w 0 3))
  | 0x32 => some (.atoms (guardOf w) (fld w 14 7) (fld w 7 7) (fld w 3 4) (fld w 0 3))
  | 0x33 => decodeMemctl w
  | 0x34 => some (.mma (guardOf w) (fld w 14 7) (fld w 7 7) (fld w 0 7))
  | 0x35 => decodeTileop w
  | 0x36 => decodeMxctl w
  | 0x37 => decodeCopy w
  | 0x38 => decodeMcast w
  | 0x39 => decodeNbar w
  | 0x3A => decodeName w
  | 0x3B => decodeColl w
  | 0x3C => decodeSpec w
  | 0x3D => some (.bra (guardOf w) (fld w 0 21))
  | 0x3E => some (.call (guardOf w) (fld w 0 21))
  | 0x3F => decodeCtl w
  | _ => none

/-- A word from its major, guard and low 21 bits (R51). -/
def pack (op : BitVec 6) (g : Guard) (low : BitVec 21) : Word := op ++ BitVec.ofBool g.neg ++ g.p ++ low

/-- The word of an encoded instruction; none for the events, which have no encoding. -/
def encode : Instr → Option Word
  | .iadd g d a b => some (pack 0x00#6 g (d ++ a ++ b))
  | .isub g d a b => some (pack 0x01#6 g (d ++ a ++ b))
  | .imul g d a b => some (pack 0x02#6 g (d ++ a ++ b))
  | .imad g d a b => some (pack 0x03#6 g (d ++ a ++ b))
  | .imulh g d a b => some (pack 0x04#6 g (d ++ a ++ b))
  | .imulhn g d a b => some (pack 0x05#6 g (d ++ a ++ b))
  | .and g d a b => some (pack 0x06#6 g (d ++ a ++ b))
  | .or g d a b => some (pack 0x07#6 g (d ++ a ++ b))
  | .xor g d a b => some (pack 0x08#6 g (d ++ a ++ b))
  | .andn g d a b => some (pack 0x09#6 g (d ++ a ++ b))
  | .shl g d a b => some (pack 0x0A#6 g (d ++ a ++ b))
  | .shr g d a b => some (pack 0x0B#6 g (d ++ a ++ b))
  | .sra g d a b => some (pack 0x0C#6 g (d ++ a ++ b))
  | .imin g d a b => some (pack 0x0D#6 g (d ++ a ++ b))
  | .imax g d a b => some (pack 0x0E#6 g (d ++ a ++ b))
  | .nmin g d a b => some (pack 0x0F#6 g (d ++ a ++ b))
  | .nmax g d a b => some (pack 0x10#6 g (d ++ a ++ b))
  | .sel g d a b => some (pack 0x11#6 g (d ++ a ++ b))
  | .bfx g d a b => some (pack 0x12#6 g (d ++ a ++ b))
  | .bfi g d a b => some (pack 0x13#6 g (d ++ a ++ b))
  | .add64 g d a => some (pack 0x14#6 g (d ++ a ++ 0x0#7))
  | .sub64 g d a => some (pack 0x14#6 g (d ++ a ++ 0x1#7))
  | .divs g d a => some (pack 0x14#6 g (d ++ a ++ 0x2#7))
  | .divn g d a => some (pack 0x14#6 g (d ++ a ++ 0x3#7))
  | .rems g d a => some (pack 0x14#6 g (d ++ a ++ 0x4#7))
  | .remn g d a => some (pack 0x14#6 g (d ++ a ++ 0x5#7))
  | .popc g d a => some (pack 0x14#6 g (d ++ a ++ 0x8#7))
  | .clz g d a => some (pack 0x14#6 g (d ++ a ++ 0x9#7))
  | .brev g d a => some (pack 0x14#6 g (d ++ a ++ 0xA#7))
  | .bswap g d a => some (pack 0x14#6 g (d ++ a ++ 0xB#7))
  | .iabs g d a => some (pack 0x14#6 g (d ++ a ++ 0xC#7))
  | .ineg g d a => some (pack 0x14#6 g (d ++ a ++ 0xD#7))
  | .mov g d a => some (pack 0x14#6 g (d ++ a ++ 0xE#7))
  | .shli g d a k => some (pack 0x15#6 g (d ++ a ++ 0x0#2 ++ k))
  | .shri g d a k => some (pack 0x15#6 g (d ++ a ++ 0x1#2 ++ k))
  | .srai g d a k => some (pack 0x15#6 g (d ++ a ++ 0x2#2 ++ k))
  | .rori g d a k => some (pack 0x15#6 g (d ++ a ++ 0x3#2 ++ k))
  | .movi g d i => some (pack 0x16#6 g (d ++ i))
  | .addi g d i => some (pack 0x17#6 g (d ++ i))
  | .fadd g d a b => some (pack 0x18#6 g (d ++ a ++ b))
  | .fmul g d a b => some (pack 0x19#6 g (d ++ a ++ b))
  | .ffma g d a b => some (pack 0x1A#6 g (d ++ a ++ b))
  | .fmin g d a b => some (pack 0x1B#6 g (d ++ a ++ b))
  | .fmax g d a b => some (pack 0x1C#6 g (d ++ a ++ b))
  | .hadd g d a b => some (pack 0x1D#6 g (d ++ a ++ b))
  | .hmul g d a b => some (pack 0x1E#6 g (d ++ a ++ b))
  | .hfma g d a b => some (pack 0x1F#6 g (d ++ a ++ b))
  | .hmin g d a b => some (pack 0x20#6 g (d ++ a ++ b))
  | .hmax g d a b => some (pack 0x21#6 g (d ++ a ++ b))
  | .bfma g d a b => some (pack 0x22#6 g (d ++ a ++ b))
  | .fsqrt g d a => some (pack 0x23#6 g (d ++ a ++ 0x0#7))
  | .frcp g d a => some (pack 0x23#6 g (d ++ a ++ 0x1#7))
  | .frsq g d a => some (pack 0x23#6 g (d ++ a ++ 0x2#7))
  | .fexp2 g d a => some (pack 0x23#6 g (d ++ a ++ 0x3#7))
  | .flog2 g d a => some (pack 0x23#6 g (d ++ a ++ 0x4#7))
  | .fsin g d a => some (pack 0x23#6 g (d ++ a ++ 0x5#7))
  | .fcos g d a => some (pack 0x23#6 g (d ++ a ++ 0x6#7))
  | .ftanh g d a => some (pack 0x23#6 g (d ++ a ++ 0x7#7))
  | .fabs g d a => some (pack 0x23#6 g (d ++ a ++ 0x8#7))
  | .fneg g d a => some (pack 0x23#6 g (d ++ a ++ 0x9#7))
  | .frint g d a => some (pack 0x23#6 g (d ++ a ++ 0xA#7))
  | .ffloor g d a => some (pack 0x23#6 g (d ++ a ++ 0xB#7))
  | .fceil g d a => some (pack 0x23#6 g (d ++ a ++ 0xC#7))
  | .ftrunc g d a => some (pack 0x23#6 g (d ++ a ++ 0xD#7))
  | .fclass g d a => some (pack 0x23#6 g (d ++ a ++ 0xE#7))
  | .habs g d a => some (pack 0x23#6 g (d ++ a ++ 0x10#7))
  | .hneg g d a => some (pack 0x23#6 g (d ++ a ++ 0x11#7))
  | .hsqrt g d a => some (pack 0x23#6 g (d ++ a ++ 0x12#7))
  | .hrcp g d a => some (pack 0x23#6 g (d ++ a ++ 0x13#7))
  | .babs g d a => some (pack 0x23#6 g (d ++ a ++ 0x14#7))
  | .bneg g d a => some (pack 0x23#6 g (d ++ a ++ 0x15#7))
  | .cvtF32I32 g d a => some (pack 0x24#6 g (d ++ a ++ 0x0#7))
  | .cvtF32N32 g d a => some (pack 0x24#6 g (d ++ a ++ 0x1#7))
  | .cvtI32F32 g d a => some (pack 0x24#6 g (d ++ a ++ 0x2#7))
  | .cvtN32F32 g d a => some (pack 0x24#6 g (d ++ a ++ 0x3#7))
  | .cvtF32H2Lo g d a => some (pack 0x24#6 g (d ++ a ++ 0x4#7))
  | .cvtF32H2Hi g d a => some (pack 0x24#6 g (d ++ a ++ 0x5#7))
  | .cvtH2F32 g d a s => some (pack 0x24#6 g (d ++ a ++ BitVec.ofBool s ++ 0x6#6))
  | .cvtF32B2Lo g d a => some (pack 0x24#6 g (d ++ a ++ 0x7#7))
  | .cvtF32B2Hi g d a => some (pack 0x24#6 g (d ++ a ++ 0x8#7))
  | .cvtB2F32 g d a s => some (pack 0x24#6 g (d ++ a ++ BitVec.ofBool s ++ 0x9#6))
  | .cvtH2B2 g d a s => some (pack 0x24#6 g (d ++ a ++ BitVec.ofBool s ++ 0xA#6))
  | .cvtB2H2 g d a s => some (pack 0x24#6 g (d ++ a ++ BitVec.ofBool s ++ 0xB#6))
  | .cvtE4m3F32 g d a s => some (pack 0x24#6 g (d ++ a ++ BitVec.ofBool s ++ 0xC#6))
  | .cvtF32E4m3 g d a => some (pack 0x24#6 g (d ++ a ++ 0xD#7))
  | .cvtE5m2F32 g d a s => some (pack 0x24#6 g (d ++ a ++ BitVec.ofBool s ++ 0xE#6))
  | .cvtF32E5m2 g d a => some (pack 0x24#6 g (d ++ a ++ 0xF#7))
  | .cvtE2m1F32 g d a s => some (pack 0x24#6 g (d ++ a ++ BitVec.ofBool s ++ 0x10#6))
  | .cvtF32E2m1 g d a => some (pack 0x24#6 g (d ++ a ++ 0x11#7))
  | .cvtE4m3H2 g d a s => some (pack 0x24#6 g (d ++ a ++ BitVec.ofBool s ++ 0x12#6))
  | .cvtH2E4m3 g d a => some (pack 0x24#6 g (d ++ a ++ 0x13#7))
  | .cvtI8I32 g d a => some (pack 0x24#6 g (d ++ a ++ 0x14#7))
  | .cvtI32I8 g d a => some (pack 0x24#6 g (d ++ a ++ 0x15#7))
  | .cvtN8N32 g d a => some (pack 0x24#6 g (d ++ a ++ 0x16#7))
  | .cvtN32N8 g d a => some (pack 0x24#6 g (d ++ a ++ 0x17#7))
  | .icmp g p c a b => some (pack 0x25#6 g (p ++ c ++ a ++ b))
  | .fcmp g p c a b => some (pack 0x26#6 g (p ++ c ++ a ++ b))
  | .hcmp g p c a b => some (pack 0x27#6 g (p ++ c ++ a ++ b))
  | .pand g p a b => some (pack 0x28#6 g (0x0#3 ++ p ++ 0x0#3 ++ a ++ 0x0#3 ++ b))
  | .por g p a b => some (pack 0x28#6 g (0x0#3 ++ p ++ 0x0#3 ++ a ++ 0x1#3 ++ b))
  | .pxor g p a b => some (pack 0x28#6 g (0x0#3 ++ p ++ 0x0#3 ++ a ++ 0x2#3 ++ b))
  | .pandn g p a b => some (pack 0x28#6 g (0x0#3 ++ p ++ 0x0#3 ++ a ++ 0x3#3 ++ b))
  | .pnot g p a => some (pack 0x28#6 g (0x0#3 ++ p ++ 0x0#3 ++ a ++ 0x40#7))
  | .ptst g p a => some (pack 0x28#6 g (0x0#3 ++ p ++ a ++ 0x50#7))
  | .ptov g d => some (pack 0x28#6 g (d ++ 0x60#14))
  | .vtop g a => some (pack 0x28#6 g (0x0#7 ++ a ++ 0x70#7))
  | .shflIdx g d a => some (pack 0x29#6 g (d ++ a ++ 0x0#7))
  | .first g d a => some (pack 0x29#6 g (d ++ a ++ 0x1#7))
  | .vany g d a => some (pack 0x29#6 g (d ++ a ++ 0x2#7))
  | .vall g d a => some (pack 0x29#6 g (d ++ a ++ 0x3#7))
  | .vbal g d a => some (pack 0x29#6 g (d ++ a ++ 0x4#7))
  | .iredsum g d a => some (pack 0x29#6 g (d ++ a ++ 0x8#7))
  | .iredmin g d a => some (pack 0x29#6 g (d ++ a ++ 0x9#7))
  | .iredmax g d a => some (pack 0x29#6 g (d ++ a ++ 0xA#7))
  | .nredmin g d a => some (pack 0x29#6 g (d ++ a ++ 0xB#7))
  | .nredmax g d a => some (pack 0x29#6 g (d ++ a ++ 0xC#7))
  | .redand g d a => some (pack 0x29#6 g (d ++ a ++ 0xD#7))
  | .redor g d a => some (pack 0x29#6 g (d ++ a ++ 0xE#7))
  | .redxor g d a => some (pack 0x29#6 g (d ++ a ++ 0xF#7))
  | .fredsum g d a => some (pack 0x29#6 g (d ++ a ++ 0x10#7))
  | .fredmin g d a => some (pack 0x29#6 g (d ++ a ++ 0x11#7))
  | .fredmax g d a => some (pack 0x29#6 g (d ++ a ++ 0x12#7))
  | .hredsum g d a => some (pack 0x29#6 g (d ++ a ++ 0x13#7))
  | .iscan g d a => some (pack 0x29#6 g (d ++ a ++ 0x18#7))
  | .iscanx g d a => some (pack 0x29#6 g (d ++ a ++ 0x19#7))
  | .fscan g d a => some (pack 0x29#6 g (d ++ a ++ 0x1A#7))
  | .fscanx g d a => some (pack 0x29#6 g (d ++ a ++ 0x1B#7))
  | .shflUp g d a k => some (pack 0x29#6 g (d ++ a ++ 0x1#2 ++ k))
  | .shflDn g d a k => some (pack 0x29#6 g (d ++ a ++ 0x2#2 ++ k))
  | .shflXor g d a k => some (pack 0x29#6 g (d ++ a ++ 0x3#2 ++ k))
  | .ld g d a h c s => some (pack 0x2A#6 g (d ++ a ++ h ++ c ++ s))
  | .st g d a h c s => some (pack 0x2B#6 g (d ++ a ++ h ++ c ++ s))
  | .lda g d a z s => some (pack 0x2C#6 g (d ++ a ++ 0x0#2 ++ z ++ s))
  | .stl g d a z s => some (pack 0x2C#6 g (d ++ a ++ 0x2#2 ++ z ++ s))
  | .lds g d a c s => some (pack 0x2D#6 g (d ++ a ++ 0x0#2 ++ c ++ s))
  | .sts g d a c s => some (pack 0x2E#6 g (d ++ a ++ 0x0#2 ++ c ++ s))
  | .gath g d a w x e c => some (pack 0x2F#6 g (d ++ a ++ w ++ BitVec.ofBool x ++ e ++ c))
  | .scat g d a w x e c => some (pack 0x30#6 g (d ++ a ++ w ++ BitVec.ofBool x ++ e ++ c))
  | .atom g d a o s => some (pack 0x31#6 g (d ++ a ++ o ++ s))
  | .atoms g d a o s => some (pack 0x32#6 g (d ++ a ++ o ++ s))
  | .fence g s => some (pack 0x33#6 g (0x0#18 ++ s))
  | .fenceAcq g s => some (pack 0x33#6 g (0x1#18 ++ s))
  | .fenceRel g s => some (pack 0x33#6 g (0x2#18 ++ s))
  | .waitc g k c => some (pack 0x33#6 g (0x0#8 ++ k ++ 0x6#5 ++ c))
  | .await g d a s => some (pack 0x33#6 g (d ++ a ++ 0x4#4 ++ s))
  | .slfind g d a => some (pack 0x33#6 g (d ++ a ++ 0x28#7))
  | .slset g d a => some (pack 0x33#6 g (d ++ a ++ 0x30#7))
  | .sldrop g a => some (pack 0x33#6 g (0x0#7 ++ a ++ 0x38#7))
  | .presq g d a => some (pack 0x33#6 g (d ++ a ++ 0x40#7))
  | .pref g a h => some (pack 0x33#6 g (0x0#7 ++ a ++ 0x12#5 ++ h))
  | .mma g d a b => some (pack 0x34#6 g (d ++ a ++ b))
  | .tileopGemm g a c => some (pack 0x35#6 g (0x0#7 ++ a ++ 0x0#2 ++ c ++ 0x0#3))
  | .tileopTrq g a c => some (pack 0x35#6 g (0x0#7 ++ a ++ 0x0#2 ++ c ++ 0x1#3))
  | .tileopCkv g a c => some (pack 0x35#6 g (0x0#7 ++ a ++ 0x0#2 ++ c ++ 0x2#3))
  | .tileopDrn g a c => some (pack 0x35#6 g (0x0#7 ++ a ++ 0x0#2 ++ c ++ 0x3#3))
  | .mxclr g a => some (pack 0x36#6 g (0x0#7 ++ a ++ 0x0#7))
  | .mxld g d a => some (pack 0x36#6 g (d ++ a ++ 0x1#7))
  | .mxst g d a => some (pack 0x36#6 g (d ++ a ++ 0x2#7))
  | .mxdrn g d a => some (pack 0x36#6 g (d ++ a ++ 0x3#7))
  | .mxtol g a => some (pack 0x36#6 g (0x0#7 ++ a ++ 0x4#7))
  | .mxrtol g d => some (pack 0x36#6 g (d ++ 0x5#14))
  | .mxwait g => some (pack 0x36#6 g (0x6#21))
  | .copy g a b => some (pack 0x37#6 g (0x0#7 ++ a ++ 0x0#3 ++ b))
  | .publish g a => some (pack 0x37#6 g (0x0#7 ++ a ++ 0x10#7))
  | .mcast g d a b => some (pack 0x38#6 g (d ++ a ++ 0x0#3 ++ b))
  | .nbinit g a b => some (pack 0x39#6 g (0x0#7 ++ a ++ 0x0#3 ++ b))
  | .nbarr g b => some (pack 0x39#6 g (0x1#17 ++ b))
  | .nbwait g a b => some (pack 0x39#6 g (0x0#7 ++ a ++ 0x2#3 ++ b))
  | .nbsync g b => some (pack 0x39#6 g (0x3#17 ++ b))
  | .waitl g d b => some (pack 0x39#6 g (d ++ 0x4#10 ++ b))
  | .nbrd g d b => some (pack 0x39#6 g (d ++ 0x5#10 ++ b))
  | .callslip g d a => some (pack 0x3A#6 g (d ++ a ++ 0x0#7))
  | .accession g d a => some (pack 0x3A#6 g (d ++ a ++ 0x1#7))
  | .slipcan g a => some (pack 0x3A#6 g (0x0#7 ++ a ++ 0x2#7))
  | .handoff g a => some (pack 0x3B#6 g (0x0#7 ++ a ++ 0x0#7))
  | .handwait g d => some (pack 0x3B#6 g (d ++ 0x1#14))
  | .collred g a => some (pack 0x3B#6 g (0x0#7 ++ a ++ 0x2#7))
  | .collrsc g a => some (pack 0x3B#6 g (0x0#7 ++ a ++ 0x3#7))
  | .collgat g a => some (pack 0x3B#6 g (0x0#7 ++ a ++ 0x4#7))
  | .collbc g a => some (pack 0x3B#6 g (0x0#7 ++ a ++ 0x5#7))
  | .opreg g k a => some (pack 0x3C#6 g (k ++ a ++ 0x0#7))
  | .opdo g k a => some (pack 0x3C#6 g (k ++ a ++ 0x1#7))
  | .conld g a => some (pack 0x3C#6 g (0x0#7 ++ a ++ 0x2#7))
  | .bra g o => some (pack 0x3D#6 g (o))
  | .call g o => some (pack 0x3E#6 g (o))
  | .movc g d i => some (pack 0x3F#6 g (0x0#1 ++ d ++ i))
  | .brx g a => some (pack 0x3F#6 g (0x40#7 ++ a ++ 0x0#7))
  | .ret g a => some (pack 0x3F#6 g (0x41#7 ++ a ++ 0x0#7))
  | .exit g => some (pack 0x3F#6 g (0x108000#21))
  | .join g m => some (pack 0x3F#6 g (0x2180#14 ++ m))
  | .leave g m => some (pack 0x3F#6 g (0x2200#14 ++ m))
  | .waitm g m => some (pack 0x3F#6 g (0x2280#14 ++ m))
  | .yield g => some (pack 0x3F#6 g (0x118000#21))
  | .setwb g b => some (pack 0x3F#6 g (0x2380#14 ++ b))
  | .brk g => some (pack 0x3F#6 g (0x120000#21))
  | .trap g t => some (pack 0x3F#6 g (0x2480#14 ++ t))
  | .tret g => some (pack 0x3F#6 g (0x128000#21))
  | .rdsr g a x => some (pack 0x3F#6 g (0x4B#7 ++ a ++ x))
  | .wrsr g a x => some (pack 0x3F#6 g (0x4C#7 ++ a ++ x))
  | .launch g a => some (pack 0x3F#6 g (0x4D#7 ++ a ++ 0x0#7))
  | .facsim g a => some (pack 0x3F#6 g (0x4E#7 ++ a ++ 0x0#7))
  | .smpsusp g => some (pack 0x3F#6 g (0x13C000#21))
  | .smpres g => some (pack 0x3F#6 g (0x140000#21))
  | .loadCompletion _ => none
  | .storeCompletion _ => none
  | .atomCompletion _ => none
  | .awaitCompletion _ _ => none
  | .lineArrival _ _ => none
  | .instructionFetch _ _ => none
  | .matrixWorkCompletion _ => none
  | .tileopCompletion _ => none
  | .teamCopyStart _ _ => none
  | .teamCopyEnd _ _ => none
  | .mcastReceipt _ _ => none
  | .mcastSendEnd _ => none
  | .publishExchange _ _ => none
  | .publishBackgroundCopy _ _ => none
  | .tileDelivery _ => none
  | .facsimCut _ => none
  | .facsimCopyComplete _ => none
  | .facsimileDrain _ => none
  | .taskCommit _ => none
  | .undoRunEnd _ => none
  | .groupEnd _ _ => none
  | .lineScrub _ => none
  | .gangRetirement _ _ => none
  | .launchCompletion _ => none
  | .launchAdmission _ => none
  | .dependenceReady _ _ => none
  | .dispatchDecision _ => none
  | .frameScrub _ => none
  | .swap _ => none
  | .restoreComplete _ => none
  | .spillLine _ _ => none
  | .spillComplete _ _ => none
  | .migrationCopyEnd _ => none
  | .migrationFreezeEnd _ => none
  | .migrationDrainEnd _ => none
  | .twinClaim _ => none
  | .cut _ _ => none
  | .cutMarker _ _ _ => none
  | .cutComplete _ => none
  | .stepDone _ => none
  | .wcAgeExpiry _ => none
  | .accessionHoldingReady _ => none
  | .issueDecision _ _ => none
  | .asyncTrapTaken _ _ => none
  | .copyFault _ _ _ => none
  | .slipLapse _ => none
  | .collectiveEnd _ _ _ => none
  | .parityBuild _ _ => none
  | .hostFedAppend _ _ => none
  | .startBarrierRelease _ _ _ _ => none
  | .startBarrierTimeout _ => none
  | .gangAged _ _ => none
  | .stallSample _ => none
  | .smpctlWrite _ _ => none
  | .budgetPeriod _ => none
  | .watchdog _ _ => none
  | .parkRule _ => none
  | .quantumExpiry _ _ => none
  | .preemptRequest _ _ _ => none
  | .graceTimerExpiry _ _ => none
  | .killTimerExpiry _ _ => none
  | .recall _ _ _ _ => none
  | .recallSwitchTime _ => none
  | .recallDue _ => none
  | .storeRefusal _ _ => none
  | .promotionRequest _ _ _ => none
  | .pageMigrate _ _ _ _ => none
  | .hostInvalidate _ _ => none
  | .faultFill _ _ _ => none
  | .faultRefusal _ _ => none
  | .cxlMemRead _ _ => none
  | .cxlMemWrite _ _ => none
  | .rivalEnd _ => none
  | .testPassEnd _ _ => none
  | .testPassFail _ _ => none
  | .warning _ => none
  | .loadPacket _ => none
  | .storePacket _ => none
  | .atomicPacket _ => none
  | .replyPacket _ => none
  | .custodyPacket _ => none
  | .errorNotice _ => none
  | .engineDataPacket _ _ => none
  | .interestPacket _ _ _ => none
  | .tileDataPacket _ _ => none
  | .lapseNotice _ => none
  | .pendingEntryExpiry _ _ => none
  | .releasePacket _ => none
  | .flitCrcError _ _ => none
  | .activeListChange _ => none
  | .retransmitTimeout _ => none
  | .busyResend _ _ => none
  | .replyCacheExpiry _ _ _ => none
  | .catalogueLoad _ _ _ => none
  | .ctxnew _ _ _ _ => none
  | .ctxfree _ _ => none
  | .qcreate _ _ _ _ _ _ _ => none
  | .regimg _ _ _ _ => none
  | .mapwin _ _ _ _ => none
  | .frameAlloc _ _ _ => none
  | .frameFree _ _ => none
  | .pubreg _ _ _ _ _ => none
  | .metreg _ _ _ _ _ => none
  | .metdereg _ _ => none
  | .sliceset _ _ _ _ => none
  | .setregCxpark _ _ _ => none
  | .setregCxtime _ _ _ => none
  | .setregTwinctl _ _ _ => none
  | .setregBpimg _ _ _ _ => none
  | .setregBgbud _ _ _ _ => none
  | .setregWarncfg _ _ _ => none
  | .setregWatchdogLimit _ _ _ => none
  | .hostRegisterWrite _ _ _ => none
  | .twinStep _ _ _ _ _ => none
  | .twinEdit _ _ _ _ => none
  | .twinRelease _ _ => none
  | .twinResume _ _ => none
  | .twinDiscard _ _ => none
  | .tread _ _ _ => none
  | .exportWindow _ _ _ => none
  | .restore _ _ _ _ => none
  | .migrateIn _ _ _ _ _ _ => none
  | .migrateOut _ _ => none
  | .replace _ _ _ _ _ _ => none
  | .pwrlim _ _ => none
  | .startinfo _ => none
  | .powerWindow _ => none
  | .throttle105 _ => none
  | .throttleEnd95 _ => none
  | .thermalTrip _ => none
  | .powerGood _ => none
  | .fundamentalReset _ _ => none
  | .sensorUpdate _ => none
  | .pldmSensorRead _ => none
  | .mctpControl _ _ => none
  | .getVersion => none
  | .getCapabilities _ => none
  | .negotiateAlgorithms _ => none
  | .getDigests => none
  | .getCertificate _ _ _ => none
  | .challenge _ _ => none
  | .getMeasurements _ _ _ => none
  | .keyExchange _ => none
  | .finish _ => none
  | .keyUpdate _ => none
  | .barrierPacket _ _ _ => none
  | .barrierHomeFailure _ _ => none
  | .recallLift _ _ => none
  | .cxlMemCompletion _ => none
  | .facsimileRegistration _ _ _ _ _ _ => none
  | .warningWordRegistration _ _ _ => none

/-- The four bytes of a word as memory holds them, lowest address first (R4). -/
def wordBytes (w : Word) : List Byte := [fld w 0 8, fld w 8 8, fld w 16 8, fld w 24 8]

/-- The little-endian word of the first four bytes of a list; bytes that are not there read 0 (R4). -/
def bytesWord : List Byte → Word
  | b0 :: b1 :: b2 :: b3 :: _ => b3 ++ b2 ++ b1 ++ b0
  | [b0, b1, b2] => 0#8 ++ b2 ++ b1 ++ b0
  | [b0, b1] => 0#16 ++ b1 ++ b0
  | [b0] => 0#24 ++ b0
  | [] => 0#32

/-- Decode the first instruction of a byte string: the instruction and the bytes after it, or none. -/
def decodeBytes (bs : List Byte) : Option (Instr × List Byte) :=
  if bs.length < 4 then none else
    match decodeWord (bytesWord bs) with
    | some i => some (i, bs.drop 4)
    | none => none

/-- The instruction that the decoder reads from an instruction whose bits are `w` (one 32-bit word, bit 0 least significant). -/
def decodeTableWord (_nbits w : Nat) : Option Instr :=
  (decodeBytes (wordBytes (BitVec.ofNat 32 w))).map (fun r => r.1)

end Sys2Proof
end

