-- ==== Sys2Proof/Machine/State.lean ====
section
/-!
DEFINITION. The state of one SYN-8040 part as plain data: lanes, groups, teams, launches, contexts, cores, memories, engines,
fabric, reliability and host-facing state, the reasons a step can stop, and the state after reset.
Fields marked 'model' are the model's own (log 9 to 12); every other field is named by a rule of the spec.
-/
namespace Sys2Proof.Machine

/-- One latch entry k0-k7: validity and one value per lane (R15). -/
structure Latch where
  valid : Bool
  vals : List Word
deriving DecidableEq, Repr

/-- The chain in progress: its head, the address of its last member, and how many members have issued (R17). -/
structure Chain where
  head : Word
  last : Word
  issued : Nat
deriving DecidableEq, Repr

/-- The state of one lane (R13). `waitm` is the WAITM block: the mask number (its address is `pcv`, R113). -/
structure Lane where
  regs : List Word
  preds : BitVec 16
  pcv : Word
  exited : Bool
  waitm : Option Nat
  yx : Bool
deriving DecidableEq, Repr

/-- The operand collector (R166). -/
structure Collector where
  held : Bool
  rows : List (List Byte)
  fmt : Nat
deriving DecidableEq, Repr

/-- A pending asynchronous trap of a group (R218, R307, R311). `lane` names the lane whose fragment takes it. -/
structure AsyncTrap where
  cause : Nat
  detail : Nat
  level : Nat
  orphan : Bool
  tpc : Option Word
  tval : Dword
  lane : Option Nat
  parent : Option Word
deriving DecidableEq, Repr

/-- What a group that has issued a waiting instruction waits for (R151, R152, R194, R204, R213, R228, R172, R339). PUBLISH waits for the
engine writes issued before it: slices by team copy and group, and collectives by their number. -/
inductive Wait
  | none
  | counter (c n : Nat)
  | await (lanes : LaneMask)
  | barrier (b phase : Nat) (write : Option (Nat × LaneMask × Word))
  | handoff (dst : Nat) (lanes : LaneMask)
  | facsim (list : Nat) (cut : Bool)
  | matrix
  | publish (base : Nat) (slices : List (Nat × Nat)) (colls : List Nat)
  | claim
  | reply (lanes : LaneMask)
deriving DecidableEq, Repr

/-- The state of one group (R18, R28, R39, R166, R172, R218, R224). `passed` counts the decisions that passed it over (R35); `edits`
holds what EDIT gave special registers that no other field saves, by lane and number (R350). -/
structure Group where
  idx : Nat
  lanes : List Lane
  masks : List LaneMask
  ctrs : List Nat
  rm : BitVec 2
  wb : Nat
  chpc : Word
  latches : List Latch
  lastExec : LaneMask
  chain : Option Chain
  ret : Dword
  cyc : Dword
  core : Nat
  slot : Nat
  pos : Nat
  stamp : Nat
  cause : Word
  tpc : Word
  tval : Dword
  frag : Dword
  parent : Word
  handler : LaneMask
  resume : Word
  excl : LaneMask
  pend : List AsyncTrap
  tol : Word
  coll : Collector
  susp : Bool
  copies : Nat
  wait : Wait
  stall : Nat
  lineWait : List Nat
  frel : Option (Nat × List Nat)
  lapse : Option (Nat × Nat × Dword × LaneMask)
  parked : List Nat
  refused : List Nat
  bpPass : Bool
  twinPass : Bool
  undo : Bool
  ended : Bool
  age : Nat
  passed : Nat
  edits : List (Nat × Nat × Dword)
deriving DecidableEq, Repr

/-- A named barrier nb0-nb15 (R19). -/
structure Barrier where
  expected : Nat
  arrivals : Nat
  phase : BitVec 16
deriving DecidableEq, Repr

/-- What fills an absent and pending scratchpad line: a slip, a COPY slice, or nothing (R135, R191, R207, R208). -/
inductive LineOwner
  | slip (id : Nat)
  | copy (n grp : Nat)
  | free
deriving DecidableEq, Repr

/-- A scratchpad line that is absent: pending or not, with what fills or filled it and why it was left unfilled (R182). -/
structure AbsentLine where
  line : Nat
  pending : Bool
  owner : LineOwner
  why : Nat
  name : Dword
deriving DecidableEq, Repr

/-- An accumulator tile with its checksum state (R159); `ty` is 0 none, 1 FP32, 2 i32. -/
structure Tile where
  elems : List Word
  chc : List Word
  chr : List Word
  v : Bool
  ty : Nat
deriving DecidableEq, Repr

/-- A shelf-list entry of a team: tag and team-relative line (R153, R266). -/
structure ShelfEntry where
  tag : Nat
  line : Nat
deriving DecidableEq, Repr

/-- One record of a task's errata stack (R231). -/
structure Errata where
  kind : Nat
  id : Dword
  arg : Word
  offset : Word
deriving DecidableEq, Repr

/-- A resident team (R7, R19, R153, R212, R229, R264). `slots` lists (core, slot); `held` counts lines of the hold quota. -/
structure Team where
  uid : Nat
  ctx : Nat
  launch : Nat
  tlin : Nat
  hidx : Nat
  gang : Nat
  core : Nat
  pair : Bool
  slots : List (Nat × Nat)
  groups : List Group
  bars : List Barrier
  scratch : List Host.Cell
  absent : List AbsentLine
  bad : List Nat
  badTiles : List Nat
  tiles : List (Nat × Tile)
  shelf : List ShelfEntry
  committed : Bool
  quota : List Nat
  handed : Bool
  facsim : Bool
  errata : List Errata
  aborting : Option Nat
  afterTask : Option Nat
  heldLaunches : List (Nat × List Byte)
  errs : Nat
  errCores : List Nat
  ended : Bool
  killed : Bool
  released : Bool
deriving DecidableEq, Repr

/-- A gang's shares reserved so far, on its cluster (R291, R292): cores in order, and the decision count when the first one was reserved. -/
structure GangRes where
  gang : Nat
  cluster : Nat
  cores : List Nat
  first : Option Nat
  aged : Bool
deriving DecidableEq, Repr

/-- A team that waits to be placed again, with its errors so far (R324, R378, R379). -/
structure Again where
  tlin : Nat
  errs : Nat
  errCores : List Nat
deriving DecidableEq, Repr

/-- The cause fields of a launch completion record (R288). -/
structure CauseRec where
  code : Nat
  detail : Nat
  tlin : Nat
  tpc : Word
  tval : Dword
deriving DecidableEq, Repr

/-- An admitted launch (R225, R286, R288, R229). `facWait` holds the lowest team that waits at a FACSIM with its regions, `facSent`
that the barrier packet of the cut has left, `facCut` 0 without a cut, 1 while copies run, 2 after a cut without room (R228). -/
structure Launch where
  uid : Nat
  ctx : Nat
  queue : Nat
  prio : Nat
  id : Word
  gen : Word
  image : Nat
  gx : Nat
  gy : Nat
  gz : Nat
  compl : Nat
  repl : Nat
  replica : Nat
  next : Nat
  again : List Again
  ended : List Nat
  placed : List Nat
  sumTime : Nat
  res : List GangRes
  retired : Nat
  hands : List (Nat × Word × Nat)
  fatal : Option CauseRec
  report : Option CauseRec
  kinds : List (Nat × Word)
  concord : List Byte
  oldest : Nat
  facWait : Option (Nat × List (Nat × Nat))
  facSent : Bool
  facCut : Nat
  stopped : Bool
deriving DecidableEq, Repr

/-- A linked launch packet of a queue: its priority, its address, its 64 bytes, whether it has passed its checks and its
dependences, and the answers of other parts to the monitor's reads for it, by address (R225, R285-R287). -/
structure Linked where
  prio : Nat
  addr : Nat
  packet : List Byte
  checked : Bool
  ready : Bool
  got : List (Nat × List Byte)
deriving DecidableEq, Repr

/-- A head that waits at the start barrier (R289): its priority, address and image, the placement that it has reserved where it passed its
checks, and the start count with which it was released while its context was recalled (R326). -/
structure StartWait where
  prio : Nat
  addr : Nat
  image : Nat
  pass : Bool
  res : List GangRes
  go : Option Nat
deriving DecidableEq, Repr

/-- A launch queue (R284, R285, R289). `barrier` holds the heads that wait at the start barrier. -/
structure Queue where
  num : Nat
  ctx : Nat
  deviceFed : Bool
  tail : Nat
  repset : List Nat
  deft : Word
  linked : List Linked
  starts : Nat
  barrier : List StartWait
  nextGen : Option Word
deriving DecidableEq, Repr

/-- A registered kernel image (R73-R78, R403): header bytes, resolved pool, relocations, code words and measurement. -/
structure Image where
  addr : Nat
  ctx : Nat
  header : List Byte
  pool : List Word
  relocs : List Dword
  code : List Word
  dataOk : Bool
  meas : List Byte
deriving DecidableEq, Repr

/-- A facsimile registration of a context (R386): areas (physical base, bytes), template, drain target. -/
structure FacReg where
  areas : List (Nat × Nat)
  template : Nat
  target : Nat
  bytes : Nat
deriving DecidableEq, Repr

/-- The facsimile that a context holds, and how far it has drained (R386-R389). -/
structure Facsimile where
  ctx : Nat
  gen : Word
  step : Dword
  regions : List (Nat × List Byte)
  roles : List Byte
  soft : List Byte
  template : List Byte
  part : Nat
  member : Nat
  ngrp : Nat
  done : Bool
  pdone : Bool
  parity : List Byte
  chunk : Nat
  drained : Nat
deriving DecidableEq, Repr

/-- A breakpoint or watchpoint match that waits for the twin arbiter (R339). -/
structure Claim where
  team : Nat
  grp : Nat
  trig : Nat
  pc : Word
  gid : Word
  tval : Dword
deriving DecidableEq, Repr

/-- A context (R20, R87, R272, R304, R321, R323, R336-R338, R385, R386). `twinOf` is set in a twin's context. -/
structure Ctx where
  num : Nat
  slice : Nat
  base : Nat
  launches : Word
  lattice : List Word
  bp : List Word
  wp : List Dword
  bpimg : List Dword
  cxpark : Word
  cxtime : Dword
  twinctl : Word
  wdogLimit : Dword
  warnWord : Option Nat
  warnCount : Word
  fac : Option FacReg
  recalled : Bool
  twinOf : Option Nat
  missed : Word
  claims : List Claim
deriving DecidableEq, Repr

/-- The escalation-ladder states of a context on a core (R322). -/
inductive Ladder
  | run | soft | halt | kill | out
deriving DecidableEq, Repr

/-- A STORE_IMPRECISE report that waits in a context's report queue on a core (R311). -/
structure Report where
  team : Nat
  grp : Nat
  trap : AsyncTrap
deriving DecidableEq, Repr

/-- What a core keeps for one context: rotation position, watchdog count, ladder, reports, spill progress, and whether the
park rule caused its spill, which budget 5 then bounds (R20, R304, R311, R317, R322). -/
structure CoreCtx where
  core : Nat
  ctx : Nat
  rot : Option (Nat × Nat)
  wdog : Dword
  ladder : Ladder
  reports : List Report
  saved : Bool
  spill : Nat
  park : Bool
deriving DecidableEq, Repr

/-- A core: its active and shadow contexts, sampling unit, corrected tiles and fetched code lines (R300, R305, R314, R175). -/
structure CoreSt where
  core : Nat
  active : Option Nat
  shadow : Option Nat
  smpctl : Word
  smpbuf : Dword
  smpdrop : Word
  smpKept : Option (Nat × Nat)
  smpK : Word
  corrected : Nat
  fetched : List (Nat × Nat)
deriving DecidableEq, Repr

/-- A translated location: home part, physical address, and the page's bits (R272). `pub` is the region's physical base (R276). -/
structure Loc where
  part : Nat
  pa : Nat
  nc : Bool
  met : Bool
  pub : Option Nat
  w : Bool
deriving DecidableEq, Repr

/-- The kinds of an outstanding access (R138, R139, R146, R149). `done` is an access already performed (LDS,
STS, ATOMS) or empty; its number names the event that ends it: 0 load, 1 store, 2 atomic. `packet` is LAUNCH's read of a packet
on another part (R226). -/
inductive AccKind
  | load
  | store
  | acquire (scope : Nat)
  | release (scope : Nat)
  | atomic (op scope : Nat)
  | await (scope : Nat)
  | done (event : Nat)
  | packet
deriving DecidableEq, Repr

/-- One lane's part of an access: address, location, and the bytes it stores or its operands (R138, R149). -/
structure LaneAcc where
  lane : Nat
  va : Nat
  loc : Loc
  data : List Byte
deriving DecidableEq, Repr

/-- An outstanding access of a group (R138-R141). `dst` and `dstN` are the registers still to be written (interlock);
`got` holds the answers that have arrived from other parts. -/
structure Access where
  id : Nat
  team : Nat
  grp : Nat
  core : Nat
  kind : AccKind
  ctr : Option Nat
  dst : Nat
  dstN : Nat
  size : Nat
  signed : Bool
  pc : Word
  lanes : List LaneAcc
  exec : LaneMask
  got : List (Nat × List Byte × Nat)
  waiting : Bool
  marked : Bool
deriving DecidableEq, Repr

/-- A store-buffer entry (R309); `acc` is the access that made it. -/
structure StoreBuf where
  pc : Word
  gid : Word
  tlin : Nat
  launch : Nat
  addr : Dword
  team : Nat
  grp : Nat
  acc : Nat
deriving DecidableEq, Repr

/-- A write-combining entry of a core (R367): peer, owning team, line (physical address div 256), written bytes. -/
structure WcEntry where
  id : Nat
  core : Nat
  team : Nat
  part : Nat
  die : Nat
  line : Nat
  cells : List Host.Cell
  stores : List StoreBuf
  marked : Bool
  ctx : Nat
deriving DecidableEq, Repr

/-- A request to another part or to host memory that awaits its answer (R363, R146); `host` marks host memory. `acc` names an
access and its lane, `monitor` a queue, a packet of it and the address that the queue monitor reads (R287), or queue 256 for what a command of the controller
reads or writes (R403). `busy` says that it was answered busy, and `failed` holds the reason
of an error notice, 0 without one (R362, R365). -/
structure Req where
  id : Nat
  host : Bool
  part : Nat
  die : Nat
  pkt : Packet
  acc : Option (Nat × Nat)
  wc : Option WcEntry
  monitor : Option (Nat × Nat × Nat)
  sends : Nat
  custody : Bool
  busy : Bool
  failed : Nat
  core : Nat
  team : Nat
deriving DecidableEq, Repr

/-- Where a held copy stands: a way of its home's die cache (R269), its context's hold save area (R313), or the hold overflow area (R294). -/
inductive HeldPlace
  | way | saved | overflow
deriving DecidableEq, Repr

/-- A held line: the owning team, the line, its held bytes, the team's context, and where the copy stands (R269, R294, R313). -/
structure HeldLine where
  team : Nat
  line : Nat
  cells : List Host.Cell
  ctx : Nat
  place : HeldPlace
deriving DecidableEq, Repr

/-- A local-release mark of a line (R245): the marked core and its part, and whether a core of another part has been asked to promote. -/
structure Mark where
  line : Nat
  core : Nat
  part : Nat
  asked : Bool
deriving DecidableEq, Repr

/-- A slice of a COPY: its record, barrier and completion offset, and its result (R188, R191). `xfer` names its transfer in sprayed packets (R360);
`asked` and `arrived` are for a source on another part: bytes by part × 2^52 + physical address. -/
structure Slice where
  grp : Nat
  lane : Nat
  pc : Word
  record : List Word
  bar : Nat
  comp : Option Nat
  landed : Nat
  cause : Nat
  fault : Bool
  ended : Bool
  fval : Dword
  xfer : Nat
  asked : Bool
  arrived : List Host.Cell
deriving DecidableEq, Repr

/-- A team copy: the slices issued, the groups that have issued or ended, and whether it has started (R189). -/
structure TeamCopy where
  team : Nat
  n : Nat
  issued : List Nat
  slices : List Slice
  started : Bool
  finished : Bool
deriving DecidableEq, Repr

/-- A multicast send in flight (R197-R199). -/
structure Send where
  id : Nat
  team : Nat
  grp : Nat
  bar : Nat
  comp : Option Nat
  soff : Nat
  doff : Nat
  bytes : Nat
  base : Nat
  rbar : Nat
  left : List Nat
  refused : Word
  delivered : Word
deriving DecidableEq, Repr

/-- An outstanding matrix operation of a group, and the bytes that it is still to write, by scratchpad offset (R167). -/
structure Work where
  id : Nat
  team : Nat
  grp : Nat
  writes : List (Nat × List Byte)
deriving DecidableEq, Repr

/-- A TILEOP in progress (R177): `at_` counts the tiles done, `cor` and `unc` those found corrected and uncorrectable, first last (R168, R182). -/
structure TileOp where
  id : Nat
  team : Nat
  grp : Nat
  lane : Nat
  pc : Word
  ctr : Nat
  kind : Nat
  block : Nat
  base : Word
  words : List Word
  at_ : Nat
  cor : List Nat
  unc : List (Nat × Nat)
deriving DecidableEq, Repr

/-- A name of a tile: tensor id, tile index, iteration (R206). -/
structure TileName where
  tensor : Word
  tile : Word
  iter : BitVec 16
deriving DecidableEq, Repr

/-- A call slip (R207, R208). `data` is a tile that has reached the hub; `notice` a lapse notice's reason. -/
structure Slip where
  id : Nat
  team : Nat
  name : TileName
  line : Nat
  die : Nat
  lifetime : Nat
  data : Option (List Byte)
deriving DecidableEq, Repr

/-- An ACCESSION whose tile the engine is still to read (R209). -/
structure AccessionOp where
  id : Nat
  team : Nat
  name : TileName
  offset : Nat
  die : Nat
deriving DecidableEq, Repr

/-- A collective that this part's participant has issued (R215): its descriptor, its source read as a slice is, and the sectors written once
it has landed. -/
structure CollOp where
  id : Nat
  team : Nat
  grp : Nat
  kind : Nat
  words : List Word
  comp : Option Nat
  bar : Nat
  src : Slice
  landed : Option Nat
deriving DecidableEq, Repr

/-- A publishable region (R193-R195, R276). `sel` is the selector bit; `copying` while the background copy runs; `moves` gives the pages of
its first half that have migrated: where each is now, and its offset in the half (R277). -/
structure PubRegion where
  ctx : Nat
  va : Nat
  bytes : Nat
  pa : Nat
  sel : Bool
  copying : Bool
  moves : List (Nat × Nat)
deriving DecidableEq, Repr

/-- The states of a migrating page (R277). -/
inductive MigState
  | copy | freeze | drain
deriving DecidableEq, Repr

/-- What waits at the old home of a migrating page (R277, R278): an access of a group, a request from outside, bytes that the host or the
part writes, or a write-combining entry that has drained. -/
inductive Queued
  | access (id : Nat)
  | packet (p : Packet)
  | read (pa n : Nat)
  | put (ctx : Nat) (cells : List Host.Cell)
  | entry (e : WcEntry)
deriving DecidableEq, Repr

/-- A page migration: dirty lines, passes made, and what is queued in arrival order (R277). -/
structure Migration where
  id : Nat
  ctx : Nat
  va : Nat
  oldPa : Nat
  newPa : Nat
  bytes : Nat
  state : MigState
  dirty : List Nat
  passes : Nat
  queued : List Queued
deriving DecidableEq, Repr

/-- A record of the host's fault queue (R274). -/
structure FaultRec where
  ctx : Nat
  page : Nat
  kind : Nat
deriving DecidableEq, Repr

/-- The states of a twin (R349). -/
inductive TwinState
  | cutting | frozen | stepping | rival
deriving DecidableEq, Repr

/-- An overlay entry: one 256-byte line of the twin's view (R342, R346). -/
structure OvLine where
  line : Nat
  cells : List Host.Cell
deriving DecidableEq, Repr

/-- A twin of a context (R339-R352). `teams` pairs each captured team with the twin's, `pairs` each access, entry, slip or
engine record that was in flight at a capture with the twin's copy, `snap` the held lines at the homes' cuts (R342, R343), and `sels`
the selectors of the publishable regions in the twin's view, and whether the copy of R195 runs there, by the region's physical base (R342, R346). -/
structure Twin where
  orig : Nat
  num : Nat
  state : TwinState
  trig : Nat
  pc : Word
  gid : Word
  tval : Dword
  cutCores : List Nat
  cutHomes : List Nat
  overlay : List OvLine
  quarantine : List Packet
  launches : List (Nat × Nat)
  teams : List (Nat × Nat)
  pairs : List (Nat × Nat)
  snap : List HeldLine
  released : Bool
  step : Option (Nat × Nat × Nat)
  sels : List (Nat × Bool × Bool)
deriving DecidableEq, Repr

/-- An entry of a die's reply cache (R364, R365). -/
structure CacheEntry where
  die : Nat
  src : Nat
  rid : Nat
  atomic : Bool
  old : List Byte
  status : Nat
deriving DecidableEq, Repr

/-- A sprayed transfer at the reorder buffer: the next sequence number, and the packets held (R360). -/
structure Reorder where
  die : Nat
  src : Nat
  srcDie : Nat
  xfer : Nat
  next : Nat
  packets : List Packet
deriving DecidableEq, Repr

/-- A barrier at the reduction unit of a spine of a plane (R371): kind 0 multi-part start, 1 facsimile cut. -/
structure SpineBarrier where
  plane : Nat
  spine : Nat
  parts : List Nat
  kind : Nat
  arrived : List (Nat × Bool × Nat)
deriving DecidableEq, Repr

/-- A pending interest of a router (R374), and the slice of the context whose slip began it (R280). `askers` gives for each port among its faces the
part and die whose interest came by it. -/
structure Pending where
  id : Nat
  name : TileName
  meas : List Byte
  faces : List Face
  askers : List (Nat × Nat × Nat)
  expiry : Nat
  dst : Option (Nat × Nat)
  slice : Option Nat
deriving DecidableEq, Repr

/-- A tile in a router's holdings, with the order of its last use and the slice whose part of a hub's holdings it is in (R280, R375). -/
structure Holding where
  name : TileName
  data : List Byte
  used : Nat
  slice : Nat
deriving DecidableEq, Repr

/-- A tile of which some packets have reached a router, by its name and the part and die that send it (R375). -/
structure Arriving where
  name : TileName
  src : Nat × Nat
  data : List Byte
deriving DecidableEq, Repr

/-- A router of named tiles (R373). -/
structure RouterSt where
  router : Router
  catalogue : List (Nat × BitVec 128)
  pending : List Pending
  holdings : List Holding
  arriving : List Arriving
deriving DecidableEq, Repr

/-- The states of a 64 KiB frame that is not in the clean pool (R282); a frame that is not listed is (log 3). -/
inductive FrameState
  | scrub | taken (slice : Nat)
deriving DecidableEq, Repr

/-- What an area of HBM that no translation reaches holds: the state of a context saved from a core (R313), its held copies of a die that a
recall has saved (R313), or its hold overflow (R294). -/
inductive AreaKind
  | save (core : Nat)
  | hold (die : Nat)
  | overflow
deriving DecidableEq, Repr

/-- An area of a context in a stack, and its frames. -/
structure Area where
  kind : AreaKind
  ctx : Nat
  stack : Nat
  frames : Nat
deriving DecidableEq, Repr

/-- A command that stalls until frames join the clean pool (R282, R338, R400): a frame for a slice, or a TWINCTL value. -/
inductive Stalled
  | frame (fn slice stack : Nat)
  | twinctl (fn ctx : Nat) (v : Word)
deriving DecidableEq, Repr

/-- A metered region and its statement chain (R391-R395); `moves` gives its pages that have migrated, as a publishable region's do. -/
structure Meter where
  region : Word
  base : Nat
  pages : Nat
  allow : List (List Byte)
  counter : Dword
  seq : Dword
  hash : List Byte
  closed : Bool
  moves : List (Nat × Nat)
deriving DecidableEq, Repr

/-- A record of the placement log (R382); `queue` is what the controller knows beside the record, for R383. -/
structure PlaceRec where
  time : Dword
  gen : Word
  launch : Word
  tlin : Nat
  core : Nat
  ctx : Nat
  event : Nat
  queue : Nat
deriving DecidableEq, Repr

/-- A line of another part that a command of the controller has asked for or written (model, R403): the answer's bytes, and none while it is owed;
`ok` is false where it was refused. -/
structure FarLine where
  part : Nat
  addr : Nat
  write : Bool
  data : Option (List Byte)
  ok : Bool
deriving DecidableEq, Repr

/-- A slice of the slice table (R280). -/
structure SliceRow where
  clusters : BitVec 40
  stackSet : BitVec 16
deriving DecidableEq, Repr

/-- One mailbox (R398). -/
structure Mailbox where
  fn : Nat
  ctl : Word
  arg : List Byte
  res : List Byte
deriving DecidableEq, Repr

/-- The SPDM responder's state (R401). -/
structure Spdm where
  version : Bool
  caps : Bool
  algs : Bool
  session : Nat
  updates : Nat
  transcript : List Byte
deriving DecidableEq, Repr

/-- A recall and its actions per queue (R326-R329). -/
structure RecallSt where
  mask : Dword
  due : Nat
  noDiscard : Bool
  actions : List (Nat × Nat)
  vacant : Bool
deriving DecidableEq, Repr

/-- An entry of a die's object table (R231). -/
structure ObjEntry where
  team : Nat
  kind : Nat
  id : Dword
  arg : Word
deriving DecidableEq, Repr

/-- Lines and tiles of an ended team that the scrubber is still zeroing (R265). -/
structure Scrub where
  id : Nat
  core : Nat
  ctx : Nat
  bytes : Nat
  tiles : Nat
deriving DecidableEq, Repr

/-- What the part has sent to the outside: packets, notices, records and answers. -/
inductive Notice
  | packet (p : Packet)
  | relay (r : Router) (port : Nat) (p : Packet)
  | fault (r : FaultRec)
  | cut (ctx : Nat)
  | overflow (ctx stack : Nat)
  | peerDown (part die : Nat)
  | linkDown (port : Nat)
  | poison (pa : Nat)
  | taint (dest : Nat) (bytes : List Byte)
  | statement (bytes : List Byte)
  | recall (queue action : Nat)
  | vacant (mask : Dword) (time : Nat)
  | invalidated (ctx va : Nat)
  | hostRead (pa : Nat) (bytes : Option (List Byte))
  | interrupt (fn : Nat)
  | thermal (die : Nat)
  | spdm (code : Nat) (bytes : List Byte)
  | mctp (bytes : List Byte)
  | sensor (n : Nat) (v : Nat)
  | ready (minimal : Bool)
  | placed (n : Nat) (bytes : List Byte)
deriving DecidableEq, Repr

/-- The issue being performed (model): group, executing lanes and address, and whether it is the second of a pair (R25). -/
structure Cur where
  team : Nat
  grp : Nat
  exec : LaneMask
  pc : Word
  second : Bool
deriving DecidableEq, Repr

/-- An error of the hardware (model): a corrected error on a die, an uncorrectable one in a sector of HBM, in a scratchpad line or a tile
of a team, in a vector register or held copy of a team when it is read, a shelf-list entry's parity, or a silently changed element of a
tile (R175, R270, R271). -/
inductive Upset
  | corrected (die : Nat)
  | sector (n : Nat)
  | line (team line : Nat)
  | tile (team n : Nat)
  | found (team : Nat)
  | shelf (team line : Nat)
  | element (team n e : Nat) (v : Word)
deriving DecidableEq, Repr

/-- What reaches the Iswell controller beside the events (model): a taint notice of another part (R383), the hash of a statement that has started a
chain on another part (R395), or the host's read of a record of the placement log (R382). -/
inductive Told
  | taint (bytes : List Byte)
  | chained (hash : List Byte)
  | placed (n : Nat)
deriving DecidableEq, Repr

/-- What happens next (model): an event, an issue of a named group, a co-issued pair of a named group (R25), an error, or what the controller is
told. -/
inductive Act
  | event (i : Instr)
  | issue (team grp : Nat)
  | bundle (team grp : Nat)
  | pair (team grp : Nat)
  | upset (u : Upset)
  | told (x : Told)
deriving DecidableEq, Repr

/-- The state of the part. -/
structure State where
  /-- model: the issue being performed -/
  cur : Option Cur
  /-- model: what the outside world and time do next -/
  inbox : List Act
  /-- model: completions the part owes, oldest first -/
  due : List Instr
  /-- model: the event in progress has only begun, and stays owed -/
  begun : Bool
  /-- model: what the part has sent, newest first -/
  out : List Notice
  /-- model: the next identifier of a record -/
  nextId : Nat
  /-- model: issues so far, the ages of R295 -/
  issues : Nat
  /-- model: the counter at which free values are taken -/
  freeTick : Nat
  part : Nat
  cap : List Word
  teams : List Team
  launches : List Launch
  queues : List Queue
  served : List (Nat × Nat × Nat)
  images : List Image
  ctxs : List Ctx
  cores : List CoreSt
  coreCtxs : List CoreCtx
  stamps : List (Nat × Nat × Nat)
  decisions : List (Nat × Nat)
  mem : List Host.Cell
  held : List HeldLine
  marks : List Mark
  poison : List Nat
  accesses : List Access
  wc : List WcEntry
  heldOut : List WcEntry
  reqs : List Req
  rids : List (Nat × Nat × Nat)
  faultq : List FaultRec
  copies : List TeamCopy
  sends : List Send
  works : List Work
  tileops : List TileOp
  slips : List Slip
  accessions : List AccessionOp
  colls : List CollOp
  pubs : List PubRegion
  migrations : List Migration
  twins : List Twin
  objects : List ObjEntry
  scrubs : List Scrub
  planes : List Nat
  nextPlanes : Option (List Nat)
  /-- interests that wait at this part while the list of planes changes (R361) -/
  kept : List Packet
  links : List (Nat × Nat)
  linksDown : List Nat
  cache : List CacheEntry
  expiry : List (Nat × Nat × Nat)
  busy : List (Nat × Nat × Nat)
  exports : List (Nat × BitVec 128)
  reorder : List Reorder
  barriers : List SpineBarrier
  starts : List (List Nat × Nat)
  /-- replica sets whose launch has ended on this part and for which it has arrived at the barrier of a facsimile cut (R228) -/
  facEnded : List (List Nat)
  routers : List RouterSt
  frames : List (Nat × FrameState)
  areas : List Area
  scrubAreas : List (Nat × Nat)
  /-- lines of the frame in scrubbing that are zeroed, by frame + 16, or by stack for a frame of an area (R298) -/
  scrubAt : List (Nat × Nat)
  stalls : List Stalled
  /-- model: lines of other parts that a command of the controller works on (R403) -/
  far : List FarLine
  bgbud : List (Nat × Nat × Word)
  bguse : List (Nat × Nat × Nat)
  warncfg : List (Nat × Word)
  errors : List (Nat × Nat)
  errHist : List (Nat × List Nat)
  plog : List PlaceRec
  passTime : List (Nat × Nat)
  facs : List Facsimile
  meters : List Meter
  statements : List (List Byte)
  chained : List (List Byte)
  slices : List (Nat × SliceRow)
  spares : List Nat
  retired : List Nat
  /-- the remap table of clusters, as die and physical cluster (R279; log 104) -/
  clusterMap : List (Nat × Nat)
  /-- the remap table of stacks (R279; log 104) -/
  stackMap : List Nat
  windows : List (Nat × Nat × Nat)
  mailboxes : List Mailbox
  startMode : Nat
  startReason : Nat
  startFails : Nat
  portsDown : BitVec 36
  up : Bool
  /-- a start attempt has failed, and the next one is under way (R404) -/
  attempting : Bool
  minDie : Nat
  pwrLimit : Nat
  clockStep : Nat
  throttled : List Nat
  sensors : Sensors
  eid : Nat
  spdm : Spdm
  recalls : List RecallSt
deriving DecidableEq, Repr

/-- Why a meaning answers no next state. Every constructor is safe: there is nothing to perform, and a step goes on (log 12). -/
inductive Fault
  /-- raised by an event's meaning when the state holds nothing the event could be about (no such access, team, timer, engine
  record): the hardware never has that event there. Safe. -/
  | eventCannotOccur
  /-- raised by an encoded instruction's meaning when no group is issuing: an instruction exists only as an issue. Safe. -/
  | noIssue
deriving DecidableEq, Repr

/-- Why the model gives an instruction no meaning. -/
inductive Refusal
  /-- raised by an arm of the dispatch whose instruction has no meaning yet. Safe: nothing is claimed of it. -/
  | notModelled (mnemonic : String)
deriving DecidableEq, Repr

/-- The 128-bit capability register after a normal start (R77). -/
def State.normalCap : List Word := [0x3FF#32, 0#32, 0#32, 0#32]

/-- The part right after a normal start that reached READY (R2, R404): 320 cores in one slice, no context, no work. -/
def State.reset : State where
  cur := none
  inbox := []
  due := []
  begun := false
  out := []
  nextId := 0
  issues := 0
  freeTick := 0
  part := 0
  cap := State.normalCap
  teams := []
  launches := []
  queues := []
  served := []
  images := []
  ctxs := []
  cores := []
  coreCtxs := []
  stamps := []
  decisions := []
  mem := []
  held := []
  marks := []
  poison := []
  accesses := []
  wc := []
  heldOut := []
  reqs := []
  rids := []
  faultq := []
  copies := []
  sends := []
  works := []
  tileops := []
  slips := []
  accessions := []
  colls := []
  pubs := []
  migrations := []
  twins := []
  objects := []
  scrubs := []
  planes := List.range 36
  nextPlanes := none
  kept := []
  links := []
  linksDown := []
  cache := []
  expiry := []
  busy := []
  exports := []
  reorder := []
  barriers := []
  starts := []
  facEnded := []
  routers := []
  frames := []
  areas := []
  scrubAreas := []
  scrubAt := []
  stalls := []
  far := []
  bgbud := []
  bguse := []
  warncfg := []
  errors := []
  errHist := []
  plog := []
  passTime := []
  facs := []
  meters := []
  statements := []
  chained := []
  slices := [(0, ⟨BitVec.allOnes 40, BitVec.allOnes 16⟩)]
  spares := List.range 8
  retired := []
  clusterMap := (List.range 40).map (fun c => (c / 5, c % 5))
  stackMap := List.range 16
  windows := []
  mailboxes := []
  startMode := 0
  startReason := 0
  startFails := 0
  portsDown := 0
  up := true
  attempting := false
  minDie := 0
  pwrLimit := 2700
  clockStep := 0
  throttled := []
  sensors := ⟨0, 0, [], 0, 0⟩
  eid := 0
  spdm := ⟨false, false, false, 0, 0, []⟩
  recalls := []

end Sys2Proof.Machine
end

