-- ==== Sys2Proof/Machine/Ops.lean ====
section
/-!
DEFINITION. The named operations over memory, registers, groups and teams that the meanings share: byte strings, canonical
memory, lookups and updates of State, the issue in progress, taking a trap and returning from one, and retiring an issue.
-/
namespace Sys2Proof.Machine

open Host (Outcome Cell)

/-! ### Lists -/

/-- Apply `f` to every element with its index from `i`. -/
def mapFrom {α β : Type} (f : Nat → α → β) : Nat → List α → List β
  | _, [] => []
  | i, x :: xs => f i x :: mapFrom f (i + 1) xs

/-- The element at an index, or a default. -/
def getAt {α : Type} (xs : List α) (i : Nat) (dflt : α) : α :=
  match xs, i with
  | [], _ => dflt
  | x :: _, 0 => x
  | _ :: xs, i + 1 => getAt xs i dflt

/-- The list with the element at an index replaced; an index beyond the list changes nothing. -/
def setAt {α : Type} (xs : List α) (i : Nat) (v : α) : List α :=
  match xs, i with
  | [], _ => []
  | _ :: xs, 0 => v :: xs
  | x :: xs, i + 1 => x :: setAt xs i v

/-- The value a key has in a key-and-value list, or a default. -/
def lookupD {α : Type} (k : Nat) (dflt : α) : List (Nat × α) → α
  | [] => dflt
  | (k', v) :: xs => if k' = k then v else lookupD k dflt xs

/-- Give a key a value in a key-and-value list. -/
def putKey {α : Type} (k : Nat) (v : α) : List (Nat × α) → List (Nat × α)
  | [] => [(k, v)]
  | (k', v') :: xs => if k' = k then (k, v) :: xs else (k', v') :: putKey k v xs

/-- The first element that meets a test, and the list without it. -/
def takeFirst {α : Type} (p : α → Bool) : List α → Option (α × List α)
  | [] => none
  | x :: xs => if p x then some (x, xs) else
      match takeFirst p xs with
      | some (y, ys) => some (y, x :: ys)
      | none => none

/-- Add an element unless the list has it. -/
def addOnce {α : Type} [DecidableEq α] (x : α) (xs : List α) : List α := if x ∈ xs then xs else x :: xs

/-- The greatest element of a list of numbers, 0 for none. -/
def maxOf : List Nat → Nat
  | [] => 0
  | x :: xs => max x (maxOf xs)

/-- The least element of a list of numbers, or a bound that none is above. -/
def minOf (top : Nat) : List Nat → Nat
  | [] => top
  | x :: xs => min x (minOf top xs)

/-- The sum of a list of numbers. -/
def sumOf : List Nat → Nat
  | [] => 0
  | x :: xs => x + sumOf xs

/-- Consecutive pieces of `n` elements, as many as `k`. -/
def chunksOf {α : Type} (n : Nat) : Nat → List α → List (List α)
  | 0, _ => []
  | k + 1, xs => xs.take n :: chunksOf n k (xs.drop n)

/-- Keep in `xs` ordered by key by inserting `x` before the first key that is not less. -/
def insertBy {α : Type} (key : α → Nat) (x : α) : List α → List α
  | [] => [x]
  | y :: ys => if key x ≤ key y then x :: y :: ys else y :: insertBy key x ys

/-- A list in ascending key order; equal keys keep their order. -/
def sortBy {α : Type} (key : α → Nat) : List α → List α
  | [] => []
  | x :: xs => insertBy key x (sortBy key xs)

/-! ### Byte strings (R4) -/

/-- The low `n` bytes of a number, lowest first (R4). -/
def leBytes : Nat → Nat → List Byte
  | 0, _ => []
  | n + 1, v => BitVec.ofNat 8 v :: leBytes n (v / 256)

/-- The number that a byte string holds, lowest byte first (R4). -/
def leNat : List Byte → Nat
  | [] => 0
  | b :: bs => b.toNat + 256 * leNat bs

/-- The little-endian value of `n` bytes at an offset of a byte string (R4). -/
def bytesAt (bs : List Byte) (off n : Nat) : Nat := leNat ((bs.drop off).take n)

/-- A byte string brought to a length: cut, or padded with zeros. -/
def padTo (n : Nat) (bs : List Byte) : List Byte := bs.take n ++ List.replicate (n - bs.length) 0

/-- Words as bytes (R4). -/
def wordsBytes : List Word → List Byte
  | [] => []
  | w :: ws => leBytes 4 w.toNat ++ wordsBytes ws

/-- The `n` words of a byte string (R4). -/
def bytesWords (n : Nat) (bs : List Byte) : List Word := (chunksOf 4 n bs).map (fun c => BitVec.ofNat 32 (leNat c))

/-! ### Cells and memory -/

/-- The byte a cell list gives an address, if it lists it. -/
def cellAt (a : Nat) : List Cell → Option Byte
  | [] => none
  | (k, b) :: cs => if k = a then some b else cellAt a cs

/-- List an address with a byte, keeping addresses rising. -/
def cellPut (a : Nat) (b : Byte) : List Cell → List Cell
  | [] => [(a, b)]
  | (k, c) :: cs => if a < k then (a, b) :: (k, c) :: cs else if a = k then (a, b) :: cs else (k, c) :: cellPut a b cs

/-- Unlist an address. -/
def cellDrop (a : Nat) : List Cell → List Cell
  | [] => []
  | (k, c) :: cs => if k = a then cs else if a < k then (k, c) :: cs else (k, c) :: cellDrop a cs

/-- Addresses rise strictly from a bound upward, and no entry equals what an unlisted address reads as. -/
def Memory.wfFrom : Nat → List Cell → Bool
  | _, [] => true
  | lo, (k, b) :: cs => decide (lo ≤ k) && b != Config.emptyByte && Memory.wfFrom (k + 1) cs

/-- The canonical form of a memory. -/
def Memory.wf (m : List Cell) : Bool := Memory.wfFrom 0 m

/-- Read one byte; an unlisted address reads the empty byte (log 2). -/
def Memory.get (m : List Cell) (a : Nat) : Byte := (cellAt a m).getD Config.emptyByte

/-- Write one byte, keeping the canonical form. -/
def Memory.set (m : List Cell) (a : Nat) (b : Byte) : List Cell :=
  if b = Config.emptyByte then cellDrop a m else cellPut a b m

/-- Read `n` bytes from an address upward. -/
def Memory.read (m : List Cell) (a : Nat) : Nat → List Byte
  | 0 => []
  | n + 1 => Memory.get m a :: Memory.read m (a + 1) n

/-- Write bytes from an address upward. -/
def Memory.write (m : List Cell) (a : Nat) : List Byte → List Cell
  | [] => m
  | b :: bs => Memory.write (Memory.set m a b) (a + 1) bs

/-- List bytes at an address upward in a cell list. -/
def cellsWrite (cs : List Cell) (a : Nat) : List Byte → List Cell
  | [] => cs
  | b :: bs => cellsWrite (cellPut a b cs) (a + 1) bs

/-- Write every cell of a list into a memory. -/
def Memory.writeCells (m : List Cell) : List Cell → List Cell
  | [] => m
  | (a, b) :: cs => Memory.writeCells (Memory.set m a b) cs

/-! ### Regions of physical memory some of whose pages have migrated (R276, R277, R391) -/

/-- The offset of a physical address in a region from `base` on; `moves` gives the 64 KiB pages that stand elsewhere, with their offsets. -/
def regionOff (base bytes : Nat) (moves : List (Nat × Nat)) (a : Nat) : Option Nat :=
  match moves.find? (fun m => m.1 / 65536 == a / 65536) with
  | some m => some (m.2 + a % 65536)
  | none => if base ≤ a ∧ a < base + bytes ∧ !(moves.any (fun m => m.2 / 65536 == (a - base) / 65536)) then some (a - base) else none

/-- The physical address of an offset of such a region. -/
def regionAt (base : Nat) (moves : List (Nat × Nat)) (off : Nat) : Nat :=
  match moves.find? (fun m => m.2 / 65536 == off / 65536) with
  | some m => m.1 + off % 65536
  | none => base + off

/-- The moves of a region after a page of `n` bytes has migrated. -/
def regionMove (base bytes old new n : Nat) (moves : List (Nat × Nat)) : List (Nat × Nat) :=
  (List.range (n / 65536)).foldl (fun ms k =>
    match regionOff base bytes moves (old + k * 65536) with
    | some off => (new + k * 65536, off) :: ms.filter (fun m => m.2 != off)
    | none => ms) moves

/-! ### Lane masks -/

/-- Lane `l` is in the set. -/
def inMask (m : LaneMask) (l : Nat) : Bool := m.getLsbD l

/-- The set of the lanes below `w` that meet a test. -/
def maskOf (p : Nat → Bool) : Nat → LaneMask
  | 0 => 0
  | w + 1 => maskOf p w ||| (if p w then BitVec.ofNat 64 (2 ^ w) else 0)

/-- The lanes of a set below `w`, ascending. -/
def lanesOf (m : LaneMask) (w : Nat) : List Nat := (List.range w).filter (inMask m)

/-- The lowest lane of a set below `w`. -/
def lowest (m : LaneMask) (w : Nat) : Option Nat := (lanesOf m w).head?

/-! ### Lookups and updates -/

/-- The first team with an identifier. -/
def findTeam (u : Nat) : List Team → Option Team
  | [] => none
  | t :: ts => if t.uid = u then some t else findTeam u ts

/-- Replace the team with an identifier. -/
def modTeam (u : Nat) (f : Team → Team) : List Team → List Team
  | [] => []
  | t :: ts => if t.uid = u then f t :: ts else t :: modTeam u f ts

/-- Replace a group of a team. -/
def Team.modGroup (t : Team) (i : Nat) (f : Group → Group) : Team :=
  { t with groups := t.groups.map (fun g => if g.idx = i then f g else g) }

/-- The group with an index. -/
def Team.group? (t : Team) (i : Nat) : Option Group := t.groups.find? (fun g => g.idx == i)

/-- The resident team with an identifier. -/
def State.team? (s : State) (u : Nat) : Option Team := findTeam u s.teams

/-- Update one team. -/
def State.onTeam (s : State) (u : Nat) (f : Team → Team) : State := { s with teams := modTeam u f s.teams }

/-- Update one group. -/
def State.onGroup (s : State) (u i : Nat) (f : Group → Group) : State := s.onTeam u (fun t => t.modGroup i f)

/-- The group of a team. -/
def State.group? (s : State) (u i : Nat) : Option Group := (s.team? u).bind (fun t => t.group? i)

/-- The admitted launch with an identifier. -/
def State.launch? (s : State) (u : Nat) : Option Launch := s.launches.find? (fun l => l.uid == u)

/-- Update one launch. -/
def State.onLaunch (s : State) (u : Nat) (f : Launch → Launch) : State :=
  { s with launches := s.launches.map (fun l => if l.uid = u then f l else l) }

/-- The context with a number. -/
def State.ctx? (s : State) (n : Nat) : Option Ctx := s.ctxs.find? (fun c => c.num == n)

/-- Update one context. -/
def State.onCtx (s : State) (n : Nat) (f : Ctx → Ctx) : State :=
  { s with ctxs := s.ctxs.map (fun c => if c.num = n then f c else c) }

/-- The registered image at an address for a context. -/
def State.image? (s : State) (a : Nat) : Option Image := s.images.find? (fun i => i.addr == a)

/-- The image of a team. -/
def State.imageOf (s : State) (t : Team) : Option Image := (s.launch? t.launch).bind (fun l => s.image? l.image)

/-- The cores that hold a placed team, its lines and tiles among it: both of a pair (R10, R264). -/
def Team.cores (t : Team) : List Nat := if t.slots.isEmpty then [] else if t.pair then [t.core, t.core + 1] else [t.core]

/-- The queue with a number. -/
def State.queue? (s : State) (n : Nat) : Option Queue := s.queues.find? (fun q => q.num == n)

/-- Update one queue. -/
def State.onQueue (s : State) (n : Nat) (f : Queue → Queue) : State :=
  { s with queues := s.queues.map (fun q => if q.num = n then f q else q) }

/-- A core that nothing has used yet (R300, R314). -/
def CoreSt.fresh (c : Nat) : CoreSt := ⟨c, none, none, 0, 0, 0, none, 0, 0, []⟩

/-- The state of a core. -/
def State.core (s : State) (c : Nat) : CoreSt := (s.cores.find? (fun x => x.core == c)).getD (CoreSt.fresh c)

/-- Update one core. -/
def State.onCore (s : State) (c : Nat) (f : CoreSt → CoreSt) : State :=
  if s.cores.any (fun x => x.core == c) then
    { s with cores := s.cores.map (fun x => if x.core = c then f x else x) }
  else { s with cores := f (CoreSt.fresh c) :: s.cores }

/-- A context as CTXNEW makes it (R272, R304, R321, R323, R336-R338). -/
def Ctx.fresh (num slice base : Nat) : Ctx where
  num := num
  slice := slice
  base := base
  launches := 0
  lattice := List.replicate 256 0
  bp := List.replicate 8 0xFFFFFFFF
  wp := List.replicate 4 0
  bpimg := List.replicate 8 0
  cxpark := 0x00800040
  cxtime := BitVec.ofNat 64 (1000 * 2 ^ 40 + 10000 * 2 ^ 24)
  twinctl := 256
  wdogLimit := 0
  warnWord := none
  warnCount := 0
  fac := none
  recalled := false
  twinOf := none
  missed := 0
  claims := []

/-- A context that a core has not run yet (R20, R304, R322). -/
def CoreCtx.fresh (c x : Nat) : CoreCtx := ⟨c, x, none, 0, .run, [], false, 0, false⟩

/-- What a core keeps for a context. -/
def State.coreCtx (s : State) (c x : Nat) : CoreCtx :=
  (s.coreCtxs.find? (fun r => r.core == c && r.ctx == x)).getD (CoreCtx.fresh c x)

/-- Update what a core keeps for a context. -/
def State.onCoreCtx (s : State) (c x : Nat) (f : CoreCtx → CoreCtx) : State :=
  if s.coreCtxs.any (fun r => r.core == c && r.ctx == x) then
    { s with coreCtxs := s.coreCtxs.map (fun r => if r.core = c ∧ r.ctx = x then f r else r) }
  else { s with coreCtxs := f (CoreCtx.fresh c x) :: s.coreCtxs }

/-- Send something outside the part. -/
def State.send (s : State) (n : Notice) : State := { s with out := n :: s.out }

/-- Note a completion that the part owes. -/
def State.owe (s : State) (i : Instr) : State := { s with due := s.due ++ [i] }

/-- Forget a completion that is no longer owed. -/
def State.unowe (s : State) (i : Instr) : State := { s with due := s.due.filter (fun j => j ≠ i) }

/-- Note a completion unless it is already owed. -/
def State.oweOnce (s : State) (i : Instr) : State := if s.due.contains i then s else s.owe i

/-- A fresh identifier and the state that has given it. -/
def State.fresh (s : State) : Nat × State := (s.nextId, { s with nextId := s.nextId + 1 })

/-! ### Image header (R74) -/

/-- A header field of an image (R74). -/
def Image.field (m : Image) (off n : Nat) : Nat := bytesAt m.header off n
/-- Group width (R74). -/
def Image.width (m : Image) : Nat := m.field 0x18 1
/-- Registers per lane (R74). -/
def Image.regs (m : Image) : Nat := m.field 0x19 1
/-- One bit of FLAGS (R74). -/
def Image.flag (m : Image) (b : Nat) : Bool := (BitVec.ofNat 16 (m.field 0x1A 2)).getLsbD b
/-- IDEM (R74). -/
def Image.idem (m : Image) : Bool := m.flag 0
/-- DET (R74). -/
def Image.det (m : Image) : Bool := m.flag 1
/-- COOP (R74). -/
def Image.coop (m : Image) : Bool := m.flag 2
/-- BOOSTED (R74). -/
def Image.boosted (m : Image) : Bool := m.flag 3
/-- STRICT (R74). -/
def Image.strict (m : Image) : Bool := m.flag 4
/-- Scratchpad bytes per team (R74). -/
def Image.scratch (m : Image) : Nat := m.field 0x1C 4
/-- Team shape (R74). -/
def Image.tx (m : Image) : Nat := m.field 0x20 4
/-- Team shape (R74). -/
def Image.ty (m : Image) : Nat := m.field 0x24 4
/-- Team shape (R74). -/
def Image.tz (m : Image) : Nat := m.field 0x28 4
/-- Lanes of a team (R8). -/
def Image.lanes (m : Image) : Nat := m.tx * m.ty * m.tz
/-- Gang shape (R74). -/
def Image.gangx (m : Image) : Nat := m.field 0x2C 4
/-- Gang shape (R74). -/
def Image.gangy (m : Image) : Nat := m.field 0x30 4
/-- Gang shape (R74). -/
def Image.gangz (m : Image) : Nat := m.field 0x34 4
/-- Accumulator tiles per team (R74). -/
def Image.accum (m : Image) : Nat := m.field 0x38 2
/-- Store-hold quota in bytes (R74). -/
def Image.hold (m : Image) : Nat := m.field 0x3C 4
/-- Trap-handler entry (R74). -/
def Image.handler (m : Image) : Word := BitVec.ofNat 32 (m.field 0x40 4)
/-- The slots of a team (R10). -/
def Image.slots (m : Image) : Nat := (m.lanes + 255) / 256

/-! ### The issue in progress -/

/-- The issue in progress with the records it concerns. -/
structure Issue where
  cur : Cur
  team : Team
  grp : Group
  launch : Launch
  image : Image

/-- The issue in progress, when a group is issuing. -/
def State.issue? (s : State) : Option Issue :=
  match s.cur with
  | none => none
  | some c =>
    match s.team? c.team with
    | none => none
    | some t =>
      match t.group? c.grp, s.launch? t.launch with
      | some g, some l =>
        match s.image? l.image with
        | some m => some ⟨c, t, g, l, m⟩
        | none => none
      | _, _ => none

/-- Lanes of the group. -/
def Issue.width (i : Issue) : Nat := i.grp.lanes.length

/-- A lane of a group; a lane the group does not have reads as exited with nothing in it. -/
def Group.lane (g : Group) (l : Nat) : Lane := getAt g.lanes l ⟨[], 1, 0, true, none, false⟩

/-- The predicate of a lane; p0 reads true (R13). -/
def Lane.pred (l : Lane) (p : Nat) : Bool := p = 0 || l.preds.getLsbD p

/-- Write a predicate; a write to p0 is discarded (R13). -/
def Lane.setPred (l : Lane) (p : Nat) (v : Bool) : Lane :=
  if p = 0 then l else
    { l with preds := if v then l.preds ||| BitVec.ofNat 16 (2 ^ p) else l.preds &&& ~~~(BitVec.ofNat 16 (2 ^ p)) }

/-- Grd(l): the guard predicate after the negate bit (R51). -/
def guardHolds (g : Guard) (l : Lane) : Bool := l.pred g.p.toNat != g.neg

/-- The lanes in which an instruction takes effect: active and guarded true (R6). -/
def Issue.effect (i : Issue) (g : Guard) : LaneMask :=
  maskOf (fun l => inMask i.cur.exec l && guardHolds g (i.grp.lane l)) i.width

/-- A register of a lane by physical index; one beyond the allocation is never reached after R72 row 4. -/
def Lane.reg (l : Lane) (p : Nat) : Word := getAt l.regs p 0

/-- Write a register of a lane by physical index. -/
def Lane.setReg (l : Lane) (p : Nat) (v : Word) : Lane := { l with regs := setAt l.regs p v }

/-- The physical register of a field (R14). -/
def Group.phys (g : Group) (f : Nat) : Nat := g.wb + f

/-- Replace the lanes of a group that are in a set. -/
def Group.onLanes (g : Group) (m : LaneMask) (f : Nat → Lane → Lane) : Group :=
  { g with lanes := mapFrom (fun i l => if inMask m i then f i l else l) 0 g.lanes }

/-- Write `vals l` to the registers from `d` upward in each lane of a set. -/
def Group.writeRegs (g : Group) (d : Nat) (m : LaneMask) (vals : Nat → List Word) : Group :=
  g.onLanes m (fun i l =>
    (mapFrom (fun k v => (g.phys d + k, v)) 0 (vals i)).foldl (fun l kv => l.setReg kv.1 kv.2) l)

/-- sr.gid (R33): stamp, slice-dense core, slot, position. -/
def gidWord (stamp core slot pos : Nat) : Word :=
  BitVec.ofNat 32 ((stamp % 4096) * 2 ^ 20 + (core % 512) * 2 ^ 11 + (slot % 128) * 16 + pos % 16)

/-- The clusters of a slice, ascending (R3, R280); in minimal mode logical cluster 0 is there, whatever is retired (R405). -/
def State.sliceClusters (s : State) (n : Nat) : List Nat :=
  match s.slices.find? (fun r => r.1 == n) with
  | some r => (List.range 40).filter (fun c => r.2.clusters.getLsbD c && (s.startMode == 1 || !(s.retired.contains c)))
  | none => []

/-- How many elements of a list are below a number. -/
def countBelow (n : Nat) (xs : List Nat) : Nat := (xs.filter (fun x => decide (x < n))).length

/-- The slice-dense number of a part-wide cluster (R3). -/
def State.denseCluster (s : State) (slice c : Nat) : Nat := countBelow c (s.sliceClusters slice)

/-- The slice-dense number of a part-wide core (R3). -/
def State.denseCore (s : State) (slice core : Nat) : Nat := s.denseCluster slice (core / 8) * 8 + core % 8

/-- The slice of a context. -/
def State.sliceOf (s : State) (ctx : Nat) : Nat := ((s.ctx? ctx).map (fun c => c.slice)).getD 0

/-- A twin's launch, access or drain leaves the part only after RELEASE (R348). -/
def State.quarantined (s : State) (ctx : Nat) : Bool := ((s.twins.find? (fun w => w.num == ctx)).map (fun w => !w.released)).getD false

/-- sr.gid of a group (R33). -/
def State.gid (s : State) (ctx : Nat) (g : Group) : Word := gidWord g.stamp (s.denseCore (s.sliceOf ctx) g.core) g.slot g.pos

/-- The die of a core (R2). -/
def dieOfCore (core : Nat) : Nat := core / 40

/-- The live lanes of a group. -/
def Group.live (g : Group) : LaneMask := maskOf (fun l => !(g.lane l).exited) g.lanes.length

/-- All eight latches invalid (R16). -/
def noLatches : List Latch := List.replicate 8 ⟨false, []⟩

/-- Every issue shifts the latches by one (R15). -/
def pushLatch (l : Latch) (ls : List Latch) : List Latch := (l :: ls).take 8

/-! ### Chains (R17, R54) -/

/-- A word of a register-only operation, majors 0x00-0x24 (R54). -/
def regOnlyWord (w : Word) : Bool := decide ((fld w 26 6).toNat ≤ 0x24) && (decodeWord w).isSome

/-- The latch numbers that a field names. -/
def latchOf (f : RegField) : List Nat := if 120 ≤ f.toNat then [f.toNat - 120] else []

/-- A word whose A field names several registers, where no latch can stand: ADD64, SUB64 and the converts of several sources (R101, R124). -/
def wideSource (w : Word) : Bool :=
  let op := (fld w 26 6).toNat
  (op = 0x14 && decide ((fld w 0 7).toNat ≤ 1)) ||
    (op = 0x24 && [0x06, 0x09, 0x0C, 0x0E, 0x10, 0x12, 0x14, 0x16].contains (fld w 0 6).toNat)

/-- The latches a register-only word reads: A and B in the three-register format, A in RX, none in RI (R54). -/
def latchReads (w : Word) : List Nat :=
  let op := (fld w 26 6).toNat
  if op = 0x16 ∨ op = 0x17 ∨ wideSource w then [] else
  if op = 0x14 ∨ op = 0x15 ∨ op = 0x23 ∨ op = 0x24 then latchOf (fld w 7 7)
  else latchOf (fld w 7 7) ++ latchOf (fld w 0 7)

/-- A word that uses a divider or the function unit, which ends a chain (R17, R100, R132). -/
def unitWord (w : Word) : Bool :=
  let op := (fld w 26 6).toNat; let x := (fld w 0 7).toNat
  (op = 0x14 && 2 ≤ x && x ≤ 5) || (op = 0x23 && (x ≤ 7 || x = 0x12 || x = 0x13))

/-- The first of the producers that the instruction at an index links to through the latches it reads, and they through theirs (R17): itself where
it reads none; none where one lies before the code, is no register-only operation, or lies more than eight links back. -/
def chainLow (code : List Word) : Nat → Nat → Option Nat
  | 0, _ => none
  | n + 1, r =>
    let w := getAt code r 0
    if !(regOnlyWord w) then none else
    (latchReads w).foldl (fun acc k => match acc with
      | some lo => if r < k + 1 then none else (chainLow code n (r - 1 - k)).map (fun p => min lo p)
      | none => none) (some r)

/-- The first producer of the chain of a latch reader, if that chain is legal (R17, R47): at most 8 long, every member register-only, and
only the last uses a divider or the function unit. -/
def legalChain (code : List Word) (r : Nat) : Option Nat :=
  if r < code.length ∧ latchReads (getAt code r 0) ≠ [] then
    match chainLow code 8 r with
    | some lo =>
      let seg := (code.drop lo).take (r + 1 - lo)
      if r + 1 - lo ≤ 8 ∧ seg.all regOnlyWord ∧ (seg.dropLast).all (fun w => !unitWord w) then some lo else none
    | none => none
  else none

/-- The legal chains that end at the instruction at index `h` or up to seven later, by first producer and last reader (R17). -/
def legalChains (code : List Word) (h : Nat) : List (Nat × Nat) :=
  (List.range 8).filterMap (fun k => (legalChain code (h + k)).map (fun lo => (lo, h + k)))

/-- The instruction at an index is a member of a legal chain (R17). -/
def inChain (code : List Word) (h : Nat) : Bool := (legalChains code h).any (fun c => decide (c.1 ≤ h))

/-- The last member of the run of overlapping legal chains that the instruction at index `e` is in, over the next `k` members. -/
def runEnd (code : List Word) : Nat → Nat → Nat
  | 0, e => e
  | k + 1, e =>
    let e' := maxOf (e :: ((legalChains code e).filter (fun c => decide (c.1 ≤ e))).map (fun c => c.2))
    if e' = e then e else runEnd code k e'

/-- The last member of the run that the instruction at index `h` heads, if it heads one (R17): a legal chain, with the legal chains
that begin before it has ended (log 85). -/
def chainFrom (code : List Word) (h : Nat) : Option Nat :=
  let cs := legalChains code h
  if cs.any (fun c => decide (c.1 < h)) then none
  else if cs.any (fun c => decide (c.1 = h)) then some (runEnd code code.length h) else none

/-! ### Traps (R217, R218, R220) -/

/-- A trap to be raised. -/
structure Trap where
  cause : Nat
  detail : Nat
  tval : Dword
deriving DecidableEq, Repr

/-- ILLEGAL_OP (R217). -/
def Trap.illegal (d : Nat) : Trap := ⟨0x01, d, 0⟩
/-- ILLEGAL_REG with the physical index (R217). -/
def Trap.reg (p : Nat) : Trap := ⟨0x02, 0, BitVec.ofNat 64 p⟩
/-- MISALIGNED (R217). -/
def Trap.misaligned (a : Nat) : Trap := ⟨0x03, 0, BitVec.ofNat 64 a⟩
/-- PAGE_FAULT (R217). -/
def Trap.page (a : Nat) (write : Bool) : Trap := ⟨0x04, if write then 1 else 0, BitVec.ofNat 64 a⟩
/-- ACCESS (R136). -/
def Trap.access (d a : Nat) : Trap := ⟨0x05, d, BitVec.ofNat 64 a⟩
/-- UNFILLED_LINE (R217). -/
def Trap.unfilled (a : Nat) : Trap := ⟨0x06, 0, BitVec.ofNat 64 a⟩
/-- LATCH_LOST (R217). -/
def Trap.latch : Trap := ⟨0x15, 0, 0⟩
/-- BAD_SCOPE (R217). -/
def Trap.badScope : Trap := ⟨0x08, 0, 0⟩

/-- sr.cause (R31). -/
def causeWord (async orphan : Bool) (level detail code : Nat) : Word :=
  BitVec.ofNat 32 ((if async then 2 ^ 31 else 0) + (if orphan then 2 ^ 30 else 0) + (level % 4) * 2 ^ 28 +
    (detail % 256) * 256 + code % 256)

/-- The first fatal trap of a launch ends it (R220): no further team is placed and its teams stop issuing. -/
def State.fatal (s : State) (launch : Nat) (r : CauseRec) : State :=
  let s := s.onLaunch launch (fun l => { l with stopped := true, fatal := some (l.fatal.getD r) })
  let all := s.teams.filter (fun t => t.launch == launch)
  let mine := all.filter (fun t => !t.ended)
  { s with teams := s.teams.map (fun t => if t.launch = launch then { t with killed := true } else t),
           held := s.held.filter (fun h => !(all.any (fun t => t.uid == h.team && !t.committed))),
           due := s.due ++ (mine.map (fun t => t.groups.map (fun g => Instr.groupEnd t.uid g.idx))).flatten }

/-- A stepped twin group has issued once more, or its step ends with a trap (R349, R350). -/
def State.stepped (s : State) (team grp : Nat) (trap : Bool) : State :=
  if s.twins.isEmpty then s else
  { s with twins := s.twins.map (fun w => match w.step with
      | some (t, g, n) => if t = team ∧ g = grp then { w with step := some (t, g, if trap then 0 else n - 1) } else w
      | none => w) }

/-- A breakpoint, watchpoint or BRK of a group waits for the arbiter (R339). -/
def State.claimed (s : State) (team grp : Nat) : Bool := s.ctxs.any (fun c => c.claims.any (fun k => k.team == team && k.grp == grp))

/-- A group whose chain a trap cuts short pauses for a claim that a member made (R339). -/
def Group.cutShort (g : Group) (held : Bool) : Wait := if g.chain.isSome && held then .claim else g.wait

/-- What a group keeps of a lapse that met a fragment while it waited: nothing once that fragment goes on or takes a trap. A fragment that handler
mode excludes raises it again (R135, R218). -/
def Group.lapseBut (g : Group) (f : LaneMask) : Option (Nat × Nat × Dword × LaneMask) :=
  match g.lapse with
  | some (c, d, v, m) => if m = f then none else some (c, d, v, m)
  | none => none

/-- Take a trap of a fragment `f` of a group (R218). `pc` is the instruction's address; for an asynchronous trap `tpc` gives
sr.tpc, and `pc` is where the fragment was about to issue. Inside a chain the whole chain's fragment takes it at the head. -/
def State.takeTrap (s : State) (team grp : Nat) (f : LaneMask) (pc : Word) (async orphan : Bool) (level : Nat)
    (tpc : Option Word) (parent : Option Word) (t : Trap) : State :=
  match s.team? team with
  | none => s
  | some tm =>
    match tm.group? grp, s.launch? tm.launch with
    | some g, some l =>
      match s.image? l.image with
      | none => s
      | some im =>
        let at_ : Word := match g.chain with | some c => c.head | none => pc
        let tp : Word := tpc.getD at_
        let held := s.claimed team grp
        let s := s.stepped team grp true
        if im.handler = 0xFFFFFFFF#32 ∨ (f &&& g.handler) ≠ 0 ∨ g.undo then
          (s.onGroup team grp (fun g => { g with chain := none })).fatal tm.launch ⟨t.cause, t.detail, tm.tlin, tp, t.tval⟩
        else if g.handler ≠ 0 then
          s.onGroup team grp (fun g => { (g.onLanes f (fun _ ln => { ln with pcv := at_ })) with
            excl := g.excl ||| f, chain := none, latches := noLatches, stall := 0, parked := [], refused := [], lineWait := [],
            bpPass := false, twinPass := false, wait := g.cutShort held })
        else
          let gid := s.gid tm.ctx g
          s.onGroup team grp (fun g => { (g.onLanes f (fun _ ln => { ln with pcv := im.handler })) with
            cause := causeWord async orphan level t.detail t.cause
            tpc := tp
            tval := t.tval
            frag := g.live &&& ~~~f
            parent := parent.getD gid
            resume := if async then at_ else tp
            handler := f
            chain := none
            stall := 0
            parked := []
            refused := []
            lineWait := []
            lapse := g.lapseBut f
            bpPass := false
            twinPass := false
            wait := g.cutShort held
            latches := noLatches })
    | _, _ => s

/-- Raise(cause): the executing fragment takes the trap precisely; the instruction changes no state (R5, R72). -/
def Issue.raise (i : Issue) (t : Trap) (s : State) : Outcome State Fault Refusal :=
  .next (s.takeTrap i.cur.team i.cur.grp i.cur.exec i.cur.pc false false 0 none none t)

/-! ### Stalling and retiring an issue -/

/-- The issue does not go out: the group records a stall reason and tries again later (R303). -/
def Issue.stall (i : Issue) (reason : Nat) (s : State) : Outcome State Fault Refusal :=
  .next (s.onGroup i.cur.team i.cur.grp (fun g => { g with stall := reason }))

/-- The addresses at which lanes wait on a mask (R114). -/
def Group.waitAddrs (g : Group) (n : Nat) : List Word :=
  (g.lanes.filter (fun l => l.waitm = some n)).map (fun l => l.pcv)

/-- The release test of a mask at one address (R114): every live member waits on the mask there. -/
def Group.maskMet (g : Group) (n : Nat) (w : Word) : Bool :=
  (List.range g.lanes.length).all (fun l =>
    !(inMask (getAt g.masks n 0) l) || (g.lane l).exited || ((g.lane l).waitm = some n && (g.lane l).pcv = w))

/-- Release the lanes that wait on a mask at an address (R114). -/
def Group.release (g : Group) (n : Nat) (w : Word) : Group :=
  { g with lanes := g.lanes.map (fun l => if l.waitm = some n ∧ l.pcv = w ∧ l.exited = false
                                          then { l with waitm := none, pcv := w + 4 } else l) }

/-- Test every mask for release, after an issue (R114). -/
def Group.testMasks (g : Group) : Group :=
  (List.range 12).foldl (fun g n => (g.waitAddrs n).foldl (fun g' w => if g.maskMet n w then g'.release n w else g') g) g

/-- Count an issue: outside a chain by one, in a chain all members when the last retires (R29, R17). -/
def Group.count (g : Group) (code : List Word) (pc : Word) : Group :=
  match g.chain with
  | some c =>
    if c.last.toNat ≤ pc.toNat then { g with ret := g.ret + BitVec.ofNat 64 (c.issued + 1), chain := none }
    else { g with chain := some { c with issued := c.issued + 1 } }
  | none =>
    match chainFrom code (pc.toNat / 4) with
    | some e => { g with chain := some ⟨pc, BitVec.ofNat 32 (4 * e), 1⟩, chpc := pc }
    | none => { g with ret := g.ret + 1 }

/-- The core cycles that pass with an issue, for sr.cyc and the watchdog; none for a twin that is stepped (R30, R304). -/
def State.cyclesOf (s : State) (ctx : Nat) : Dword :=
  if s.twins.any (fun w => w.num == ctx && w.state == .stepping) then 0 else BitVec.ofNat 64 (Config.freeCycles s.freeTick)

/-- A watchdog count after some cycles: it is raised as the count reaches its limit, so the count stops there (R304). -/
def tickDog (limit count cycles : Dword) : Dword :=
  if limit ≠ 0 ∧ count < limit ∧ limit - count ≤ cycles then limit else count + cycles

/-- Count the cycles of an issue for a core's watchdog (R304). -/
def State.tick (s : State) (core ctx : Nat) (cycles : Dword) : State :=
  let limit := ((s.ctx? ctx).map (fun c => c.wdogLimit)).getD 0
  s.onCoreCtx core ctx (fun c => { c with wdog := tickDog limit c.wdog cycles })

/-- End an issue that has completed: shift the latches, count it, apply the instruction's effect on the group, test the masks,
make the group the youngest, and after a chain pause a group whose claim is undecided (R15, R29, R114, R295, R339). `f` gives the executing lanes their new pcv. -/
def Issue.finish (i : Issue) (lt : Latch) (f : Group → Group) (s : State) : Outcome State Fault Refusal :=
  let n := s.issues
  let cycles := s.cyclesOf i.team.ctx
  let claimed := s.claimed i.cur.team i.cur.grp
  let s := s.onGroup i.cur.team i.cur.grp (fun g =>
    let g := g.count i.image.code i.cur.pc
    let g := { g with latches := pushLatch lt g.latches, lastExec := i.cur.exec, stall := 0, lapse := g.lapseBut i.cur.exec, bpPass := false,
                      twinPass := false, parked := [], refused := [], lineWait := [],
                      cyc := g.cyc + cycles, age := n + 1 }
    let g := (f g).testMasks
    if g.chain.isNone && claimed then { g with wait := .claim } else g)
  let s := s.stepped i.cur.team i.cur.grp false
  let s := s.tick i.grp.core i.team.ctx cycles
  .next { s with issues := n + 1, freeTick := s.freeTick + 1 }

/-- Every executing lane's pcv advances by 4 (R21). -/
def Issue.advance (i : Issue) (g : Group) : Group := g.onLanes i.cur.exec (fun _ l => { l with pcv := l.pcv + 4 })

/-- Retire an instruction that is not register-only: k0 is invalid and the executing lanes advance (R15, R54). -/
def Issue.retire (i : Issue) (f : Group → Group) (s : State) : Outcome State Fault Refusal :=
  i.finish ⟨false, []⟩ (fun g => f (i.advance g)) s

/-- Return from a trap in the lanes of a set (R219): to sr.tpc, or to the resume address of an asynchronous trap. -/
def Group.trapReturn (g : Group) (m : LaneMask) : Group :=
  let target : Word := if g.cause.getLsbD 31 then g.resume else g.tpc &&& ~~~(3#32)
  let left := g.handler &&& ~~~m
  { (g.onLanes m (fun _ l => { l with pcv := target })) with
    handler := left, excl := if left = 0 then 0 else g.excl, latches := noLatches }

end Sys2Proof.Machine
end

