-- ==== Sys2Proof/Machine/Mailbox.lean ====
section
/-!
DEFINITION. The mailboxes of the host's functions: control word, argument and result areas, the permission of a function, and the
answer of a command (R396, R398-R400).
-/
namespace Sys2Proof.Machine

open Host (Outcome)

/-- A mailbox after reset (R398; log 7). -/
def Mailbox.fresh (fn : Nat) : Mailbox := ⟨fn, 0, List.replicate 256 0, List.replicate 256 0⟩

/-- The mailbox of a function. -/
def State.mailbox (s : State) (fn : Nat) : Mailbox := (s.mailboxes.find? (fun m => m.fn == fn)).getD (Mailbox.fresh fn)

/-- Update the mailbox of a function. -/
def State.onMailbox (s : State) (fn : Nat) (f : Mailbox → Mailbox) : State :=
  { s with mailboxes := f (s.mailbox fn) :: s.mailboxes.filter (fun m => m.fn != fn) }

/-- BUSY of a function's mailbox (R398). -/
def State.mbBusy (s : State) (fn : Nat) : Bool := (s.mailbox fn).ctl.getLsbD 30

/-- MBCTL after a command with a status (R398, R400): BUSY clear, STATUS and OPC set, IRQ kept. -/
def mbctl (old : Word) (status opc : Nat) : Word :=
  (old &&& 0x20000000#32) ||| BitVec.ofNat 32 (status % 256 * 65536 + opc % 65536)

/-- Complete a command (R398, R400): its status, its result bytes from the start of MBRES, and the interrupt if IRQ is set. -/
def State.answer (s : State) (fn opc status : Nat) (res : List Byte) : State :=
  let s := s.onMailbox fn (fun m => { m with ctl := mbctl m.ctl status opc, res := res.take 256 ++ m.res.drop (min 256 res.length) })
  if (s.mailbox fn).ctl.getLsbD 29 then s.send (.interrupt fn) else s

/-- A command that stalls leaves BUSY set (R398, R400). -/
def State.stallCommand (s : State) (fn opc : Nat) (c : Stalled) : State :=
  { s with stalls := s.stalls ++ [c] }.onMailbox fn (fun m => { m with ctl := (m.ctl &&& 0x20000000#32) ||| 0x40000000#32 ||| BitVec.ofNat 32 (opc % 65536) })

/-- The function and code of a command that can stay owed (R398, R399; log 12). -/
def commandOf : Instr → Option (Nat × Nat)
  | .regimg fn _ _ _ => some (fn, 0x0004)
  | .restore fn _ _ _ => some (fn, 0x000E)
  | .twinEdit fn _ _ _ => some (fn, 0x000C)
  | .twinRelease fn _ => some (fn, 0x000C)
  | _ => none

/-- A command that stays owed shows BUSY (R398). -/
def State.showBusy (s : State) (i : Instr) : State :=
  match commandOf i with
  | some (fn, opc) => s.onMailbox fn (fun m => { m with ctl := (m.ctl &&& 0x20000000#32) ||| 0x40000000#32 ||| BitVec.ofNat 32 opc })
  | none => s

/-- An owed event is tried again: a command of the mailbox that is busy with it goes on. -/
def State.again (s : State) (i : Instr) : State :=
  match commandOf i with
  | some (fn, _) => s.onMailbox fn (fun m => { m with ctl := m.ctl &&& ~~~0x40000000#32 })
  | none => s

/-- A command meets a mailbox that is busy, which ignores it (R398). -/
def State.ignores (s : State) (i : Instr) : Bool := ((commandOf i).map (fun c => s.mbBusy c.1)).getD false

/-- The slice that a virtual function serves (R396). -/
def sliceOfFn (fn : Nat) : Option Nat := if fn = 0 then none else some (fn - 1)

/-- Start a command on a function (R396, R398-R400): a function that the part does not have, or a part that is down, has none; a GO
with BUSY set is ignored; a virtual function accepts only V commands about its own slice (`own`), else STATUS 0x02. -/
def hostCmd (s : State) (fn opc : Nat) (v own : Bool) (k : Outcome State Fault Refusal) : Outcome State Fault Refusal :=
  if 8 < fn || !s.up then .fault .eventCannotOccur else
  if s.mbBusy fn then .next s else
  if fn = 0 || (v && own) then k else .next (s.answer fn opc 0x02 [])

/-- A context belongs to the slice of a function; PF0 has every slice (R396, R399). -/
def State.ownCtx (s : State) (fn ctx : Nat) : Bool :=
  match sliceOfFn fn, s.ctx? ctx with
  | none, _ => true
  | some n, some c => c.slice == n
  | some _, none => false

/-- Refuse a command with no change (R400). -/
def State.refused (s : State) (fn opc : Nat) : Outcome State Fault Refusal := .next (s.answer fn opc 0x01 [])

/-- An argument lies outside its limits (R400). -/
def State.badArg (s : State) (fn opc : Nat) : Outcome State Fault Refusal := .next (s.answer fn opc 0x03 [])

/-- The target of a command is busy (R400): nothing changes. -/
def State.busyTarget (s : State) (fn opc : Nat) : Outcome State Fault Refusal := .next (s.answer fn opc 0x05 [])

/-- A command is done (R400). -/
def State.done (s : State) (fn opc : Nat) (res : List Byte) : Outcome State Fault Refusal := .next (s.answer fn opc 0x00 res)

end Sys2Proof.Machine
end

