-- ==== Sys2Proof/Machine/Operands.lean ====
section
/-!
DEFINITION. Operand forms: what each register field may name, the issue checks of R72 rows 3 to 6 over an instruction's
fields in order, and reading source fields from registers or latches (R14, R15, R53, R54, R134).
-/
namespace Sys2Proof.Machine

open Host (Outcome)

/-- A register field of an instruction with the registers it names. -/
inductive Opnd
  /-- destination of a register-only operation: `n` registers, or 127 for none (R14, R54) -/
  | dst (f : RegField) (n : Nat)
  /-- destination of another instruction: 120-127 is no instruction (R54) -/
  | dstMem (f : RegField) (n : Nat)
  /-- D that is read, or read and written: 120-127 is no instruction (R53) -/
  | rw (f : RegField) (n : Nat)
  /-- source of a register-only operation that may be a latch (R14) -/
  | src (f : RegField)
  /-- source of an instruction outside the register-only ones where 120-127 finds no valid latch (R106, R107, R125, R127, R200) -/
  | srcLost (f : RegField)
  /-- source where no latch can stand: 120-127 is no instruction (R101, R124, R134, R160, R71) -/
  | srcNoLatch (f : RegField) (n : Nat)
  /-- pair or triple that must end below 120 of the window, or it is no instruction (R71, R177, R185, R206, R230) -/
  | srcStrict (f : RegField) (n : Nat)
  /-- a D pair under the strict rule (R206, R211) -/
  | rwStrict (f : RegField) (n : Nat)
  /-- register v119 as CALL writes it (R108) -/
  | v119
deriving DecidableEq, Repr

/-- Row 3 of R72: a field value that is no instruction. -/
def Opnd.illegal : Opnd → Bool
  | .dst f _ => decide (120 ≤ f.toNat ∧ f.toNat ≠ 127)
  | .dstMem f _ => decide (120 ≤ f.toNat)
  | .rw f _ => decide (120 ≤ f.toNat)
  | .src _ => false
  | .srcLost _ => false
  | .srcNoLatch f _ => decide (120 ≤ f.toNat)
  | .srcStrict f n => decide (120 < f.toNat + n)
  | .rwStrict f n => decide (120 < f.toNat + n)
  | .v119 => false

/-- The window registers an operand names, by first register and count. -/
def Opnd.span : Opnd → Option (Nat × Nat)
  | .dst f n => if f.toNat = 127 then none else some (f.toNat, n)
  | .dstMem f n => some (f.toNat, n)
  | .rw f n => some (f.toNat, n)
  | .src f => if 120 ≤ f.toNat then none else some (f.toNat, 1)
  | .srcLost f => if 120 ≤ f.toNat then none else some (f.toNat, 1)
  | .srcNoLatch f n => some (f.toNat, n)
  | .srcStrict f n => some (f.toNat, n)
  | .rwStrict f n => some (f.toNat, n)
  | .v119 => some (119, 1)

/-- The first register of a span beyond the window or the allocation (R14): its physical index. -/
def badReg (wb regs f : Nat) : Nat → Option Nat
  | 0 => none
  | n + 1 => if 120 ≤ f ∨ regs ≤ wb + f then some (wb + f) else badReg wb regs (f + 1) n

/-- Row 4 of R72 for one operand. -/
def Opnd.bad (wb regs : Nat) (o : Opnd) : Option Nat :=
  match o.span with
  | some (f, n) => badReg wb regs f n
  | none => none

/-- Row 5 of R72: a latch that is read and is not valid, or is no latch of an active chain (R15-R17). -/
def Opnd.lost (g : Group) : Opnd → Bool
  | .src f =>
    if 120 ≤ f.toNat then
      match g.chain with
      | some c => decide (c.issued ≤ f.toNat - 120) || !(getAt g.latches (f.toNat - 120) ⟨false, []⟩).valid
      | none => true
    else false
  | .srcLost f => decide (120 ≤ f.toNat)
  | _ => false

/-- An operand that names a latch (R14). -/
def Opnd.latched : Opnd → Bool
  | .src f => decide (120 ≤ f.toNat)
  | _ => false

/-- The first register that fails row 4, over the operands in order. -/
def firstBad (wb regs : Nat) : List Opnd → Option Nat
  | [] => none
  | o :: os => match o.bad wb regs with | some p => some p | none => firstBad wb regs os

/-- The checks of R72 rows 2 to 5: `formOk` is row 2 as far as the instruction's own modifier goes. -/
def Issue.check (i : Issue) (formOk : Bool) (os : List Opnd) : Option Trap :=
  if !formOk then some (Trap.illegal 0) else
  if os.any Opnd.illegal then some (Trap.illegal 0) else
  match firstBad i.grp.wb i.image.regs os with
  | some p => some (Trap.reg p)
  | none =>
    if os.any (Opnd.lost i.grp) || (os.any Opnd.latched && (legalChain i.image.code (i.cur.pc.toNat / 4)).isNone) then some Trap.latch else none

/-- The checks of R72 rows 2 to 6, with a scope field (row 6). -/
def Issue.checkScope (i : Issue) (formOk : Bool) (os : List Opnd) (scopeOk : Bool) : Option Trap :=
  match i.check formOk os with
  | some t => some t
  | none => if scopeOk then none else some Trap.badScope

/-- Src(f, l): a register through the window, or a latch entry (R5, R14, R15). -/
def Issue.src (i : Issue) (f : RegField) (l : Nat) : Word :=
  if 120 ≤ f.toNat then getAt (getAt i.grp.latches (f.toNat - 120) ⟨false, []⟩).vals l 0
  else (i.grp.lane l).reg (i.grp.phys f.toNat)

/-- The register `k` after field `f` in a lane. -/
def Issue.regAt (i : Issue) (f : RegField) (k l : Nat) : Word := (i.grp.lane l).reg (i.grp.phys f.toNat + k)

/-- A register pair as a 64-bit value, low word first (R101, R133). -/
def Issue.pair (i : Issue) (f : RegField) (l : Nat) : Dword := i.regAt f 1 l ++ i.regAt f 0 l

/-- The registers that operands name, by physical index, for the interlock (R141). -/
def Issue.named (i : Issue) (os : List Opnd) : List (Nat × Nat) :=
  os.filterMap (fun o => o.span.map (fun p => (i.grp.wb + p.1, p.2)))

/-- The registers that a register-only word names (R54, R60, R101), for the wait of a chain's head (R17). -/
def memberOpnds (w : Word) : List Opnd :=
  let op := (fld w 26 6).toNat
  let code := (fld w 0 6).toNat
  let wide := decide (op = 0x14 ∧ (fld w 0 7).toNat ≤ 1)
  let quad := op = 0x24 && [0x0D, 0x0F, 0x11, 0x15, 0x17].contains code
  let dn := if wide || (op = 0x24 && code = 0x13) then 2 else if quad then 4 else 1
  let an := if !(wideSource w) then 1 else if wide || [0x06, 0x09, 0x12].contains code then 2 else 4
  let d := Opnd.dst (fld w 14 7) dn
  let a := if an = 1 then Opnd.src (fld w 7 7) else Opnd.srcNoLatch (fld w 7 7) an
  if op = 0x16 ∨ op = 0x17 then [d] else
  if op = 0x14 ∨ op = 0x15 ∨ op = 0x23 ∨ op = 0x24 then [d, a] else [d, a, .src (fld w 0 7)]

/-- The group's incomplete load, GATH, LDA, ATOM or ATOMS still writes one of the registers (R141). -/
def State.interlocked (s : State) (i : Issue) (os : List Opnd) : Bool :=
  s.accesses.any (fun a => a.team == i.cur.team && a.grp == i.cur.grp && a.dstN != 0 &&
    (i.named os).any (fun p => decide (p.1 < a.dst + a.dstN ∧ a.dst < p.1 + p.2)))

/-- The result of an access waits for the RELEASE of its twin (R348): a lane of it is at another part, or an atomic's in host memory. -/
def State.awaitsRelease (s : State) (a : Access) : Bool :=
  ((s.team? a.team).map (fun t => s.quarantined t.ctx)).getD false && a.kind != .store && a.kind != .packet &&
    a.lanes.any (fun x => x.loc.part != s.part || ((match a.kind with | .atomic _ _ => true | _ => false) && decide (Config.hostBase ≤ x.loc.pa)))

/-- An operand that the instruction reads. -/
def Opnd.isSource : Opnd → Bool
  | .dst _ _ => false
  | .dstMem _ _ => false
  | _ => true

/-- The stall reason of an instruction that meets the register interlock (R303): a counter at 63 comes after the waits that its operands do not
decide, and a pending line or an address wait can be met only by operands that are known. A result that a twin's release will give is an
ordering wait (R348). -/
def State.heldReason (s : State) (i : Issue) (os : List Opnd) (o : Outcome State Fault Refusal) : Nat :=
  let r := match o with
    | .next s' => ((s'.group? i.cur.team i.cur.grp).map (fun g => g.stall)).getD 0
    | _ => 0
  if s.accesses.any (fun a => a.team == i.cur.team && a.grp == i.cur.grp && s.awaitsRelease a &&
      (i.named os).any (fun p => decide (p.1 < a.dst + a.dstN ∧ a.dst < p.1 + p.2))) then 6 else
  if r = 4 ∨ r = 6 then (if s.interlocked i (os.filter Opnd.isSource) then 2 else r) else if r = 3 then 3 else 2

/-- Run a meaning in the issue in progress: the checks of R72, then the register interlock (stall reason 2, R141), then the
instruction. Without an issue there is nothing to run. -/
def issued (s : State) (formOk : Bool) (os : Issue → List Opnd) (scopeOk : Bool)
    (k : Issue → Outcome State Fault Refusal) : Outcome State Fault Refusal :=
  match s.issue? with
  | none => .fault .noIssue
  | some i =>
    match i.checkScope formOk (os i) scopeOk with
    | some t => i.raise t s
    | none => if s.interlocked i (os i) then i.stall (s.heldReason i (os i) (k i)) s else k i

/-- Complete a register-only operation (R15, R96, R118): in each lane where it takes effect write its words to D upward unless
D is 127; k0 gets the first word there, elsewhere the old D, or is invalid for the divider and function unit. -/
def regOnly (i : Issue) (eff : LaneMask) (d : RegField) (latched : Bool) (val : Nat → List Word) (s : State) :
    Outcome State Fault Refusal :=
  let none_ := d.toNat = 127
  let old := fun l => if none_ then (0 : Word) else (i.grp.lane l).reg (i.grp.phys d.toNat)
  let k0 := (List.range i.width).map (fun l => if inMask eff l then getAt (val l) 0 0 else old l)
  i.finish ⟨latched, if latched then k0 else []⟩
    (fun g => let g := i.advance g; if none_ then g else g.writeRegs d.toNat eff val) s

end Sys2Proof.Machine
end

