-- ==== Sys2Proof/Machine/Translate.lean ====
section
/-!
DEFINITION. Translation of global addresses: the walk, what a leaf allows, host windows, and the parking of a replayable
fault (R272-R274).
-/
namespace Sys2Proof.Machine

open Host (Cell)

/-- What an access does to a page, for its permissions (R272, R273). -/
inductive Use
  | read | write | atomic
deriving DecidableEq, Repr

/-- What a walk answers (R273). -/
inductive Xlate
  | ok (l : Loc)
  | fault
  | replay
  | deny
deriving DecidableEq, Repr

/-- What a walk ends at: a leaf with the bytes it maps, a fault, or an entry that the host can supply. -/
inductive Walk
  | leaf (e : Dword) (page : Nat)
  | fault
  | replay
deriving DecidableEq, Repr

/-- The levels: lowest index bit, entries, bytes a leaf maps; 0 where a leaf cannot stand (R272). -/
def walkLevels : List (Nat × Nat × Nat) :=
  [(48, 512, 0), (39, 512, 0), (30, 512, 2 ^ 30), (21, 512, 2 ^ 21), (16, 32, 2 ^ 16)]

/-- ADDR of a table entry, as a physical address (R272). -/
def entryAddr (e : Dword) : Nat := (e.extractLsb' 12 40).toNat * 4096

/-- The walk from a table base over the remaining levels (R272, R273). -/
def walk (mem : List Cell) (va : Nat) : Nat → List (Nat × Nat × Nat) → Walk
  | _, [] => .fault
  | base, (sh, n, page) :: rest =>
    let e : Dword := BitVec.ofNat 64 (leNat (Memory.read mem (base + 8 * (va / 2 ^ sh % n)) 8))
    if !(e.getLsbD 0) then (if e.getLsbD 2 then .replay else .fault) else
    if e.extractLsb' 8 4 != 0 then .fault else
    if e.getLsbD 1 then
      if page = 0 then .fault else if entryAddr e % page = 0 then .leaf e page else .fault
    else walk mem va (entryAddr e) rest

/-- Bits [63:57] equal bit 56 (R272). -/
def canonical (va : Dword) : Bool := (va.extractLsb' 56 8) == 0#8 || (va.extractLsb' 56 8) == 0xFF#8

/-- A physical address of host memory lies in a window that the host has mapped (R272, R397). -/
def State.windowed (s : State) (pa : Nat) : Bool :=
  s.windows.any (fun w => decide (w.2.1 ≤ pa ∧ pa < w.2.1 + w.2.2))

/-- The stacks of a context's slice (R280). -/
def State.sliceStacks (s : State) (ctx : Nat) : BitVec 16 :=
  ((s.slices.find? (fun r => r.1 == s.sliceOf ctx)).map (fun r => r.2.stackSet)).getD 0

/-- Translate an address for a context and a use (R272, R273). -/
def State.translate (s : State) (ctx : Nat) (va : Dword) (u : Use) : Xlate :=
  if !canonical va then .fault else
  match s.ctx? ctx with
  | none => .fault
  | some c =>
    match walk s.mem va.toNat c.base walkLevels with
    | .fault => .fault
    | .replay => .replay
    | .leaf e page =>
      let part := (e.extractLsb' 52 12).toNat
      let pa := entryAddr e + va.toNat % page
      let r := e.getLsbD 3
      let w := e.getLsbD 4
      let allowed := match u with | .read => r | .write => w | .atomic => r && w
      let reach := if part = s.part then
          (if pa < Config.hostBase then (s.sliceStacks ctx).getLsbD (pa / 2 ^ 36) else s.windowed pa) else true
      if allowed && reach then
        .ok ⟨part, pa, e.getLsbD 5, e.getLsbD 6, if e.getLsbD 7 then some pa else none, w⟩
      else .deny

/-- The 64 KiB page of an address, by which faults are recorded and answered (R274). -/
def pageOf (va : Dword) : Nat := va.toNat / 65536 * 65536

/-- Record a replayable fault unless one of the same context and page is outstanding (R274): kind 0 a read, 1 a write, 2 an
atomic. -/
def State.recordFault (s : State) (ctx page : Nat) (u : Use) : State :=
  if s.faultq.any (fun r => r.ctx == ctx && r.page == page) then s else
    let r : FaultRec := ⟨ctx, page, match u with | .read => 0 | .write => 1 | .atomic => 2⟩
    { s with faultq := r :: s.faultq }.send (.fault r)

/-- A metered region holds a physical address (R391). -/
def Meter.holds (m : Meter) (pa : Nat) : Bool := (regionOff m.base (m.pages * 65536) m.moves pa).isSome

/-- The metered region that holds a physical address (R391). -/
def State.meter? (s : State) (pa : Nat) : Option Meter := s.meters.find? (fun m => !m.closed && m.holds pa)

/-- The tap refuses a read of a metered page by a launch whose measurement the region does not list (R391). -/
def State.meterRefuses (s : State) (l : Loc) (meas : List Byte) : Bool :=
  l.met && l.part == s.part && (match s.meter? l.pa with | some m => !(m.allow.contains meas) | none => true)

end Sys2Proof.Machine
end

