-- ==== Sys2Proof/Machine/Home.lean ====
section
/-!
DEFINITION. Background budgets (R298, R299), and the homes of memory lines: the twin's view and its cuts, held lines and their release, poison, write-combining
entries and their drains, requests to other parts, and remote-scope promotion (R142, R241-R245, R269, R339-R348, R363-R368).
-/
namespace Sys2Proof.Machine

open Host (Cell)

/-! ### Background budgets (R298, R299) -/

/-- The budget of an activity at reset (R298): EN with the units of the table. -/
def budgetReset (n : Nat) : Word :=
  BitVec.ofNat 32 (2 ^ 31 + getAt [16384, 8192, 4096, 4096, 32768, 65536, 2048] n 0)

/-- BGBUDn of a die. -/
def State.bgbudOf (s : State) (n die : Nat) : Word :=
  ((s.bgbud.find? (fun x => x.1 == n && x.2.1 == die)).map (fun x => x.2.2)).getD (budgetReset n)

/-- The use of a budget in the die's period. -/
def State.bguseOf (s : State) (n die : Nat) : Nat :=
  ((s.bguse.find? (fun x => x.1 == n && x.2.1 == die)).map (fun x => x.2.2)).getD 0

/-- An activity pauses (R298, R299): EN is 0, or the use has reached the budget. -/
def State.spent (s : State) (n die : Nat) : Bool :=
  !((s.bgbudOf n die).getLsbD 31) || decide ((s.bgbudOf n die).toNat % 2 ^ 24 ≤ s.bguseOf n die)

/-- Count units of an activity (R298). -/
def State.countUse (s : State) (n die k : Nat) : State :=
  { s with bguse := (n, die, s.bguseOf n die + k) :: s.bguse.filter (fun x => !(x.1 == n && x.2.1 == die)) }

/-! ### Areas of HBM that no translation reaches (R282, R294, R313, R338) -/

/-- Frames of a stack. -/
def framesPerStack : Nat := 2 ^ 20

/-- Frames of a stack that hold the placement log, 2^20 records of 32 bytes (R382): of the two stacks of die 0 it is stack 0 (log 114). -/
def logFrames (stack : Nat) : Nat := if stack = 0 then 512 else 0

/-- Frames that a context's overlay reserves in a stack (R338). -/
def Ctx.reserves (c : Ctx) : Nat := if c.twinctl.getLsbD 31 then 16 * (fld c.twinctl 0 13).toNat else 0

/-- Frames in the clean pool of a stack that are not reserved (R282, R338). -/
def State.cleanCount (s : State) (stack : Nat) : Nat :=
  framesPerStack - logFrames stack - (s.frames.filter (fun f => f.1 / framesPerStack == stack)).length -
    sumOf ((s.areas.filter (fun a => a.stack == stack)).map (fun a => a.frames)) -
    sumOf ((s.scrubAreas.filter (fun a => a.1 == stack)).map (fun a => a.2)) -
    sumOf ((s.ctxs.filter (fun c => (s.sliceStacks c.num).getLsbD stack)).map Ctx.reserves)

/-- Take an area of some frames from the clean pool of the first of some stacks that has as many. -/
def State.drawArea (s : State) (kind : AreaKind) (ctx n : Nat) : List Nat → Option State
  | [] => none
  | k :: ks => if n ≤ s.cleanCount k then some { s with areas := s.areas ++ [⟨kind, ctx, k, n⟩] } else s.drawArea kind ctx n ks

/-- Give areas back: their frames join the scrub queues of their stacks (R282, R313). -/
def State.freeAreas (s : State) (p : Area → Bool) : State :=
  { s with areas := s.areas.filter (fun a => !(p a)), scrubAreas := s.scrubAreas ++ (s.areas.filter p).map (fun a => (a.stack, a.frames)) }

/-- A context has its save area of 16 MiB for a core, in a stack of the core's die, drawn when it has none yet (R313). None waits for the clean pools.
Which stack is the model's (log 62). -/
def State.saveArea (s : State) (ctx core : Nat) : Option State :=
  if s.areas.any (fun a => a.kind == .save core && a.ctx == ctx) then some s
  else s.drawArea (.save core) ctx 256 [2 * dieOfCore core, 2 * dieOfCore core + 1]

/-! ### What engines and matrix work write (R167, R187) -/

/-- Bytes that an engine lands in a scratchpad: a line covered wholly becomes present (R187). -/
def Team.landBytes (t : Team) (off : Nat) (bs : List Byte) : Team :=
  { t with scratch := Memory.write t.scratch off bs
           bad := t.bad.filter (fun l => !(decide (off ≤ l * 256 ∧ l * 256 + 256 ≤ off + bs.length)))
           absent := t.absent.filter (fun a => !(decide (off ≤ a.line * 256 ∧ a.line * 256 + 256 ≤ off + bs.length))) }

/-- The writes of matrix work of a group that has been issued take effect (R167, R258): at its completion, or earlier. -/
def State.landWorks (s : State) (team grp : Nat) : State :=
  let mine := s.works.filter (fun w => w.team == team && w.grp == grp)
  { s.onTeam team (fun t => ((mine.map (fun w => w.writes)).flatten).foldl (fun t x => t.landBytes x.1 x.2) t) with
    works := s.works.map (fun w => if w.team = team ∧ w.grp = grp then { w with writes := [] } else w) }

/-! ### Homes and twins -/

/-- The compute die that is the home of a physical address of this part (R267). -/
def homeDie (a : Nat) : Nat := a / 2 ^ 37 % 8

/-- The twin whose context number this is. -/
def State.twinNum? (s : State) (ctx : Nat) : Option Twin := s.twins.find? (fun w => w.num == ctx)

/-- The twin of a context. -/
def State.twinOf? (s : State) (ctx : Nat) : Option Twin := s.twins.find? (fun w => w.orig == ctx)

/-- Update one twin, by its number. -/
def State.onTwin (s : State) (num : Nat) (f : Twin → Twin) : State :=
  { s with twins := s.twins.map (fun w => if w.num = num then f w else w) }

/-- The frames of a reservation for overlay return to the scrub queues of the slice's stacks (R338). -/
def State.unreserveOverlay (s : State) (ctx n : Nat) : State :=
  if n = 0 then s else { s with scrubAreas := s.scrubAreas ++
    ((List.range 16).filter (fun k => (s.sliceStacks ctx).getLsbD k)).map (fun k => (k, n)) }

/-- One twin goes (R351): its groups, accesses, entries, requests, save areas, overlay, quarantine and number, what a rival has reserved for a twin of its own, and
what it has in the queues of migrating pages. -/
def State.discardOne (s : State) (num : Nat) : State :=
  let s := (s.unreserveOverlay num (((s.ctx? num).map Ctx.reserves).getD 0)).freeAreas (fun a => a.ctx == num)
  let left := s.cores.filter (fun c => c.active == some num || c.shadow == some num)
  let mine := fun (u : Nat) => s.teams.any (fun t => t.uid == u && t.ctx == num)
  { s with
    accesses := s.accesses.filter (fun a => !(mine a.team))
    wc := s.wc.filter (fun e => e.ctx != num)
    heldOut := s.heldOut.filter (fun e => e.ctx != num)
    reqs := s.reqs.filter (fun r => !(mine r.team) && r.pkt.ctx != num)
    held := s.held.filter (fun h => h.ctx != num)
    copies := s.copies.filter (fun c => !(mine c.team))
    sends := s.sends.filter (fun c => !(mine c.team))
    works := s.works.filter (fun c => !(mine c.team))
    tileops := s.tileops.filter (fun c => !(mine c.team))
    slips := s.slips.filter (fun c => !(mine c.team))
    accessions := s.accessions.filter (fun c => !(mine c.team))
    colls := s.colls.filter (fun c => !(mine c.team))
    teams := s.teams.filter (fun t => t.ctx != num)
    launches := s.launches.filter (fun l => l.ctx != num)
    ctxs := s.ctxs.filter (fun c => c.num != num)
    coreCtxs := s.coreCtxs.filter (fun c => c.ctx != num)
    cores := s.cores.map (fun c => { c with active := if c.active = some num then none else c.active,
                                            shadow := if c.shadow = some num then none else c.shadow })
    due := s.due ++ left.map (fun c => if c.shadow.isSome && c.shadow != some num then Instr.swap c.core else .restoreComplete c.core)
    migrations := s.migrations.map (fun (m : Migration) => { m with queued := m.queued.filter (fun q => match q with
      | .put ctx _ => ctx != num
      | .entry e => e.ctx != num
      | .access id => !(s.accesses.any (fun a => a.id == id && mine a.team))
      | _ => true) })
    twins := s.twins.filter (fun w => w.num != num) }

/-- The twins that a rival has under it, the last first (R351). -/
def State.twinsBelow (s : State) : Nat → Nat → List Nat
  | 0, _ => []
  | n + 1, num => match s.twinOf? num with | some w => s.twinsBelow n w.num ++ [w.num] | none => []

/-- DISCARD of a twin (R351), with a twin that it has as a rival. -/
def State.discardTwin (s : State) (num : Nat) : State := (s.twinsBelow 64 num ++ [num]).foldl State.discardOne s

/-- Update a launch by an event of a core, and its copy in a twin that is still to capture that core (R340). -/
def State.onLaunchAt (s : State) (core uid : Nat) (f : Launch → Launch) : State :=
  let s := s.onLaunch uid f
  match (s.launch? uid).bind (fun l => s.twinOf? l.ctx) with
  | some w =>
    if w.state == TwinState.cutting && !(w.cutCores.contains core) then
      match w.launches.find? (fun p => p.1 == uid) with
      | some p => s.onLaunch p.2 f
      | none => s
    else s
  | none => s

/-! ### Overlay (R342, R346, R347) -/

/-- The cells of one 256-byte line. -/
def lineCells (m : List Cell) (line : Nat) : List Cell := m.filter (fun c => c.1 / 256 == line)

/-- A line in the view of a context: a rival, whose twin this is for, has its own (R346, R351). -/
def State.viewLine (s : State) (ctx line : Nat) : List Cell :=
  match (s.twinNum? ctx).bind (fun w => w.overlay.find? (fun o => o.line == line)) with
  | some o => o.cells
  | none => lineCells s.mem line

/-- Lines of overlay that TWINCTL.OVLSZ gives a stack (R338). -/
def Ctx.overlayLines (c : Ctx) : Nat := (fld c.twinctl 0 13).toNat * 4096

/-- Give a line of a twin's view an overlay entry with the line's present contents (R342, R346). With the stack's overlay full,
OVF = 0 discards the twin and tells the host, and OVF = 1 makes the write wait (R347). The copy counts on budget 4 (R298). -/
def State.addOverlay (s : State) (w : Twin) (line : Nat) : Option State :=
  if w.overlay.any (fun o => o.line == line) then some s else
  let stack := line * 256 / 2 ^ 36
  let room := ((s.ctx? w.orig).map (fun c => c.overlayLines)).getD 0
  if (w.overlay.filter (fun o => o.line * 256 / 2 ^ 36 == stack)).length < room then
    some ((s.onTwin w.num (fun w => { w with overlay := ⟨line, s.viewLine w.orig line⟩ :: w.overlay })).countUse 4 stack 1)
  else if ((s.ctx? w.orig).map (fun c => c.twinctl.getLsbD 30)).getD false then none
  else some ((s.discardTwin w.num).send (.overflow w.orig stack))

/-- Copy-old-on-write before a line is written, for every twin whose home there has cut (R342). -/
def State.copyOld (s : State) (a : Nat) : List Twin → Option State
  | [] => some s
  | w :: ws =>
    if a < Config.hostBase ∧ homeDie a ∈ w.cutHomes then
      match s.addOverlay w (a / 256) with
      | some s' => s'.copyOld a ws
      | none => none
    else s.copyOld a ws

/-- A byte of memory in a context's view: a twin reads its overlay entry where one exists (R342, R346), and the twin of a rival else what the rival reads
(R351). -/
def State.viewByte (s : State) (ctx a : Nat) : Byte :=
  if Config.hostBase ≤ a then Memory.get s.mem a else
  let at_ := fun (w : Twin) => w.overlay.find? (fun o => o.line == a / 256)
  match s.twinNum? ctx with
  | some w =>
    match (at_ w).orElse (fun _ => (s.twinNum? w.orig).bind at_) with
    | some o => Memory.get o.cells a
    | none => Memory.get s.mem a
  | none => Memory.get s.mem a

/-- Write cells in a context's view, a line that needs copying first; none means that the write must wait (R342, R346). Host memory has no
overlay (R342), a twin that its own write discards writes nothing (R347, R351), and a rival's write copies for a twin of its own. -/
def State.putCells (s : State) (ctx : Nat) : List Cell → Option State
  | [] => some s
  | (a, b) :: cs =>
    match s.twinNum? ctx with
    | some w =>
      if Config.hostBase ≤ a then { s with mem := Memory.set s.mem a b }.putCells ctx cs else
      match (s.copyOld a (s.twins.filter (fun v => v.orig == ctx))).bind (fun (s : State) => s.addOverlay w (a / 256)) with
      | some s' =>
        if (s'.twinNum? ctx).isNone then some s' else
        (s'.onTwin ctx (fun w => { w with overlay := w.overlay.map (fun o =>
          if o.line = a / 256 then { o with cells := Memory.set o.cells a b } else o) })).putCells ctx cs
      | none => none
    | none =>
      match s.copyOld a s.twins with
      | some s' => { s' with mem := Memory.set s'.mem a b }.putCells ctx cs
      | none => none

/-- Bytes at an address upward, as cells. -/
def cellsAt (a : Nat) : List Byte → List Cell
  | [] => []
  | b :: bs => (a, b) :: cellsAt (a + 1) bs

/-- A sector that is written whole loses its poison (R271). -/
def State.unpoison (s : State) (cells : List Cell) : State :=
  if s.poison.isEmpty then s else
  { s with poison := s.poison.filter (fun p => !((List.range 32).all (fun i => (cellAt (p * 32 + i) cells).isSome))) }

/-- Write cells at their homes for a context, in one step (R241), clearing the poison of whole sectors (R271). -/
def State.putHome (s : State) (ctx : Nat) (cells : List Cell) : Option State :=
  (s.putCells ctx cells).map (fun s => s.unpoison cells)

/-- Some byte lies in a poisoned sector (R271). -/
def State.poisoned (s : State) (a n : Nat) : Bool := s.poison.any (fun p => decide (p * 32 < a + n ∧ a < p * 32 + 32))

/-! ### Regions and migration (R276, R277) -/

/-- The offset in a publishable region of a physical address of its first half, which its leaves name (R276). -/
def PubRegion.off? (p : PubRegion) (a : Nat) : Option Nat := regionOff p.pa p.bytes p.moves a

/-- The physical address of an offset of a region, in its second half or its first (R276). -/
def PubRegion.half (p : PubRegion) (second : Bool) (off : Nat) : Nat := if second then p.pa + p.bytes + off else regionAt p.pa p.moves off

/-- The publishable region of a physical address of a first half, and the offset there (R276). -/
def State.pubAt? (s : State) (a : Nat) : Option (PubRegion × Nat) := s.pubs.findSome? (fun p => (p.off? a).map (fun off => (p, off)))

/-- The physical address that the selector of a publishable region gives (R276). -/
def State.eff (s : State) (a : Nat) : Nat :=
  match s.pubAt? a with
  | some (p, off) => p.half p.sel off
  | none => a

/-- The migration of the page that holds a physical address (R277). -/
def State.migration? (s : State) (a : Nat) : Option Migration :=
  s.migrations.find? (fun m => decide (m.oldPa ≤ a ∧ a < m.oldPa + m.bytes))

/-- The address at the current home of the page (R277): the new one from the flip of the translation on. -/
def State.moved (s : State) (a : Nat) : Nat :=
  match s.migration? a with
  | some m => if m.state = .drain then a - m.oldPa + m.newPa else a
  | none => a

/-- The byte address at which an access takes effect. -/
def State.place (s : State) (a : Nat) : Nat := s.moved (s.eff a)

/-- The selector of a publishable region, and whether its background copy runs, in a context's view: a twin keeps those that the homes had
at their cuts, and changes its own (R276, R342, R346). -/
def State.selOf (s : State) (ctx : Nat) (p : PubRegion) : Bool × Bool :=
  match s.twinNum? ctx with
  | some w => ((w.sels.find? (fun x => x.1 == p.pa)).map (fun x => x.2)).getD (p.sel, p.copying)
  | none => (p.sel, p.copying)

/-- Set them in a context's view. -/
def State.setSel (s : State) (ctx : Nat) (p : PubRegion) (sel copying : Bool) : State :=
  match s.twinNum? ctx with
  | some w => s.onTwin w.num (fun w => { w with sels := (p.pa, sel, copying) :: w.sels.filter (fun x => x.1 != p.pa) })
  | none => { s with pubs := s.pubs.map (fun (q : PubRegion) => if q.pa = p.pa then { q with sel := sel, copying := copying } else q) }

/-- The physical address that the selector of a publishable region gives in a context's view (R276, R342, R346). -/
def State.effFor (s : State) (ctx a : Nat) : Nat :=
  match s.pubAt? a with
  | some (p, off) => p.half (s.selOf ctx p).1 off
  | none => a

/-- The byte address at which an access of a context takes effect. -/
def State.placeFor (s : State) (ctx a : Nat) : Nat := s.moved (s.effFor ctx a)

/-- The migration whose queue an access to a physical address joins (R277): from FREEZE on at the old address, and in DRAIN at the new
one, to which the translation has been flipped. -/
def State.queueing? (s : State) (a : Nat) : Option Migration :=
  s.migrations.find? (fun m => (m.state != .copy && decide (m.oldPa ≤ a ∧ a < m.oldPa + m.bytes)) ||
    (m.state == .drain && decide (m.newPa ≤ a ∧ a < m.newPa + m.bytes)))

/-- A store or atomic in COPY logs its line dirty (R277). -/
def State.logDirty (s : State) (a : Nat) : State :=
  { s with migrations := s.migrations.map (fun m =>
      if m.state = .copy ∧ m.oldPa ≤ a ∧ a < m.oldPa + m.bytes then { m with dirty := addOnce (a / 256) m.dirty } else m) }

/-- What the part or the host writes to some addresses of one page is queued behind the earlier arrivals when the page is in FREEZE or
DRAIN (R277, R278). -/
def State.queuePut (s : State) (ctx : Nat) (cells : List Cell) : Option State :=
  match (cells.head?).bind (fun c => s.queueing? c.1) with
  | some m => some { s with migrations := s.migrations.map (fun (k : Migration) => if k.id = m.id then { k with queued := k.queued ++ [.put ctx cells] } else k) }
  | none => none

/-- Write cells at their current homes for a context, in their turn (R278), logged for a migration (R277). None waits. -/
def State.putQueued (s : State) (ctx : Nat) (cells : List Cell) : Option State :=
  match s.queuePut ctx cells with
  | some s => some s
  | none => (cells.foldl (fun s c => s.logDirty c.1) s).putHome ctx (cells.map (fun c => (s.moved c.1, c.2)))

/-- Join the queue of a migrating page with something that arrives, unless it is the head of the queue in DRAIN (R277, R278): `some true`
when it has joined now, `some false` when it waits on. -/
def State.joinQueue (s : State) (q : Queued) (a : Nat) : Option (State × Bool) :=
  match s.queueing? a with
  | none => none
  | some m =>
    if m.queued.contains q then (if m.state = .drain ∧ m.queued.head? = some q then none else some (s, false))
    else some ({ s with migrations := s.migrations.map (fun (k : Migration) => if k.id = m.id then { k with queued := k.queued ++ [q] } else k) }, true)

/-! ### Held lines (R142, R242, R269) -/

/-- A team holds its stores: it has not committed (R142, R242). Teams of a boosted launch start committed (R229). -/
def State.holds (s : State) (team : Nat) : Bool :=
  match s.team? team with
  | some t => !t.committed
  | none => false

/-- The slices that have clusters on a die, ascending (R280). -/
def State.dieOwners (s : State) (die : Nat) : List Nat :=
  (List.range 8).filter (fun (n : Nat) => (s.sliceClusters n).any (fun c => c / 5 == die))

/-- The ways that the owner of a place among some owners gets (R280). -/
def waysOf (owners : List Nat) (slice : Nat) : Nat :=
  if owners.contains slice then 16 / owners.length + (if owners.head? = some slice then 16 % owners.length else 0) else 0

/-- The ways of a die cache that a slice owns (R280): none on a die where it has no cluster. -/
def State.sliceWays (s : State) (slice die : Nat) : Nat := waysOf (s.dieOwners die) slice

/-- The ways below those that a slice owns: they lie in the order of the slices (log 67). -/
def State.waysBelow (s : State) (slice die : Nat) : Nat :=
  sumOf (((s.dieOwners die).filter (fun n => decide (n < slice))).map (fun n => s.sliceWays n die))

/-- The held copies in the ways of the die caches, as team, context and line: those that hold bytes, and those that issued stores will
make. Saved and displaced ones take no way (R294, R313). -/
def State.heldCopies (s : State) : List (Nat × Nat × Nat) :=
  (s.held.filter (fun h => h.place == .way)).map (fun h => (h.team, h.ctx, h.line)) ++
  ((s.teams.filter (fun t => !t.committed)).map (fun t =>
    ((t.quota.filter (fun q => q / 2 ^ 44 == s.part && !(s.held.any (fun h => h.team == t.uid && h.line == q % 2 ^ 44)))).map
      (fun q => (t.uid, t.ctx, q % 2 ^ 44))))).flatten

/-- Two lines share a set of their die's cache (R267). -/
def sameSet (a b : Nat) : Bool := homeDie (a * 256) == homeDie (b * 256) && Config.dieCacheSet a == Config.dieCacheSet b

/-- The held copies that stand in the set of a line. -/
def State.copiesIn (s : State) (line : Nat) : List (Nat × Nat × Nat) := s.heldCopies.filter (fun h => sameSet h.2.2 line)

/-- How many ways of the set of a line may hold a slice's copies: floor(3w / 4) of the w that it owns (R269). -/
def State.heldBound (s : State) (slice line : Nat) : Nat := 3 * s.sliceWays slice (homeDie (line * 256)) / 4

/-- The ways of a slice in the set of a line that its copies occupy, and those in which copies of another slice still stand that owned them before a change of
the slice table (R281; log 67). -/
def State.waysUsed (s : State) (slice line : Nat) : Nat × Nat :=
  let of := fun (n : Nat) => ((s.copiesIn line).filter (fun h => s.sliceOf h.2.1 == n)).length
  (of slice, sumOf (((List.range 8).filter (fun n => n != slice)).map (fun n => of n - s.sliceWays n (homeDie (line * 256)))))

/-- A slice has a way for one more held copy of a line (R269, R280, R281). -/
def State.wayFree (s : State) (slice line : Nat) : Bool :=
  let u := s.waysUsed slice line
  decide (u.1 < s.heldBound slice line ∧ u.1 + u.2 < s.sliceWays slice (homeDie (line * 256)))

/-- The held copies in the set of a line have the ways that they may have. -/
def State.waysHold (s : State) (slice line : Nat) : Bool :=
  let u := s.waysUsed slice line
  decide (u.1 ≤ s.heldBound slice line ∧ u.1 + u.2 ≤ s.sliceWays slice (homeDie (line * 256)))

/-- Merge cells into a team's held line. -/
def State.hold (s : State) (team ctx : Nat) : List Cell → State
  | [] => s
  | (a, b) :: cs =>
    let line := a / 256
    let s := if s.held.any (fun (h : HeldLine) => h.team == team && h.line == line) then
        { s with held := s.held.map (fun (h : HeldLine) => if h.team = team ∧ h.line = line then { h with cells := cellPut a b h.cells } else h) }
      else { s with held := s.held ++ [HeldLine.mk team line [(a, b)] ctx .way] }
    s.hold team ctx cs

/-- A store performed at the home: into the held line of a team that has not committed, else into the line (R241, R242). -/
def State.storeHome (s : State) (team ctx : Nat) (cells : List Cell) : Option State :=
  let s := cells.foldl (fun s c => s.logDirty c.1) s
  if s.holds team then some (s.hold team ctx cells) else s.putHome ctx cells

/-- Release held lines, each in one step at its home (R269); a twin that such a step discards has none left (R347, R351). -/
def State.releaseLines (s : State) : List HeldLine → Option State
  | [] => some s
  | h :: hs =>
    if !(s.held.any (fun k => k.team == h.team && k.line == h.line)) then s.releaseLines hs else
    match s.putHome h.ctx h.cells with
    | some s' => { s' with held := s'.held.filter (fun k => !(k.team == h.team && k.line == h.line)) }.releaseLines hs
    | none => none

/-- Release every held line of a team. -/
def State.releaseTeam (s : State) (team : Nat) : Option State :=
  s.releaseLines (s.held.filter (fun h => h.team == team))

/-! ### What a team reads (R241, R269, R367) -/

/-- A byte as a team on a core reads it: its write-combining entry, its held line, then its context's view. -/
def State.teamByte (s : State) (team ctx core a : Nat) : Byte :=
  match (s.wc.filter (fun e => e.core == core && e.team == team && e.part == s.part)).findSome? (fun e => cellAt a e.cells) with
  | some b => b
  | none =>
    let p := s.placeFor ctx a
    match (s.held.filter (fun h => h.team == team)).findSome? (fun h => cellAt p h.cells) with
    | some b => b
    | none => s.viewByte ctx p

/-- Bytes as a team on a core reads them. -/
def State.teamRead (s : State) (team ctx core a : Nat) : Nat → List Byte
  | 0 => []
  | n + 1 => s.teamByte team ctx core a :: s.teamRead team ctx core (a + 1) n

/-- Bytes of a context's view at their homes, without any team's held bytes (R242). -/
def State.viewRead (s : State) (ctx a : Nat) : Nat → List Byte
  | 0 => []
  | n + 1 => s.viewByte ctx (s.placeFor ctx a) :: s.viewRead ctx (a + 1) n

/-- A team on a core would read a poisoned byte (R271): one of a poisoned sector that neither its entry nor its held line supplies. -/
def State.poisonedFor (s : State) (team ctx core a n : Nat) : Bool :=
  s.poisoned (s.placeFor ctx a) n && (List.range n).any (fun k =>
    s.poisoned (s.placeFor ctx (a + k)) 1 &&
    ((s.wc.filter (fun e => e.core == core && e.team == team && e.part == s.part)).findSome? (fun e => cellAt (a + k) e.cells)).isNone &&
    ((s.held.filter (fun h => h.team == team)).findSome? (fun h => cellAt (s.placeFor ctx (a + k)) h.cells)).isNone)

/-! ### The cut (R340-R343) -/

/-- A home takes its cut (R341): the held copies and the selectors that the twin keeps are those of this moment, and a background copy that
runs goes on in both views (R195, R342, R343, R346). -/
def State.cutHome (s : State) (num die : Nat) : State :=
  if ((s.twinNum? num).map (fun w => w.cutHomes.contains die)).getD true then s else
  let here := s.pubs.filter (fun p => homeDie p.pa == die)
  ({ s with due := s.due ++ (here.filter (fun p => (s.selOf (((s.twinNum? num).map (fun w => w.orig)).getD num) p).2)).map (fun p => Instr.publishBackgroundCopy num p.va) } : State).onTwin num (fun w =>
    { w with cutHomes := die :: w.cutHomes, sels := w.sels ++ here.map (fun p => (p.pa, s.selOf w.orig p))
             snap := w.snap ++ s.held.filter (fun h => h.ctx == w.orig && homeDie (h.line * 256) == die) })

/-- A twin's copy of a group at the cut (R340): latches invalid, no claim pending, and a parked group repeats its checks. -/
def Group.captured (g : Group) : Group :=
  { g with latches := noLatches, chain := none, wait := if g.wait = .claim then .none else g.wait, stall := 0, parked := [],
           passed := 0, bpPass := false, twinPass := false }

/-- The completion an access is owed. -/
def Access.event (a : Access) : Instr :=
  match a.kind with
  | .load => .loadCompletion a.id
  | .acquire _ => .loadCompletion a.id
  | .atomic _ _ => .atomCompletion a.id
  | .store => .storeCompletion a.id
  | .release _ => .storeCompletion a.id
  | .await _ => .awaitCompletion a.team a.grp
  | .done 0 => .loadCompletion a.id
  | .done 1 => .storeCompletion a.id
  | .done _ => .atomCompletion a.id
  | .packet => .atomCompletion a.id

/-- Copy a team's outstanding accesses for the twin's team (R343). -/
def State.copyAccesses (s : State) (num old new : Nat) : List Access → State
  | [] => s
  | a :: as =>
    if a.team = old ∧ a.kind ≠ .packet then
      let a' := { a with id := s.nextId, team := new, waiting := false, got := [], marked := false }
      ({ s with nextId := s.nextId + 1, accesses := s.accesses ++ [a'] }.owe a'.event).onTwin num
        (fun w => { w with pairs := (a.id, a'.id) :: w.pairs }) |>.copyAccesses num old new as
    else s.copyAccesses num old new as

/-- Copy a team's write-combining entries, and its stores already sent to other parts, for the twin's team (R343). -/
def State.copyEntries (s : State) (num old new : Nat) : List WcEntry → State
  | [] => s
  | e :: es =>
    if e.team = old then
      let e' := { e with id := s.nextId, team := new, ctx := num, marked := false }
      ({ s with nextId := s.nextId + 1, wc := s.wc ++ [e'] }.owe (.wcAgeExpiry e'.id)).onTwin num
        (fun w => { w with pairs := (e.id, e'.id) :: w.pairs }) |>.copyEntries num old new es
    else s.copyEntries num old new es

/-- Copy the lines of other parts that a team holds, for the twin's team (R343). -/
def State.copyHeldOut (s : State) (num old new : Nat) : State :=
  let mine := (s.heldOut.filter (fun e => e.team == old)).mapIdx (fun k e => { e with id := s.nextId + k, team := new, ctx := num, marked := false })
  { s with nextId := s.nextId + mine.length, heldOut := s.heldOut ++ mine }

/-- Copy a team's call slips, which are delivered to both (R344). -/
def State.copySlips (s : State) (num old new : Nat) : List Slip → State
  | [] => s
  | x :: xs =>
    if x.team = old then
      { s with nextId := s.nextId + 1, slips := s.slips ++ [{ x with id := s.nextId, team := new }] }.onTwin num
        (fun w => { w with pairs := (x.id, s.nextId) :: w.pairs }) |>.copySlips num old new xs
    else s.copySlips num old new xs

/-- Copy a team's engine transfers, each to be completed into the twin too (R340, R344). -/
def State.copyEngines (s : State) (num old new : Nat) : State :=
  let ids := s.nextId
  let ops := (s.tileops.filter (fun x => x.team == old)).mapIdx (fun i x => { x with id := ids + i, team := new })
  let ids := ids + ops.length
  let sends := (s.sends.filter (fun x => x.team == old)).mapIdx (fun i x => { x with id := ids + i, team := new })
  let ids := ids + sends.length
  let colls := (s.colls.filter (fun x => x.team == old)).mapIdx (fun i x => (x.id, { x with id := ids + i, team := new }))
  let ids := ids + colls.length
  let cps := (s.copies.filter (fun x => x.team == old)).map (fun x => { x with team := new })
  let s := s.onTwin num (fun w => { w with pairs := colls.map (fun x => (x.1, x.2.id)) ++ w.pairs })
  { s with nextId := ids, colls := s.colls ++ colls.map (fun x => x.2), tileops := s.tileops ++ ops, sends := s.sends ++ sends, copies := s.copies ++ cps,
           due := s.due ++ ops.map (fun x => Instr.tileopCompletion x.id) ++
             (sends.map (fun x => x.left.map (fun b => Instr.mcastReceipt x.id b) ++ [Instr.mcastSendEnd x.id])).flatten ++
             (cps.map (fun x => [if x.started then Instr.teamCopyEnd new x.n else Instr.teamCopyStart new x.n])).flatten }

/-- The write-combining entries that have drained to a migrating page and wait for their turn there (R277). -/
def State.queuedEntries (s : State) : List WcEntry :=
  ((s.migrations.map (fun m => m.queued)).flatten).filterMap (fun q => match q with | .entry e => some e | _ => none)

/-- Capture one team for a twin (R340, R343, R344). -/
def State.captureTeam (s : State) (num : Nat) (t : Team) : State :=
  match s.twinNum? num with
  | none => s
  | some w =>
    if w.teams.any (fun p => p.1 == t.uid) then s else
    -- matrix work in flight completes before the copy, into both (R340)
    let s := t.groups.foldl (fun s g => s.landWorks t.uid g.idx) s
    let t := (s.team? t.uid).getD t
    let new := s.nextId
    let s := { s with nextId := s.nextId + 1 }
    let (lid, s) := match w.launches.find? (fun p => p.1 == t.launch), s.launch? t.launch with
      | some p, _ => (p.2, s)
      | none, some l =>
        let l' : Launch := { l with uid := s.nextId, ctx := num }
        (s.nextId, ({ s with nextId := s.nextId + 1, launches := s.launches ++ [l'] } : State).onTwin num
          (fun w => { w with launches := (t.launch, s.nextId) :: w.launches }))
      | none, none => (t.launch, s)
    let t' := { t with uid := new, ctx := num, launch := lid, groups := t.groups.map Group.captured }
    let s := if t.ended then s.owe (.gangRetirement lid t.gang) else s
    let s := { s with teams := s.teams ++ [t'] }.onTwin num (fun w => { w with teams := (t.uid, new) :: w.teams })
    let s := s.copyAccesses num t.uid new s.accesses
    let out := s.reqs.filterMap (fun r => r.wc.bind (fun e => if s.heldOut.any (fun h => h.id == e.id) then none else some e))
    let s := s.copyEntries num t.uid new (sortBy (fun (e : WcEntry) => e.id) (out ++ s.queuedEntries ++ s.wc))
    let s := s.copyHeldOut num t.uid new
    let s := s.copySlips num t.uid new s.slips
    s.copyEngines num t.uid new

/-- The teams of a context that a core holds. -/
def State.teamsOn (s : State) (ctx core : Nat) : List Team :=
  s.teams.filter (fun t => t.ctx == ctx && !t.ended && t.groups.any (fun g => g.core == core))

/-- Capture what one core holds of a twin's original, a deterministic team that has ended and awaits its gang among it (R294, R340), with
the reports that wait in the core's queue (R311); where the original is active, another context in the shadow bank is discarded. -/
def State.captureCore (s : State) (num orig core : Nat) : State :=
  let ts := s.teams.filter (fun t => t.ctx == orig && t.groups.any (fun g => g.core == core))
  let s := ts.foldl (fun s t => s.captureTeam num t) s
  let s := if ts.isEmpty then s else (s.saveArea num core).getD s
  let cc := s.coreCtx core orig
  let pairs := ((s.twinNum? num).map (fun w => w.teams)).getD []
  let reports := cc.reports.filterMap (fun r => (pairs.find? (fun p => p.1 == r.team)).map (fun p => { r with team := p.2 }))
  let s := s.onCoreCtx core num (fun c => { c with rot := cc.rot, wdog := cc.wdog, reports := reports, saved := true, ladder := .out })
  let s := if (s.core core).active ≠ some orig then s else s.onCore core (fun c => { c with shadow := none })
  let s := s.oweOnce (.restoreComplete core)
  s.onTwin num (fun w => { w with cutCores := addOnce core w.cutCores })

/-! ### Write-combining entries (R367, R368) -/

/-- Both cores of a core's pair take their cut together (R340). -/
def cutGroup (core : Nat) : List Nat := [core / 2 * 2, core / 2 * 2 + 1]

/-- The twin's copy of an access, entry or slip. -/
def State.twinCopy? (s : State) (ctx id : Nat) : Option Nat :=
  (s.twinOf? ctx).bind (fun w => (w.pairs.find? (fun p => p.1 == id)).map (fun p => p.2))

/-- A write-combining entry performed before the cut of its home is part of both views, so the twin's copy goes (R343). -/
def State.dropTwinEntry (s : State) (ctx id die : Nat) : State :=
  match s.twinOf? ctx, s.twinCopy? ctx id with
  | some w, some k => if die ∈ w.cutHomes then s else { s with wc := s.wc.filter (fun e => e.id != k) }
  | _, _ => s

/-- The path of an ordered packet (R359): its plane. -/
def State.planeOf (s : State) (part key : Nat) : Nat :=
  if s.planes.isEmpty then 0 else getAt s.planes (Config.pathHash part key % s.planes.length) 0

/-- The next request id for a target die (R364). -/
def State.ridOf (s : State) (part die : Nat) : Nat :=
  ((s.rids.find? (fun r => r.1 == part && r.2.1 == die)).map (fun r => r.2.2)).getD 0

/-- Advance the request id for a target die (R364). -/
def State.takeRid (s : State) (part die : Nat) : State :=
  { s with rids := (part, die, (s.ridOf part die + 1) % 2 ^ 32) :: s.rids.filter (fun r => !(r.1 == part && r.2.1 == die)) }

/-- The lowest request id to a target die that still awaits its reply, or the next one (R358). -/
def State.ackLo (s : State) (part die : Nat) : Nat :=
  ((s.reqs.filter (fun r => r.part == part && r.die == die && !r.host && !r.pkt.spray)).map (fun r => r.pkt.rid)).foldl min (s.ridOf part die)

/-- A packet as it leaves (R358): ACKLO is the lowest id to its destination that awaits a reply, and a packet of the part itself carries context 0. -/
def State.stamped (s : State) (p : Packet) : Packet := { p with ackLo := s.ackLo p.dstPart p.dstDie, ctx := p.ctx % 64 }

/-- Send a packet, or keep it in the twin's quarantine (R348); an interest waits while the list of planes changes (R361). -/
def State.sendPacket (s : State) (ctx : Nat) (p : Packet) : State :=
  if s.quarantined ctx then s.onTwin ctx (fun w => { w with quarantine := w.quarantine ++ [p] })
  else if p.kind = 0x09 ∧ s.nextPlanes.isSome then { s with kept := s.kept ++ [p] }
  else s.send (.packet (s.stamped p))

/-- Send a request from a die of this part to one of another and keep it until its reply (R363, R364). -/
def State.requestTo (s : State) (kind core team ctx srcDie part die addr aux : Nat) (payload : List Byte) (acc : Option (Nat × Nat))
    (wc : Option WcEntry) (cut : Bool) : State :=
  let rid := s.ridOf part die
  let p : Packet := { kind := kind, cut := cut, srcPart := s.part, srcDie := srcDie, dstPart := part, dstDie := die, ctx := ctx,
                      plane := s.planeOf part (addr / 256 % 2 ^ 44), rid := rid, key := addr, ackLo := min (s.ackLo part die) rid,
                      aux := aux, payload := payload }
  let r : Req := ⟨s.nextId, false, part, die, p, acc, wc, none, 1, false, false, 0, core, team⟩
  ({ s.takeRid part die with nextId := s.nextId + 1, reqs := s.reqs ++ [r] }).sendPacket ctx p

/-- Send a request of a core to the home of an address on another part. -/
def State.request (s : State) (kind core team ctx part addr aux : Nat) (payload : List Byte) (acc : Option (Nat × Nat))
    (wc : Option WcEntry) (cut : Bool) : State :=
  s.requestTo kind core team ctx (dieOfCore core) part (homeDie addr) addr aux payload acc wc cut

/-- The plane of a sprayed packet (R360): one of the usable ones; which has the least queued bytes is a free value. -/
def State.sprayPlane (s : State) : Nat :=
  if s.planes.isEmpty then 0 else getAt s.planes (Config.freePlane s.freeTick % s.planes.length) 0

/-- Send a sprayed packet of a transfer to another part and keep it until it is answered (R360, R363). -/
def State.spray (s : State) (kind core team ctx part addr seq : Nat) (payload : List Byte) : State :=
  let p : Packet := { kind := kind, spray := true, srcPart := s.part, srcDie := dieOfCore core, dstPart := part, dstDie := homeDie addr, ctx := ctx,
                      plane := s.sprayPlane, rid := seq, key := addr, payload := payload }
  let r : Req := ⟨s.nextId, false, part, homeDie addr, p, none, none, none, 1, false, false, 0, core, team⟩
  ({ s with nextId := s.nextId + 1, freeTick := s.freeTick + 1, reqs := s.reqs ++ [r] }).sendPacket ctx p

/-- The measurement of a team's launch, which its accesses at other parts carry (R391; log 15). -/
def State.measOf (s : State) (team : Nat) : List Byte := (((s.team? team).bind s.imageOf).map (fun m => m.meas)).getD []

/-- Ordered packets wait while the list of planes changes (R361), stores beyond 512 to one die wait (R365), and a store or
atomic waits while a load of its core to the line awaits its reply (R366). -/
def State.mayRequest (s : State) (kind core part addr : Nat) : Bool :=
  s.nextPlanes.isNone &&
  (kind != 2 || decide ((s.reqs.filter (fun r => !r.host && r.part == part && r.die == homeDie addr && r.pkt.kind == 2)).length < 512)) &&
  (kind == 1 || kind == 7 || !(s.reqs.any (fun r => !r.host && r.core == core && r.part == part && r.pkt.kind == 1 && !r.pkt.spray && r.pkt.key / 256 == addr / 256) ||
    s.accesses.any (fun a => a.core == core && a.waiting && (match a.kind with | .atomic _ _ => false | _ => true) &&
      a.lanes.any (fun x => x.loc.part == part && x.loc.pa / 256 == addr / 256))))

/-- The payload of a store packet: the 256-bit mask and the 256 bytes of the line, before its team's measurement (log 15). -/
def storePayload (line : Nat) (cells : List Cell) : List Byte :=
  let bit := fun i => (cellAt (line * 256 + i) cells).isSome
  (List.range 32).map (fun k => BitVec.ofNat 8 (sumOf ((List.range 8).map (fun j => if bit (8 * k + j) then 2 ^ j else 0)))) ++
  (List.range 256).map (fun i => (cellAt (line * 256 + i) cells).getD 0)

/-- The bytes that a store packet writes, as offsets and bytes of its line (log 15). -/
def storeBytes (payload : List Byte) : List (Nat × Byte) :=
  (List.range 256).filterMap (fun i =>
    if (getAt payload (i / 8) (0 : Byte)).getLsbD (i % 8) then some (i, getAt payload (32 + i) 0) else none)

/-- An entry that drains to a migrating page waits for its turn there (R277), unless it is the head of the page's queue in DRAIN that drains its own
team's entry. -/
def State.queueBlocks (s : State) (e : WcEntry) : Bool :=
  match s.queueing? (e.line * 256) with
  | none => false
  | some m => !(m.state == .drain && (match m.queued.head? with
      | some (.access id) => s.accesses.any (fun a => a.id == id && a.team == e.team && a.core == e.core)
      | _ => false))

/-- Hold an entry for another part until its team commits or ends (R242, log 88). -/
def State.holdOut (s : State) (e : WcEntry) : State :=
  let same := fun (x : WcEntry) => x.core == e.core && x.team == e.team && x.part == e.part && x.line == e.line
  if s.heldOut.any same then
    { s with heldOut := s.heldOut.map (fun x => if same x then
        { x with cells := e.cells.foldl (fun cs c => cellPut c.1 c.2 cs) x.cells, stores := x.stores ++ e.stores, marked := x.marked || e.marked } else x) }
  else { s with heldOut := s.heldOut ++ [e] }

/-- Send an entry to another part as one store packet (R363, R368). None means that it must wait. -/
def State.sendEntry (s : State) (e : WcEntry) : Option State :=
  if s.mayRequest 2 e.core e.part (e.line * 256) then
    some (s.request 2 e.core e.team e.ctx e.part (e.line * 256) 0 (storePayload e.line e.cells ++ s.measOf e.team) none (some e) e.marked)
  else none

/-- Send what a team holds for other parts (R242); it is released once its home has answered. None means that some of it must wait. -/
def State.sendHeld (s : State) : List WcEntry → Option State
  | [] => some s
  | e :: es => (s.sendEntry e).bind (fun (s : State) => s.sendHeld es)

/-- A write-combining entry is performed at its home on this part (R368). None means that it must wait: for the overlay, or, at a home that has cut, for
the cut of its core (R341, R343; log 18). -/
def State.performEntry (s : State) (e : WcEntry) : Option State :=
  let cells := e.cells.map (fun c => (s.placeFor e.ctx c.1, c.2))
  let die := homeDie (s.placeFor e.ctx (e.line * 256))
  let s0 := match s.twinOf? e.ctx with
    | some w => if e.marked && w.state == TwinState.cutting then s.cutHome w.num die else s
    | none => s
  let early := match s0.twinOf? e.ctx with
    | some w => w.state == TwinState.cutting && w.cutHomes.contains die && !(w.cutCores.contains e.core)
    | none => false
  if early then none else
  (s0.storeHome e.team e.ctx cells).map (fun (s1 : State) => s1.dropTwinEntry e.ctx e.id die)

/-- Perform what the part, the host and draining entries write at the head of a migrating page's queue, in order (R278). -/
def State.runPuts (s : State) (id : Nat) : List Queued → State
  | q :: qs =>
    match (match q with
      | Queued.put ctx cells => s.putHome ctx (cells.map (fun (c : Cell) => (s.moved c.1, c.2)))
      | Queued.entry e => s.performEntry e
      | _ => none) with
    | some s => { s with migrations := s.migrations.map (fun (k : Migration) => if k.id = id then { k with queued := k.queued.filter (fun x => x != q) } else k) }.runPuts id qs
    | none => s
  | [] => s

/-- Something leaves the queue of a migrating page, and what is written next to the page is performed (R278). -/
def State.unqueued (s : State) (q : Queued) : State :=
  let s := { s with migrations := s.migrations.map (fun (m : Migration) => { m with queued := m.queued.filter (fun k => k != q) }) }
  (s.migrations.filter (fun (m : Migration) => m.state == .drain)).foldl (fun s m => s.runPuts m.id m.queued) s

/-- Drain one write-combining entry (R368): performed at its home on this part, in its turn where the page migrates (R277); sent to another part, or
held for it while its team holds its stores (R242); or written to host memory, whose completion is still to come (R146). None means that it must wait:
for the overlay, for a path, or for the cut of its core. -/
def State.drain (s : State) (e : WcEntry) : Option State :=
  let s0 := { s with wc := s.wc.filter (fun x => x.id != e.id) }
  if e.part = s.part then
    if e.line * 256 < Config.hostBase then
      if s.queueBlocks e then
        (s.queueing? (e.line * 256)).map (fun m => { s0 with migrations := s0.migrations.map (fun (k : Migration) =>
          if k.id = m.id then { k with queued := k.queued ++ [.entry e] } else k) })
      else s0.performEntry e
    else if s.quarantined e.ctx then
      let p : Packet := { kind := 0xE1, srcPart := s.part, dstPart := s.part, ctx := e.ctx, rid := e.core, aux := e.team,
                          key := e.line * 256, payload := storePayload e.line e.cells }
      some (s0.onTwin e.ctx (fun w => { w with quarantine := w.quarantine ++ [p] }))
    else
      (s0.putHome e.ctx e.cells).map (fun (s1 : State) =>
        let r : Req := ⟨s1.nextId, true, s1.part, 0, { kind := 2, key := e.line * 256 }, none, some e, none, 1, false, false, 0, e.core, e.team⟩
        { s1 with nextId := s1.nextId + 1, reqs := s1.reqs ++ [r] })
  else if s.holds e.team then some (s0.holdOut e)
  else s0.sendEntry e

/-- Drain entries in order, as far as they are still there (R347); none when one must wait. -/
def State.drainAll (s : State) : List WcEntry → Option State
  | [] => some s
  | e :: es =>
    if !(s.wc.any (fun x => x.id == e.id)) then s.drainAll es else
    match s.drain e with | some s' => s'.drainAll es | none => none

/-- Drain the entries that can drain, leaving those that must wait. -/
def State.drainSome (s : State) : List WcEntry → State
  | [] => s
  | e :: es =>
    if !(s.wc.any (fun x => x.id == e.id)) then s.drainSome es else
    match s.drain e with | some s' => s'.drainSome es | none => s.drainSome es

/-- Put a store's bytes into the entry for its peer, line and team (R367): a new entry when there is none, the oldest of 64
draining first; a full entry drains (R368). None means that the store must wait. A twin that such a drain discards stores nothing more (R347). -/
def State.combine (s : State) (core team ctx part a : Nat) (bs : List Byte) (sb : Option StoreBuf) (marked : Bool) : Option State :=
  let line := a / 256
  let mine := fun (e : WcEntry) => e.core == core && e.team == team && e.part == part && e.line == line
  let room : Option State :=
    if s.wc.any mine then some s else
    if (s.wc.filter (fun e => e.core == core)).length < 64 then some s else
    match s.wc.find? (fun e => e.core == core) with
    | some e => s.drain e
    | none => some s
  match room with
  | none => none
  | some s =>
    if (s.team? team).isNone then some s else
    let s := if s.wc.any mine then s else
      let e : WcEntry := ⟨s.nextId, core, team, part, homeDie a, line, [], [], marked, ctx⟩
      { s with nextId := s.nextId + 1, wc := s.wc ++ [e], due := s.due ++ [.wcAgeExpiry s.nextId] }
    let s := { s with wc := s.wc.map (fun e => if mine e then
        { e with cells := cellsWrite e.cells a bs, marked := e.marked || marked,
                 stores := match sb with
                   | some b => if e.stores.any (fun x => x.acc == b.acc) then e.stores else e.stores ++ [b]
                   | none => e.stores } else e) }
    match s.wc.find? mine with
    | some e => if e.cells.length = 256 then s.drain e else some s
    | none => some s

/-- Take a core's cut (R340): outside chains, capture, then drain the context's entries on the core (R368). -/
def State.takeCut (s : State) (num orig core : Nat) : Option State :=
  let cs := cutGroup core
  if cs.any (fun c => (s.teamsOn orig c).any (fun t => t.groups.any (fun g => g.core == c && g.chain.isSome))) then none else
  let s := cs.foldl (fun s c => s.captureCore num orig c) s
  some (s.drainSome (s.wc.filter (fun e => e.ctx == orig && cs.contains e.core)))

/-- Before an access of a context's core is performed at a home of this part (R341, R342): a marked access cuts the home; at a
home that has cut, an access that meets or makes an overlay entry cuts its core first. None means that the access waits. -/
def State.meet (s : State) (ctx core : Nat) (marked write : Bool) (a : Nat) : Option State :=
  match s.twinOf? ctx with
  | none => some s
  | some w =>
    if w.state ≠ .cutting ∨ Config.hostBase ≤ a then some s else
    let die := homeDie a
    let s := if marked then s.cutHome w.num die else s
    if (decide (die ∈ w.cutHomes) || marked) && !(w.cutCores.contains core) &&
       (write || w.overlay.any (fun o => o.line == a / 256)) then s.takeCut w.num w.orig core
    else some s

/-- The homes of a team's held lines meet their release (R341): it carries the cut mark once the team's core has cut, and at a home that has cut the core
cuts first. None waits. -/
def State.meetHeld (s : State) (team : Nat) : Option State :=
  match s.team? team with
  | none => some s
  | some t => (s.held.filter (fun h => h.team == team)).foldl (fun o h => o.bind (fun (s : State) =>
      s.meet h.ctx t.core (((s.twinOf? h.ctx).map (fun w => w.cutCores.contains t.core)).getD false) true (h.line * 256))) (some s)

/-- Release every held line of a team, at homes of this part and of others (R242, R269). -/
def State.releaseAll (s : State) (team : Nat) : Option State :=
  (s.meetHeld team).bind (fun (s : State) =>
    (s.sendHeld (s.heldOut.filter (fun e => e.team == team && !(s.reqs.any (fun r => (r.wc.map (fun x => x.id)) == some e.id))))).bind
      (fun (s : State) => s.releaseTeam team))

/-- Commit a team (R142, R147): its held lines are released and it holds no more. A cut that this causes comes before it (R341). -/
def State.commit (s : State) (team : Nat) : Option State :=
  if s.holds team then (s.meetHeld team).bind (fun (s : State) =>
    (s.onTeam team (fun t => { t with committed := true, quota := [] })).releaseAll team)
  else some s

/-! ### Orderings (R146, R147, R245) -/

/-- A team on a core pair, whose release at scope 2 and above reaches its partner core (R146). -/
def State.pairTeam (s : State) (team : Nat) : Bool := ((s.team? team).map (fun t => t.pair)).getD false

/-- The entries a release at a scope drains (R146): from scope 2 those of a team on a core pair, from scope 3 also those for this part and host
memory, at 6 every one. An earlier store to another part of a team on one core is thus not drained below scope 6 (log 107). -/
def State.drainsFor (s : State) (core team scope : Nat) : List WcEntry :=
  s.wc.filter (fun e => e.core == core &&
    (scope == 6 || (decide (3 ≤ scope) && e.part == s.part) || (decide (2 ≤ scope) && e.team == team && s.pairTeam team)))

/-- The requests and queued entries whose completion a release at a scope awaits (R146, R277): from scope 2 those of a team on a core pair, until they
are performed at their homes; from scope 3 those to this part and host memory; at scope 6 for other parts until a switch has custody of them. -/
def State.awaits (s : State) (core team scope : Nat) : Bool :=
  s.reqs.any (fun r => r.core == core && r.wc.isSome &&
    ((scope == 6 && !r.custody) || (decide (3 ≤ scope) && r.host) || (decide (2 ≤ scope) && r.team == team && s.pairTeam team))) ||
  s.migrations.any (fun m => m.queued.any (fun q => match q with
    | .entry e => e.core == core && (decide (3 ≤ scope) || (scope == 2 && e.team == team && s.pairTeam team))
    | _ => false))

/-- The teams on a core whose core-local releases a promotion performs (R245). -/
def State.promotees (s : State) (core : Nat) : List Team :=
  s.teams.filter (fun t => t.released && !t.ended && !t.committed && t.groups.any (fun g => g.core == core))

/-- A team's image has strict-relaunch set (R74). -/
def State.strictTeam (s : State) (t : Team) : Bool :=
  (((s.launch? t.launch).bind (fun l => s.image? l.image)).map (fun m => m.strict)).getD false

/-- Pend an asynchronous trap in a group; a group holds at most one of each cause (R307). -/
def State.pend (s : State) (team grp : Nat) (a : AsyncTrap) : State :=
  s.onGroup team grp (fun g => if g.pend.any (fun b => b.cause == a.cause) then g else { g with pend := g.pend ++ [a] })

/-- Promote the core-local releases of a core to a scope (R245): its entries drain, and each team concerned commits, a
strict-relaunch team taking HOLD_QUOTA instead (an acquiring team of the core itself is left as it is): in its first group that has not ended, with the address of the marked line (log 108). True when
nothing that the scope awaits is left. -/
def State.promote (s : State) (core scope line : Nat) (but : Option Nat) : Option (State × Bool) :=
  let ts := (s.promotees core).filter (fun t => some t.uid != but)
  match s.drainAll (s.wc.filter (fun e => e.core == core && (scope == 6 || e.part == s.part || ts.any (fun t => t.pair && t.uid == e.team)))) with
  | none => none
  | some s =>
    let s := ts.foldl (fun s t => if s.strictTeam t then
        match t.groups.find? (fun g => !g.ended) with
        | some g => s.pend t.uid g.idx ⟨0x13, 1, 0, false, none, BitVec.ofNat 64 (line * 256), none, none⟩
        | none => s
      else s) s
    let s := { s with teams := s.teams.map (fun t => if ts.any (fun x => x.uid == t.uid) then { t with released := false } else t) }
    match (ts.filter (fun t => !(s.strictTeam t))).foldl (fun o t => o.bind (fun s => s.commit t.uid)) (some s) with
    | none => none
    | some s => some (s, !(s.awaits core 0 scope) && !(ts.any (fun t => s.awaits core t.uid scope)) && !(s.heldOut.any (fun e => e.core == core && !(s.holds e.team))))

/-- The mark that an acquire at scope 3-6 of a team on a core meets on a line: another core's, or its own core's where another team is on that core
(R245; log 109). -/
def State.markFor (s : State) (part core team scope line : Nat) : Option Mark :=
  if scope < 3 then none else s.marks.find? (fun m => m.line == line &&
    (!(m.part == part && m.core == core) || (part == s.part && s.teams.any (fun t => t.uid != team && !t.ended && t.groups.any (fun g => g.core == core)))))

/-- The core takes its cut before it accepts what carries the cut mark of a context (R341). None means that it must wait. -/
def State.cutFirst (s : State) (ctx core : Nat) : Option State :=
  match s.twinOf? ctx with
  | some w => if w.state == .cutting && !(w.cutCores.contains core) then s.takeCut w.num w.orig core else some s
  | none => some s

/-- The payload of a promotion packet: the core that is marked or asked, and the scope, 0-2 for a mark (log 15). -/
def promotionPayload (core scope : Nat) : List Byte := leBytes 2 core ++ leBytes 1 scope

/-- The home asks a marked core to promote (R245): one of this part does so at once, after its cut where the acquire carries the cut mark of
a context (R341); another part is sent a promotion packet. True when the mark is cleared. -/
def State.serveMark (s : State) (cut : Option Nat) (scope : Nat) (but : Option Nat) (m : Mark) : Option (State × Bool) :=
  if m.part = s.part then
    (match cut with | some ctx => s.cutFirst ctx m.core | none => some s).bind (fun (s : State) =>
      match s.promote m.core scope m.line but with
      | some (s, true) => some ({ s with marks := s.marks.filter (fun k => k.line != m.line) }, true)
      | o => o)
  else if m.asked then some (s, false)
  else if s.mayRequest 7 m.core m.part (m.line * 256) then
    let s := { s with marks := s.marks.map (fun k => if k = m then { k with asked := true } else k) }
    some (s.requestTo 7 m.core 0 64 (homeDie (m.line * 256)) m.part (dieOfCore m.core) (m.line * 256) 0 (promotionPayload m.core scope) none none cut.isSome, false)
  else none

/-- Serve the marks of the lines that an acquire of a core reads (R245). True when none is left. -/
def State.serveMarks (s : State) (cut : Option Nat) (part core team scope : Nat) : List Nat → Option (State × Bool)
  | [] => some (s, true)
  | line :: ls =>
    match s.markFor part core team scope line with
    | none => s.serveMarks cut part core team scope ls
    | some m =>
      match s.serveMark cut scope (if m.part = part ∧ m.core = core then some team else none) m with
      | some (s, true) => s.serveMarks cut part core team scope ls
      | o => o

/-- Leave a local-release mark of a core on lines (R245): at most one a line, the latest (log 70). -/
def State.mark (s : State) (part core : Nat) : List Nat → State
  | [] => s
  | line :: ls => { s with marks := ⟨line, core, part, false⟩ :: s.marks.filter (fun m => m.line != line) }.mark part core ls

end Sys2Proof.Machine
end

