-- ==== Sys2Proof/Machine/Teams.lean ====
section
/-!
DEFINITION. Teams: what a group starts with, the resources of a core, seating a team, the end of a team, rollback after an error
or a kill, and the launch they belong to (R10, R11, R22, R39, R214, R220, R221, R242, R264, R265, R293, R324, R378, R382).
-/
namespace Sys2Proof.Machine

open Host (Outcome Cell)

/-! ### Group start (R39) -/

/-- A lane at group start (R39). -/
def Lane.start (regs : Nat) : Lane := ⟨List.replicate regs 0, 1, 0, false, none, false⟩

/-- A collector that holds nothing (R166; log 1). -/
def Collector.empty : Collector := ⟨false, [], 0⟩

/-- A group at its start (R39); the checksum tolerance starts at 0x3780_0000 (R172). -/
def Group.start (idx width regs core slot pos stamp age : Nat) : Group where
  idx := idx
  lanes := List.replicate width (Lane.start regs)
  masks := List.replicate 12 0
  ctrs := [0, 0, 0, 0]
  rm := 0
  wb := 0
  chpc := 0
  latches := noLatches
  lastExec := 0
  chain := none
  ret := 0
  cyc := 0
  core := core
  slot := slot
  pos := pos
  stamp := stamp
  cause := 0
  tpc := 0
  tval := 0
  frag := 0
  parent := 0
  handler := 0
  resume := 0
  excl := 0
  pend := []
  tol := 0x37800000
  coll := Collector.empty
  susp := false
  copies := 0
  wait := .none
  stall := 0
  lineWait := []
  frel := none
  lapse := none
  parked := []
  refused := []
  bpPass := false
  twinPass := false
  undo := false
  ended := false
  age := age
  edits := []
  passed := 0

/-! ### The order of a launch (R214, R293) -/

/-- The launch has gangs: the header declares them, or it is deterministic (R293). -/
def Image.ganged (m : Image) : Bool := m.gangx * m.gangy * m.gangz != 0

/-- The gang shape, 1 × 1 × 1 when none is declared. -/
def Image.gangShape (m : Image) : Nat × Nat × Nat := if m.ganged then (m.gangx, m.gangy, m.gangz) else (1, 1, 1)

/-- Teams of a gang. -/
def Image.gangTeams (m : Image) : Nat := m.gangShape.1 * m.gangShape.2.1 * m.gangShape.2.2

/-- One step of HIdx (R293). -/
def hidxGo (n : Nat) : Nat → Nat → Nat → Nat → Nat → Nat
  | 0, _, _, _, d => d
  | k + 1, s, x, y, d =>
    if s = 0 then d else
    let rx := if x / s % 2 = 1 then 1 else 0
    let ry := if y / s % 2 = 1 then 1 else 0
    let d := d + s * s * (Nat.xor (3 * rx) ry)
    let (x, y) := if ry = 0 then (if rx = 1 then (n - 1 - y, n - 1 - x) else (y, x)) else (x, y)
    hidxGo n k (s / 2) x y d

/-- The least power of two from `p` up that is at least `m`. -/
def pow2From (m : Nat) : Nat → Nat → Nat
  | 0, p => p
  | k + 1, p => if m ≤ p then p else pow2From m k (2 * p)

/-- HIdx(x, y, n) of R293. -/
def hilbert (x y n : Nat) : Nat := hidxGo n 32 (n / 2) x y 0

/-- The gang grid of a launch. -/
def Launch.gangGrid (l : Launch) (m : Image) : Nat × Nat × Nat :=
  let (a, b, c) := m.gangShape
  ((l.gx + a - 1) / a, (l.gy + b - 1) / b, (l.gz + c - 1) / c)

/-- The gangs of a launch as (a, b, c), in dispatch order (R214, R293). -/
def Launch.gangs (l : Launch) (m : Image) : List (Nat × Nat × Nat) :=
  let (ga, gb, gc) := l.gangGrid m
  let n := pow2From (max ga gb) 32 1
  let plane : List (Nat × Nat) := ((List.range gb).map (fun b => (List.range ga).map (fun a => (a, b)))).flatten
  let plane := if m.det then sortBy (fun (q : Nat × Nat) => hilbert q.1 q.2 n) plane else plane
  ((List.range gc).map (fun c => plane.map (fun q => (q.1, q.2, c)))).flatten

/-- The linear indices of a gang's teams, ascending (R9). -/
def Launch.gangMembers (l : Launch) (m : Image) (g : Nat × Nat × Nat) : List Nat :=
  let (sa, sb, sc) := m.gangShape
  ((List.range sc).map (fun z => ((List.range sb).map (fun y => (List.range sa).map (fun x =>
    (g.1 * sa + x) + l.gx * ((g.2.1 * sb + y) + l.gy * (g.2.2 * sc + z))))).flatten)).flatten

/-- The teams of a launch by gang, in dispatch order (R214). -/
def Launch.order (l : Launch) (m : Image) : List (List Nat) := (l.gangs m).map (l.gangMembers m)

/-- How many teams the grid has. -/
def Launch.teamCount (l : Launch) : Nat := l.gx * l.gy * l.gz

/-- The place of the first element that equals a number. -/
def indexIn (x : Nat) : List Nat → Nat
  | [] => 0
  | y :: ys => if x = y then 0 else indexIn x ys + 1

/-- The hand-off index of a team (R214). -/
def Launch.hidxOf (l : Launch) (m : Image) (tlin : Nat) : Nat := indexIn tlin (l.order m).flatten

/-- The place in dispatch order of the gang that holds a team. -/
def Launch.gangOf (l : Launch) (m : Image) (tlin : Nat) : Nat :=
  indexIn 1 ((l.order m).map (fun g => if g.contains tlin then 1 else 0))

/-! ### Resources of a core (R10, R11, R264) -/

/-- What a team uses of one core: slots, KiB of register bank, scratchpad bytes with checksum lines, tiles. -/
structure Share where
  slots : Nat
  kib : Nat
  bytes : Nat
  tiles : Nat
deriving DecidableEq, Repr

/-- The sum of two shares. -/
def Share.add (a b : Share) : Share := ⟨a.slots + b.slots, a.kib + b.kib, a.bytes + b.bytes, a.tiles + b.tiles⟩

/-- A team of more than 16 slots takes a core pair. -/
def Image.paired (m : Image) : Bool := decide (16 < m.slots)

/-- Whole scratchpad lines of a window. -/
def Image.windowBytes (m : Image) : Nat := (m.scratch + 255) / 256 * 256

/-- A team's share of its core, or of the even or odd core of its pair, whose slots come to it with `Share.split`: 8,388,608 window bytes
and 1,024 tiles lie on the even core (R157, R264). -/
def Image.share (m : Image) (odd : Bool) : Share :=
  if !m.paired then ⟨m.slots, m.slots * m.regs, m.windowBytes + 256 * m.accum, m.accum⟩ else
  let b := min m.windowBytes Config.scratchPerCore
  let t := min m.accum Config.tilesPerCore
  if odd then ⟨0, 0, (m.windowBytes - b) + 256 * (m.accum - t), m.accum - t⟩ else ⟨0, 0, b + 256 * t, t⟩

/-- The slots of a pair team that find room on the even core, beside what is used there: the pair's slots are one pool (R263), filled from
the even core on (log 16). -/
def Image.evenSlots (m : Image) (use : Share) : Nat := min m.slots (min (Config.slotsPerCore - use.slots) ((4096 - use.kib) / max m.regs 1))

/-- What the two cores of a pair give when one more pair team is there. -/
def Image.split (m : Image) (use : Share × Share) : Share × Share :=
  let k := m.evenSlots use.1
  let e := m.share false
  let o := m.share true
  (use.1.add { e with slots := k, kib := k * m.regs }, use.2.add { o with slots := m.slots - k, kib := (m.slots - k) * m.regs })

/-- The images of a context's launches and of its heads at the start barrier, each with the cores that it has reserved (R289, R291). -/
def State.reserved (s : State) (ctx : Nat) : List (Image × List Nat) :=
  (s.launches.filter (fun l => l.ctx == ctx)).filterMap (fun l => (s.image? l.image).map (fun m => (m, (l.res.map (fun r => r.cores)).flatten))) ++
  ((s.queues.filter (fun q => q.ctx == ctx)).map (fun q => q.barrier.filterMap (fun w =>
    (s.image? w.image).map (fun m => (m, (w.res.map (fun r => r.cores)).flatten))))).flatten

/-- What the resident teams of a context and its reservations of single cores use of a core, with the lines that are still being zeroed for
whichever context (R264, R265, R291). -/
def State.ownUse (s : State) (core ctx : Nat) : Share :=
  let resident := (s.teams.filter (fun t => t.ctx == ctx && t.cores.contains core)).filterMap (fun t =>
    (s.imageOf t).map (fun m =>
      let k := (t.slots.filter (fun x => x.1 == core)).length
      { m.share (decide (core ≠ t.core)) with slots := k, kib := k * m.regs }))
  let scrubbed := (s.scrubs.filter (fun r => r.core == core)).map (fun r => (⟨0, 0, r.bytes, r.tiles⟩ : Share))
  let held := ((s.reserved ctx).filter (fun x => !x.1.paired)).map (fun x => (x.2.filter (fun c => c == core)).map (fun _ => x.1.share false))
  (resident ++ scrubbed ++ held.flatten).foldl Share.add ⟨0, 0, 0, 0⟩

/-- What is used of both cores of a pair, the pair's reservations among it. -/
def State.pairUse (s : State) (even ctx : Nat) : Share × Share :=
  ((s.reserved ctx).filter (fun x => x.1.paired)).foldl (fun u x => (x.2.filter (fun c => c == even)).foldl (fun u _ => x.1.split u) u)
    (s.ownUse even ctx, s.ownUse (even + 1) ctx)

/-- What is used of a core. -/
def State.coreUse (s : State) (core ctx : Nat) : Share :=
  let u := s.pairUse (core / 2 * 2) ctx
  if core % 2 = 0 then u.1 else u.2

/-- A core gives no more than it has (R11, R264). -/
def Share.inBounds (use : Share) : Bool :=
  decide (use.slots ≤ Config.slotsPerCore ∧ use.kib ≤ 4096 ∧ use.bytes ≤ Config.scratchPerCore ∧ use.tiles ≤ Config.tilesPerCore)

/-- A share fits beside what a core already gives (R11, R264). -/
def Share.fits (use new : Share) : Bool := (use.add new).inBounds

/-- A pair team fits beside what the two cores already give: each within its own bounds, so that a launch within the pooled capacity of R263 may have to wait
(R11, R157, R264; log 16). -/
def Image.fitsPair (m : Image) (use : Share × Share) : Bool :=
  let u := m.split use
  u.1.inBounds && u.2.inBounds

/-- The free slots of a context on a core, ascending (R264, R312). -/
def State.freeSlots (s : State) (core ctx : Nat) : List Nat :=
  (List.range Config.slotsPerCore).filter (fun k => !(s.teams.any (fun t => t.ctx == ctx && t.slots.contains (core, k))))

/-- A core, or an even core's pair, can hold a share of a kernel (R264). -/
def State.canHold (s : State) (m : Image) (core ctx : Nat) : Bool :=
  if m.paired then decide (core % 2 = 0) && m.fitsPair (s.pairUse core ctx)
  else (s.coreUse core ctx).fits (m.share false)

/-- The stamp of a slot position of a core (R33): one for all contexts, and 0 before its first group, which so carries stamp 1 (log 87). -/
def State.stampOf (s : State) (core slot pos : Nat) : Nat :=
  ((s.stamps.find? (fun x => x.1 == core && x.2.1 == slot * 16 + pos)).map (fun x => x.2.2)).getD 0

/-- Set the stamp of a slot position. -/
def State.setStamp (s : State) (core slot pos v : Nat) : State :=
  { s with stamps := (core, slot * 16 + pos, v) :: s.stamps.filter (fun x => !(x.1 == core && x.2.1 == slot * 16 + pos)) }

/-- The store-buffer entries outstanding (R309, R367). -/
def State.storeBufs (s : State) : List StoreBuf :=
  (s.wc.map (fun e => e.stores)).flatten ++ ((s.reqs.filterMap (fun r => r.wc)).map (fun e => e.stores)).flatten

/-- The groups of a new team, with the stamps they take (R10, R33). They start as the youngest of the core, in the order of the teams (R305; log 106). -/
def State.newGroups (s : State) (m : Image) (slots : List (Nat × Nat)) : List Group :=
  let per := 256 / (max m.width 1)
  (List.range (m.lanes / (max m.width 1))).map (fun g =>
    let sl := getAt slots (g / per) (0, 0)
    let stamp := (s.stampOf sl.1 sl.2 (g % per) + 1) % 4096
    Group.start g m.width m.regs sl.1 sl.2 (g % per) stamp s.issues)

/-- An outstanding store carries the identifier that a new group would have, so that the group waits for its position (R33). -/
def State.stampHeld (s : State) (ctx : Nat) (g : Group) : Bool := s.storeBufs.any (fun b => b.gid == s.gid ctx g)

/-- Set the stamps that new groups take (R33). -/
def State.takeStamps (s : State) (gs : List Group) : State := gs.foldl (fun s g => s.setStamp g.core g.slot g.pos g.stamp) s

/-- A team before its groups run (R19, R265). A team of a boosted launch holds no lines (R229). -/
def Team.start (uid ctx launch tlin hidx gang core : Nat) (m : Image) (slots : List (Nat × Nat)) (groups : List Group) (a : Again) : Team where
  uid := uid
  ctx := ctx
  launch := launch
  tlin := tlin
  hidx := hidx
  gang := gang
  core := core
  pair := m.paired
  slots := slots
  groups := groups
  bars := List.replicate 16 ⟨0, 0, 0⟩
  scratch := []
  absent := []
  bad := []
  badTiles := []
  tiles := []
  shelf := []
  committed := m.boosted
  quota := []
  handed := false
  facsim := false
  errata := []
  aborting := none
  afterTask := none
  heldLaunches := []
  errs := a.errs
  errCores := a.errCores
  ended := false
  killed := false
  released := false

/-- Append a record to the placement log, a ring of 2^20 records (R382). -/
def State.logPlace (s : State) (l : Launch) (tlin core event : Nat) : State :=
  { s with plog := (s.plog ++ [PlaceRec.mk (Config.freeRefCount s.freeTick) l.gen l.id tlin core l.ctx event l.queue]).drop (s.plog.length + 1 - 2 ^ 20),
           freeTick := s.freeTick + 1 }

/-- Seat a team of a launch on a core or pair (R264, R33, R313, R382); none while an outstanding store carries a stamp that one of its
groups would take, or while a save area waits for the clean pool. The core runs the team's context (R312). -/
def State.seat (s : State) (l : Launch) (m : Image) (a : Again) (core : Nat) (again : Bool) : Option State :=
  let slots :=
    if m.paired then
      let k := m.evenSlots (s.pairUse core l.ctx).1
      (((s.freeSlots core l.ctx).take k).map (fun j => (core, j))) ++ (((s.freeSlots (core + 1) l.ctx).take (m.slots - k)).map (fun j => (core + 1, j)))
    else ((s.freeSlots core l.ctx).take m.slots).map (fun k => (core, k))
  let gs := s.newGroups m slots
  if gs.any (s.stampHeld l.ctx) then none else
  let t := Team.start s.nextId l.ctx l.uid a.tlin (l.hidxOf m a.tlin) (l.gangOf m a.tlin) core m slots gs a
  let cores := if m.paired then [core, core + 1] else [core]
  match cores.foldl (fun o c => o.bind (fun (s : State) => s.saveArea l.ctx c)) (some s) with
  | none => none
  | some s =>
  -- with no group of the context on a core, the rotation begins at its lowest group (R333)
  let s := cores.foldl (fun s c => if (s.teamsOn l.ctx c).isEmpty then s.onCoreCtx c l.ctx (fun x => { x with rot := none }) else s) (s.takeStamps gs)
  let s := { s with nextId := s.nextId + 1, teams := s.teams ++ [t] }
  let s := s.onLaunchAt core l.uid (fun l => { l with placed := l.placed ++ [a.tlin], again := l.again.filter (fun x => x.tlin != a.tlin) })
  some (s.logPlace l a.tlin core (if again then 3 else 0))

/-! ### The end of a team -/

/-- A context of a recall takes no launch (R326). -/
def State.isRecalled (s : State) (ctx : Nat) : Bool := ((s.ctx? ctx).map (fun c => c.recalled)).getD true

/-- The recall that names a context. -/
def State.recallOf (s : State) (ctx : Nat) : Option RecallSt := s.recalls.find? (fun r => r.mask.getLsbD ctx)

/-- The action that a recall has chosen for a queue (R326). -/
def RecallSt.action (r : RecallSt) (queue : Nat) : Nat := lookupD queue 0 r.actions

/-- Teams of a context that are placed on a core. -/
def State.placedOn (s : State) (ctx core : Nat) : List Team :=
  s.teams.filter (fun t => t.ctx == ctx && t.cores.contains core)

/-- A context leaves the banks of a core: what the shadow bank holds becomes active by a swap with an empty outgoing role, else the restore
engine fills it (R314, R335). -/
def State.leaveBanks (s : State) (ctx core : Nat) : State :=
  let s := s.onCore core (fun c => { c with active := if c.active = some ctx then none else c.active,
                                            shadow := if c.shadow = some ctx then none else c.shadow })
  s.oweOnce (if (s.core core).shadow.isSome then .swap core else .restoreComplete core)

/-- The soft end of the ladder (R322), and the end of a recalled context's part on a core (R326): a context in SOFT, or recalled, that has
no team left on a core leaves it. -/
def State.softEnd (s : State) (ctx core : Nat) : State :=
  if ((s.coreCtx core ctx).ladder = .soft ∨ s.isRecalled ctx) ∧ (s.placedOn ctx core).isEmpty ∧
     ((s.core core).active = some ctx ∨ (s.core core).shadow = some ctx) then
    (s.onCoreCtx core ctx (fun c => { c with ladder := .out, saved := false })).leaveBanks ctx core
  else s

/-- Cores of a context's slice that can take it into their banks: the restore engine fills an empty shadow bank (R312, R314, R335). -/
def State.oweRestores (s : State) (ctx : Nat) : State :=
  let cores := ((s.sliceClusters (s.sliceOf ctx)).map (fun c => (List.range 8).map (fun k => 8 * c + k))).flatten
  let idle := fun (core : Nat) => (s.core core).active != some ctx && (s.core core).shadow.isNone && !(s.due.contains (.restoreComplete core))
  { s with due := s.due ++ (cores.filter idle).map (fun core => Instr.restoreComplete core) }

/-- A context that has no team left on a core gives its save area there back (R313). -/
def State.leaveCore (s : State) (ctx core : Nat) : State :=
  if !(s.placedOn ctx core).isEmpty then s else s.freeAreas (fun a => a.kind == .save core && a.ctx == ctx)

/-- Free what a team uses: its slots at once, its lines and tiles to the scrubber (R22, R265). -/
def State.freeTeam (s : State) (t : Team) : State :=
  let cores := t.cores
  let m := s.imageOf t
  let s := cores.foldl (fun s c =>
    let sh : Share := (m.map (fun (m : Image) => m.share (decide (c ≠ t.core)))).getD ⟨0, 0, 0, 0⟩
    if sh.bytes = 0 ∧ sh.tiles = 0 then s else
    ({ s with nextId := s.nextId + 1, scrubs := s.scrubs ++ [Scrub.mk s.nextId c t.ctx sh.bytes sh.tiles] }).owe (.lineScrub s.nextId)) s
  let s := { s with
    teams := s.teams.map (fun x => if x.uid = t.uid then
      { x with slots := [], shelf := [], scratch := [], absent := [], bad := [], badTiles := [], tiles := [], ended := true } else x),
    slips := s.slips.filter (fun x => x.team != t.uid),
    accessions := s.accessions.filter (fun x => x.team != t.uid) }
  cores.foldl (fun s c => (s.leaveCore t.ctx c).softEnd t.ctx c) s

/-- Forget a team. -/
def State.dropTeam (s : State) (uid : Nat) : State := { s with teams := s.teams.filter (fun t => t.uid != uid) }

/-- A launch all of whose teams have ended, or that was stopped and has none left, owes its completion (R288). -/
def State.oweCompletion (s : State) (launch : Nat) : State :=
  match s.launch? launch with
  | some l =>
    if (l.ended.length == l.teamCount || l.stopped) && !(s.teams.any (fun t => t.launch == launch && !t.ended)) then
      if s.due.contains (.launchCompletion launch) then s else s.owe (.launchCompletion launch)
    else s
  | none => s

/-- The context's slice may decide again when resources free up (R290). -/
def State.oweDispatch (s : State) (ctx : Nat) : State :=
  let i := Instr.dispatchDecision (s.sliceOf ctx)
  if s.due.contains i then s else s.owe i

/-- The release of a team's stores at its end (R242): its write-combining entries drain to their homes on this part and to host
memory, and those for other parts that carry no store-buffer entry are answered; then its held lines are released, at other parts too. In a
deterministic launch the lines stay held until its gang retires (R294). -/
def State.endRelease (s : State) (t : Team) (det : Bool) : Option State :=
  match s.drainAll (s.wc.filter (fun e => e.team == t.uid && e.part == s.part)) with
  | none => none
  | some s =>
    if s.reqs.any (fun r => r.team == t.uid && (r.host || (r.wc.map (fun e => e.stores.isEmpty)).getD false)) ||
       s.wc.any (fun e => e.team == t.uid && e.stores.isEmpty) then none
    else if det then some s else s.releaseAll t.uid

/-- A team has ended by R22: its stores are released, an unsent hand-off is made (R212), its resources are freed, its launch may
complete and the slice may place more. A task keeps its slots until it commits, so that an undo group can run in the first (R232; log 33), but no shelf-list
entry (R153). -/
def State.teamEnd (s : State) (t : Team) : Option State :=
  match s.launch? t.launch, s.imageOf t with
  | some l, some m =>
    match s.endRelease t m.det with
    | none => none
    | some s =>
      let s := s.onLaunchAt t.core l.uid (fun l => { l with
        ended := addOnce t.tlin l.ended
        sumTime := l.sumTime + Config.freeElapsed s.freeTick
        hands := if t.handed then l.hands else l.hands ++ [(t.hidx, 0xFFFFFFFF#32, 1)] })
      let s := if m.boosted then s.onTeam t.uid (fun t => { t with ended := true, shelf := [] }) else s.freeTeam t
      let s := s.logPlace l t.tlin t.core 1
      let s := if m.det then s.owe (.gangRetirement l.uid t.gang)
               else if m.boosted then s.owe (.taskCommit t.uid)
               else s.dropTeam t.uid
      some ((s.oweCompletion l.uid).oweDispatch t.ctx)
  | _, _ => none

/-- A team of a stopped launch has nothing left running (R220): it is not counted as ended. -/
def State.teamStopped (s : State) (t : Team) : State :=
  let s := match s.launch? t.launch with | some l => s.logPlace l t.tlin t.core 2 | none => s
  (((s.freeTeam t).dropTeam t.uid).oweCompletion t.launch).oweDispatch t.ctx

/-! ### Rollback (R221, R324, R378) -/

/-- Hold save areas in which no copy of a context is left are given back (R313). -/
def State.trimHold (s : State) (ctx : Nat) : State :=
  s.freeAreas (fun a => a.ctx == ctx && (match a.kind with
    | .hold d => !(s.held.any (fun h => h.ctx == ctx && h.place == .saved && homeDie (h.line * 256) == d))
    | _ => false))

/-- Discard what a team has outstanding (R324): replies are dropped, its entries drain as far as they can, and the held copies of a team that
has not committed are dropped, with what it holds for other parts. -/
def State.clearTeam (s : State) (t : Team) : State :=
  let s := s.drainSome (s.wc.filter (fun e => e.team == t.uid))
  let s := { s with
    accesses := s.accesses.filter (fun a => a.team != t.uid)
    works := s.works.filter (fun a => a.team != t.uid)
    tileops := s.tileops.filter (fun a => a.team != t.uid)
    copies := s.copies.filter (fun a => a.team != t.uid)
    sends := s.sends.filter (fun a => a.team != t.uid)
    colls := s.colls.filter (fun a => a.team != t.uid)
    objects := s.objects.filter (fun a => a.team != t.uid)
    held := if t.committed then s.held else s.held.filter (fun h => h.team != t.uid)
    heldOut := if t.committed then s.heldOut else s.heldOut.filter (fun e => e.team != t.uid)
    wc := if t.committed then s.wc else s.wc.filter (fun e => e.team != t.uid) }
  s.trimHold t.ctx

/-- A team may be run again: its kernel is idempotent or it has not committed (R324, R378). -/
def relaunchable (m : Image) (t : Team) : Bool := m.idem || !t.committed

/-- A team rejoins its launch as an unplaced team, and counts as ended no more (R288, R324, R378). -/
def State.rejoin (s : State) (t : Team) (a : Again) : State :=
  let s := (s.clearTeam t).onLaunch t.launch (fun l => { l with
    placed := l.placed.filter (fun x => x != t.tlin), ended := l.ended.filter (fun x => x != t.tlin), again := l.again ++ [a] })
  let s := match s.launch? t.launch with | some l => s.logPlace l t.tlin t.core 2 | none => s
  (((s.freeTeam t).dropTeam t.uid).oweDispatch t.ctx).oweRestores t.ctx

/-- A trap with delivery E (R221, R378, R379): the team ends and is run again, at most three times after an error, or its launch
ends with the error; a task of a boosted launch is aborted, and its fourth error, or one in an undo group (R232), is fatal. -/
def State.deliverE (s : State) (team detail : Nat) (tval : Dword) : State :=
  match s.team? team with
  | none => s
  | some t =>
    match s.imageOf t with
    | none => s
    | some m =>
      if t.killed then s else
      if t.ended then
        -- a held copy found bad at the release of a team that has ended (R270): as if the error had been taken while it ran
        if relaunchable m t && decide (t.errs < 3) then s.rejoin t ⟨t.tlin, t.errs + 1, addOnce t.core t.errCores⟩
        else (s.clearTeam t).fatal t.launch ⟨0x12, detail, t.tlin, 0, tval⟩
      else
      if t.groups.any (fun g => g.undo) || (m.boosted && decide (3 ≤ t.errs)) then s.fatal t.launch ⟨0x12, detail, t.tlin, 0, tval⟩ else
      if m.boosted then
        s.onTeam team (fun t => { t with aborting := some (t.aborting.getD 0), heldLaunches := [], errs := t.errs + 1, errCores := t.core :: t.errCores })
          |>.owe (.undoRunEnd team)
      else if relaunchable m t && decide (t.errs < 3) then s.rejoin t ⟨t.tlin, t.errs + 1, addOnce t.core t.errCores⟩
      else s.fatal t.launch ⟨0x12, detail, t.tlin, 0, tval⟩

/-- Kill teams (R324): relaunchable ones rejoin, unless `all`; every other team ends its launch with the given cause, at the lowest killed linear
index. -/
def State.killTeams (s : State) (ts : List Team) (all : Bool) (code detail : Nat) (tval : Dword) : State :=
  let again := fun (t : Team) => !all && ((s.imageOf t).map (fun m => relaunchable m t)).getD false
  let lost := ts.filter (fun t => !(again t))
  let low := fun (l : Nat) => ((sortBy (fun (t : Team) => t.tlin) (ts.filter (fun t => t.launch == l))).head?.map (fun t => t.tlin)).getD 0
  let s := (ts.filter again).foldl (fun s t => s.rejoin t ⟨t.tlin, t.errs, t.errCores⟩) s
  lost.foldl (fun s t =>
    let s := s.fatal t.launch ⟨code, detail, low t.launch, 0, tval⟩
    (s.clearTeam t).teamStopped t) s

/-- Kill a context's part on a core (R324), a pair team's with its partner core among it. -/
def State.killCore (s : State) (core ctx : Nat) (all : Bool) (code detail : Nat) (tval : Dword) : State :=
  let s := s.killTeams ((s.placedOn ctx core).filter (fun t => !t.ended)) all code detail tval
  let s := (s.leaveCore ctx core).onCoreCtx core ctx (fun c => { c with reports := [], saved := false, spill := 0, ladder := .out })
  s.leaveBanks ctx core

/-- The watchdog of a context is raised on a core (R304): its count has reached a limit that is not 0, and it is no twin that is stepped. -/
def State.dogBites (s : State) (core ctx : Nat) : Bool :=
  let limit := ((s.ctx? ctx).map (fun c => c.wdogLimit)).getD 0
  limit != 0 && decide (limit ≤ (s.coreCtx core ctx).wdog) && !(s.twins.any (fun w => w.num == ctx && w.state == .stepping))

/-- The kill of a watchdog (R325): every launch with a team there ends with the count, which starts again at 0. -/
def State.bite (s : State) (core ctx : Nat) : State :=
  (s.killCore core ctx true 0x10 0 (s.coreCtx core ctx).wdog).onCoreCtx core ctx (fun c => { c with wdog := 0 })

/-! ### Saved held copies and a vacant part (R313, R326, R330) -/

/-- A held copy of a recalled context goes to the hold save area of its die, which grows in pieces of 2 MiB, each of 8,192 copies, from the
clean pools, up to 48 MiB. None waits for a piece. -/
def State.saveCopy (s : State) (h : HeldLine) : Option State :=
  let d := homeDie (h.line * 256)
  let saved := (s.held.filter (fun x => x.ctx == h.ctx && x.place == .saved && homeDie (x.line * 256) == d)).length
  let pieces := (s.areas.filter (fun a => a.kind == .hold d && a.ctx == h.ctx)).length
  let room : Option State := if saved < 8192 * pieces then some s else if 24 ≤ pieces then none else s.drawArea (.hold d) h.ctx 32 [2 * d, 2 * d + 1]
  room.map (fun (s : State) => { s with held := s.held.map (fun x => if x = h then { x with place := .saved } else x) })

/-- Save some held copies of a context, those in held ways. None waits. -/
def State.saveCopies (s : State) (ctx : Nat) (mine : Nat → Bool) : Option State :=
  (s.held.filter (fun h => h.ctx == ctx && h.place == .way && mine h.team)).foldl (fun o h => o.bind (fun (s : State) => s.saveCopy h)) (some s)

/-- A team is on no bank of any core: it has ended and awaits its gang, or its context is swapped out wherever it is (R322). -/
def State.awayTeam (s : State) (t : Team) : Bool := t.cores.all (fun c => (s.coreCtx c t.ctx).saved && (s.coreCtx c t.ctx).ladder == .out)

/-- Save as many as the areas take of the held copies of some teams of a context that are on no bank, and so leave with no spill (R313, R326). -/
def State.saveStray (s : State) (ctx : Nat) (mine : Team → Bool) : State :=
  (s.held.filter (fun h => h.ctx == ctx && h.place == .way && ((s.team? h.team).map (fun t => mine t && s.awayTeam t)).getD true)).foldl
    (fun s h => (s.saveCopy h).getD s) s

/-- A saved copy may return to a held way (R313): its team is restored on a core, or it is on none and no recall names its context. -/
def State.mayReturn (s : State) (h : HeldLine) : Bool :=
  match s.team? h.team with
  | some t => if t.cores.isEmpty then !(s.isRecalled h.ctx) else t.cores.any (fun c => (s.core c).active == some h.ctx)
  | none => !(s.isRecalled h.ctx)

/-- Saved copies return to held ways as ways of their sets are free (R269, R313; log 62). -/
def State.fillWays (s : State) : State :=
  if s.areas.isEmpty then s else
  (s.held.filter (fun h => h.place == .saved)).foldl (fun s h =>
    if s.mayReturn h && s.wayFree (s.sliceOf h.ctx) h.line then
      ({ s with held := s.held.map (fun x => if x = h then { x with place := .way } else x) } : State).trimHold h.ctx
    else s) s

/-- The contexts of a mask. -/
def maskCtxs (mask : Dword) : List Nat := (List.range 64).filter (fun c => mask.getLsbD c)

/-- The part is vacant of a context (R330): no bank, line or tile, held way, store buffer or engine transfer holds anything of it. -/
def State.vacant (s : State) (ctx : Nat) : Bool :=
  let ts := s.teams.filter (fun t => t.ctx == ctx)
  s.cores.all (fun c => c.active != some ctx && c.shadow != some ctx) &&
  ts.all s.awayTeam &&
  s.scrubs.all (fun x => x.ctx != ctx) && s.held.all (fun h => !(h.ctx == ctx && h.place == .way)) &&
  s.wc.all (fun e => e.ctx != ctx) && (s.reqs.filterMap (fun r => r.wc)).all (fun e => e.ctx != ctx) &&
  ts.all (fun t => !(s.copies.any (fun c => c.team == t.uid && c.started)) && !(s.sends.any (fun c => c.team == t.uid)) &&
    !(s.colls.any (fun c => c.team == t.uid)) && !(s.accessions.any (fun c => c.team == t.uid)))

/-- Report each recall whose contexts the part has become vacant of, with the time, a free value (R326, R330). -/
def State.tellVacant (s : State) : State :=
  s.recalls.foldl (fun s r =>
    if !r.vacant && (maskCtxs r.mask).all s.vacant then
      { s with freeTick := s.freeTick + 1
               recalls := s.recalls.map (fun (k : RecallSt) => if k.mask = r.mask then { k with vacant := true } else k) }.send
        (.vacant r.mask (Config.freeElapsed s.freeTick))
    else s) s

end Sys2Proof.Machine
end

