-- ==== Sys2Proof/Machine/TileGeom.lean ====
section
/-!
DEFINITION. What a format word and a TILEOP's parameter block say: element widths, validity, chunk length, and the scratchpad bytes
that each operand and each tile uses (R90-R93, R162, R178, R180-R182).
-/
namespace Sys2Proof.Machine

/-! ### The format word (R92, R93) -/

/-- AFMT. -/
def fwA (fw : Word) : Nat := (fld fw 0 4).toNat
/-- BFMT. -/
def fwB (fw : Word) : Nat := (fld fw 4 4).toNat
/-- ACC: i32. -/
def fwAcc (fw : Word) : Bool := fw.getLsbD 8
/-- SBLK. -/
def fwSblk (fw : Word) : Nat := (fld fw 9 2).toNat
/-- CKSUM. -/
def fwCksum (fw : Word) : Bool := fw.getLsbD 11
/-- REUSE. -/
def fwReuse (fw : Word) : Bool := fw.getLsbD 12

/-- Bits of an element by format code; a codebook index gives 4 bits a weight in its class (R92). -/
def elemBits (code : Nat) : Nat := if code < 2 then 16 else if code = 2 ∨ code = 3 ∨ code = 5 ∨ code = 6 then 8 else 4

/-- A float format code (R92). -/
def isFloat (code : Nat) : Bool := decide (code ≤ 4) || code == 9

/-- A format that takes block scales (R90). -/
def isScaled (code : Nat) : Bool := code == 2 || code == 3 || code == 4 || code == 9

/-- The block size: 0 where there are no scales (R90, R92). -/
def blockSize (fw : Word) : Nat := match fwSblk fw with | 1 => 16 | 2 => 32 | _ => 0

/-- SBLK is as R93 allows. -/
def sblkOk (fw : Word) : Bool :=
  fwSblk fw != 3 && (fwSblk fw == 0 || isScaled (fwA fw) || isScaled (fwB fw)) && !(fwSblk fw == 0 && fwB fw == 9)

/-- A valid format word (R93). -/
def fmtValid (fw : Word) : Bool :=
  decide (fw.toNat < 2 ^ 13 ∧ fwA fw ≤ 8 ∧ fwB fw ≤ 9) && (isFloat (fwA fw) == isFloat (fwB fw)) &&
    (fwAcc fw != isFloat (fwA fw)) && sblkOk fw

/-- The chunk length Kc (R93). -/
def chunkLen (fw : Word) : Nat :=
  if elemBits (fwA fw) = 16 ∨ elemBits (fwB fw) = 16 then 16 else if elemBits (fwA fw) = 8 ∨ elemBits (fwB fw) = 8 then 32 else 64

/-- A format word of TILEOP.TRQ (R181). -/
def trqValid (fw : Word) : Bool :=
  decide (fw.toNat < 2 ^ 13 ∧ fwA fw ≤ 3 ∧ (fwB fw ≤ 4 ∨ fwB fw = 9)) && !(fwAcc fw) && !(fwCksum fw) && !(fwReuse fw) && sblkOk fw

/-- Bytes of operand B of an MMA (R162). -/
def bBytes (fw : Word) : Nat := if fwB fw = 9 then 4 * chunkLen fw else 512

/-! ### Parameter blocks (R178) -/

/-- Rows of scratchpad bytes. -/
structure Rows where
  start : Nat
  stride : Nat
  rows : Nat
  bytes : Nat
deriving DecidableEq, Repr

/-- A word of the block; after its 16 words stand the group's tolerance and the lattice table at issue (R171, R174). -/
def TileOp.w (o : TileOp) (k : Nat) : Nat := (getAt o.words k 0).toNat
/-- FMT. -/
def TileOp.fw (o : TileOp) : Word := getAt o.words 0 0
/-- MT. -/
def TileOp.mt (o : TileOp) : Nat := o.w 2 / 65536 % 256
/-- NT. -/
def TileOp.nt (o : TileOp) : Nat := o.w 2 / 256 % 256
/-- KC. -/
def TileOp.kc (o : TileOp) : Nat := o.w 2 % 256
/-- K of a GEMM (R180). -/
def TileOp.k (o : TileOp) : Nat := chunkLen o.fw * o.kc
/-- The first tile: TILE plus the base, modulo 2^32 (log 23). -/
def TileOp.first (o : TileOp) : Nat := (o.w 1 + o.base.toNat) % 2 ^ 32
/-- The tolerance that the operation compares with. -/
def TileOp.tol (o : TileOp) : Word := getAt o.words 16 0
/-- The lattice table that it decodes through. -/
def TileOp.lattice (o : TileOp) : List Word := o.words.drop 17

/-- SHAPE and the reserved words are as R178 says. -/
def TileOp.shapeOk (o : TileOp) : Bool :=
  decide (o.w 2 < 2 ^ 24 ∧ 1 ≤ o.mt ∧ o.mt ≤ 16 ∧ 1 ≤ o.nt ∧ o.nt ≤ 16 ∧ (if o.kind = 0 then 1 ≤ o.kc else o.kc = 0)) &&
    ((o.words.drop 9).take 6).all (fun x => x == 0)

/-- FMT is valid for the kind (R180-R182). -/
def TileOp.fmtOk (o : TileOp) : Bool :=
  match o.kind with
  | 0 => fmtValid o.fw && !(fwReuse o.fw)
  | 1 => trqValid o.fw
  | _ => o.fw == 0

/-- The dimensions of the tensors that take scales are multiples of the block size (R90). -/
def TileOp.dimsOk (o : TileOp) : Bool :=
  let s := blockSize o.fw
  if s = 0 then true else
  match o.kind with
  | 0 => (!(isScaled (fwA o.fw)) || decide (16 * o.mt % s = 0 ∧ o.k % s = 0)) &&
         (!(isScaled (fwB o.fw)) || decide (o.k % s = 0 ∧ 16 * o.nt % s = 0))
  | 1 => decide (16 * o.mt % s = 0 ∧ 16 * o.nt % s = 0)
  | _ => true

/-- The source operands (R178, R180, R181). -/
def TileOp.sources (o : TileOp) : List Rows :=
  let s := blockSize o.fw
  match o.kind with
  | 0 =>
    [⟨o.w 3, o.w 4, 16 * o.mt, o.k * elemBits (fwA o.fw) / 8⟩,
     (if fwB o.fw = 9 then ⟨o.w 5, o.w 6, o.k / 8, 32 * o.nt⟩ else ⟨o.w 5, o.w 6, o.k, 2 * o.nt * elemBits (fwB o.fw)⟩)] ++
    (if s != 0 && isScaled (fwA o.fw) then [⟨o.w 7, 0, 1, 16 * o.mt / s * (o.k / s)⟩] else []) ++
    (if s != 0 && isScaled (fwB o.fw) then [⟨o.w 8, 0, 1, o.k / s * (16 * o.nt / s)⟩] else [])
  | 1 =>
    [(if fwB o.fw = 9 then ⟨o.w 3, o.w 4, 2 * o.mt, 32 * o.nt⟩ else ⟨o.w 3, o.w 4, 16 * o.mt, 2 * o.nt * elemBits (fwB o.fw)⟩)] ++
    (if s != 0 then [⟨o.w 7, 0, 1, 16 * o.mt / s * (16 * o.nt / s)⟩] else [])
  | _ => []

/-- The destination operands (R181, R182). -/
def TileOp.dests (o : TileOp) : List Rows :=
  let s := blockSize o.fw
  match o.kind with
  | 1 => [⟨o.w 5, o.w 6, 16 * o.nt, 2 * o.mt * elemBits (fwA o.fw)⟩] ++
         (if s != 0 then [⟨o.w 8, 0, 1, 16 * o.mt / s * (16 * o.nt / s)⟩] else [])
  | 3 => [⟨o.w 5, o.w 6, 16 * o.mt, 64 * o.nt⟩]
  | _ => []

/-- A byte range meets some rows. -/
def Rows.meets (r : Rows) (off n : Nat) : Bool :=
  (List.range r.rows).any (fun k => decide (r.start + k * r.stride < off + n ∧ off < r.start + k * r.stride + r.bytes))

/-- Two sets of rows share a byte. -/
def Rows.meet (a b : Rows) : Bool := (List.range a.rows).any (fun k => a.bytes != 0 && b.meets (a.start + k * a.stride) a.bytes)

/-- Every row of an operation that reads or writes the scratchpad, with STATUS (R167). -/
def TileOp.rows (o : TileOp) : List Rows := o.sources ++ o.dests ++ [⟨o.block + 0x3C, 0, 1, 4⟩]

/-- The scratchpad lines of a byte range, none for an empty one. -/
def rangeLines (off n : Nat) : List Nat :=
  if n = 0 then [] else (List.range ((off + n - 1) / 256 - off / 256 + 1)).map (fun k => off / 256 + k)

/-- The lines of some byte ranges, ascending, each once. -/
def rangesLines (rs : List (Nat × Nat)) : List Nat :=
  sortBy id (((rs.map (fun r => rangeLines r.1 r.2)).flatten).foldl (fun acc x => addOnce x acc) [])

/-- The lines that a tile uses, in the engine's order (R182): its scale bytes, its A lines, its B lines. -/
def TileOp.tileLines (o : TileOp) (mi ni : Nat) : List Nat :=
  let s := blockSize o.fw
  let ab := elemBits (fwA o.fw)
  let bb := elemBits (fwB o.fw)
  let r16 := List.range 16
  match o.kind with
  | 0 =>
    let sa := if s != 0 && isScaled (fwA o.fw) then
        (r16.map (fun i => (o.w 7 + (16 * mi + i) / s * (o.k / s), o.k / s))) else []
    let sb := if s != 0 && isScaled (fwB o.fw) then
        ((List.range (o.k / s)).map (fun kb => r16.map (fun j => (o.w 8 + kb * (16 * o.nt / s) + (16 * ni + j) / s, 1)))).flatten else []
    let as := r16.map (fun i => (o.w 3 + (16 * mi + i) * o.w 4, o.k * ab / 8))
    let bs := if fwB o.fw = 9 then (List.range (o.k / 8)).map (fun q => (o.w 5 + q * o.w 6 + 32 * ni, 32))
              else (List.range o.k).map (fun k => (o.w 5 + k * o.w 6 + 2 * ni * bb, 2 * bb))
    rangesLines (sa ++ sb) ++ rangesLines as ++ rangesLines bs
  | 1 =>
    let sc := if s != 0 then (r16.map (fun i => r16.map (fun j =>
          [(o.w 7 + (16 * mi + i) / s * (16 * o.nt / s) + (16 * ni + j) / s, 1),
           (o.w 8 + (16 * ni + j) / s * (16 * o.mt / s) + (16 * mi + i) / s, 1)]))).flatten.flatten else []
    let as := if fwB o.fw = 9 then [(o.w 3 + 2 * mi * o.w 4 + 32 * ni, 32), (o.w 3 + (2 * mi + 1) * o.w 4 + 32 * ni, 32)]
              else r16.map (fun i => (o.w 3 + (16 * mi + i) * o.w 4 + 2 * ni * bb, 2 * bb))
    let bs := r16.map (fun j => (o.w 5 + (16 * ni + j) * o.w 6 + 2 * mi * ab, 2 * ab))
    rangesLines sc ++ rangesLines as ++ rangesLines bs
  | 3 => rangesLines (r16.map (fun i => (o.w 5 + (16 * mi + i) * o.w 6 + 64 * ni, 64)))
  | _ => []

/-- The tiles in the engine's visiting order (R180). -/
def TileOp.order (o : TileOp) : List (Nat × Nat) :=
  ((List.range o.mt).map (fun mi => (List.range o.nt).map (fun ni => (mi, ni)))).flatten

/-- A scratchpad access of a group meets bytes that one of its TILEOPs still reads or writes, or that its other matrix work is still to
write (R167). -/
def State.tileMeets (s : State) (team grp off n : Nat) : Bool :=
  s.tileops.any (fun o => o.team == team && o.grp == grp && o.rows.any (fun r => r.meets off n)) ||
  s.works.any (fun w => w.team == team && w.grp == grp && w.writes.any (fun x => decide (x.1 < off + n ∧ off < x.1 + x.2.length)))

/-- The scratchpad line of a tile's checksum state: outside every window (R159), numbered from 65,536 here. -/
def checksumLine (n : Nat) : Nat := 65536 + n

/-- The core whose engine performs a tile's operations (R157). -/
def Team.tileCore (t : Team) (n : Nat) : Nat := if t.pair && decide (1024 ≤ n) then t.core + 1 else t.core

/-- The cores whose engines a TILEOP of a team uses (R157). -/
def TileOp.cores (o : TileOp) (t : Team) : List Nat :=
  o.order.foldl (fun acc x => addOnce (t.tileCore (o.first + x.1 * o.nt + x.2)) acc) []

end Sys2Proof.Machine
end

