-- ==== Sys2Proof/Machine/Access.lean ====
section
/-!
DEFINITION. What every memory instruction shares at issue: the checks of R135 in their order, the ordering waits, watchpoints,
and starting an access that completes later (R135, R141, R142, R146, R147, R268, R337).
-/
namespace Sys2Proof.Machine

open Host (Outcome)

/-- Why an instruction does not go on at issue: it traps, or it waits with a stall reason after a change of state. -/
inductive Stop
  | trap (t : Trap)
  | wait (reason : Nat) (s : State)

/-- Go on unless something stops the instruction. -/
def Issue.unless (i : Issue) (s : State) (o : Option Stop) (k : Outcome State Fault Refusal) : Outcome State Fault Refusal :=
  match o with
  | some (.trap t) => i.raise t s
  | some (.wait r s') => i.stall r s'
  | none => k

/-- The lanes in which the instruction takes effect, ascending. -/
def Issue.taking (i : Issue) (g : Guard) : List Nat := lanesOf (i.effect g) i.width

/-- The first lane that meets a test, as a trap. -/
def firstTrap (xs : List (Nat × Dword)) (p : Nat × Dword → Bool) (t : Dword → Trap) : Option Stop :=
  (xs.find? p).map (fun x => .trap (t x.2))

/-- Row 1 of R135. -/
def misStop (xs : List (Nat × Dword)) (n : Nat) : Option Stop :=
  firstTrap xs (fun x => x.2.toNat % n != 0) (fun a => Trap.misaligned a.toNat)

/-- Row 3 of R135: in deterministic mode a scope field holds 3-6. -/
def Issue.detStop (i : Issue) (xs : List (Nat × Dword)) (scope : Nat) : Option Stop :=
  if i.image.det && decide (3 ≤ scope) then firstTrap xs (fun _ => true) (fun a => ⟨0x0A, 0, a⟩) else none

/-! ### Global addresses: rows 6 to 8, the allowlist and poison -/

/-- The translation of a lane's address in the issuing context. -/
def Issue.xlate (i : Issue) (s : State) (va : Dword) (u : Use) : Xlate := s.translate i.team.ctx va u

/-- Row 6 of R135: no translation, or one that the host refused while the group was parked (R274). -/
def Issue.pageStop (i : Issue) (s : State) (xs : List (Nat × Dword)) (u : Use) : Option Stop :=
  firstTrap xs (fun x => match i.xlate s x.2 u with
    | .fault => true
    | .replay => i.grp.refused.contains (pageOf x.2)
    | _ => false) (fun a => Trap.page a.toNat (u != .read))

/-- Row 7 of R135: the group parks on the pages that the host can supply (R274). -/
def Issue.parkStop (i : Issue) (s : State) (xs : List (Nat × Dword)) (u : Use) : Option Stop :=
  let ps := (xs.filter (fun x => i.xlate s x.2 u == .replay)).map (fun x => pageOf x.2)
  if ps.isEmpty then none else
    let s := ps.foldl (fun s p => s.recordFault i.team.ctx p u) s
    some (.wait 12 (s.onGroup i.cur.team i.cur.grp (fun g => { g with parked := ps })))

/-- An earlier store of the group to some of these bytes is still to be performed, so what they will hold is not known yet (R141). -/
def State.storesTo (s : State) (team grp : Nat) (l : Loc) (n : Nat) : Bool :=
  s.accesses.any (fun a => a.team == team && a.grp == grp && (match a.kind with | .store => true | .release _ => true | _ => false) &&
    a.lanes.any (fun x => x.loc.part == l.part && decide (x.loc.pa < l.pa + n ∧ l.pa < x.loc.pa + a.size)))

/-- A lane would read poisoned bytes at a home of this part (R271), and whether a store of its group is still to reach them. -/
def Issue.meetsPoison (i : Issue) (s : State) (u : Use) (n : Nat) (x : Nat × Dword) : Option Bool :=
  match i.xlate s x.2 u with
  | .ok l => if l.part == s.part && s.poisonedFor i.cur.team i.team.ctx i.grp.core l.pa n then some (s.storesTo i.cur.team i.cur.grp l n) else none
  | _ => none

/-- Row 8 of R135, then the allowlist of a metered page (R391), then poison at a home of this part (R271): bytes that a store of the group
is still to reach are looked at once it has. -/
def Issue.denyStop (i : Issue) (s : State) (xs : List (Nat × Dword)) (u : Use) (n : Nat) : Option Stop :=
  (firstTrap xs (fun x => i.xlate s x.2 u == .deny) (fun a => Trap.access 0x04 a.toNat)).orElse (fun _ =>
  (firstTrap xs (fun x => match i.xlate s x.2 u with | .ok l => s.meterRefuses l i.image.meas | _ => false)
    (fun a => Trap.access 0x0C a.toNat)).orElse (fun _ =>
  if u = .write then none else
    (firstTrap xs (fun x => i.meetsPoison s u n x == some false) (fun a => Trap.access 0x0B a.toNat)).orElse (fun _ =>
      if xs.any (fun x => (i.meetsPoison s u n x).isSome) then some (.wait 6 s) else none)))

/-- Rows 1, 3 and 6 to 8 of R135 for global accesses of `n` bytes. -/
def Issue.globalStop (i : Issue) (s : State) (xs : List (Nat × Dword)) (n scope : Nat) (u : Use) : Option Stop :=
  (misStop xs n).orElse (fun _ => (i.detStop xs scope).orElse (fun _ => (i.pageStop s xs u).orElse (fun _ =>
    (i.parkStop s xs u).orElse (fun _ => i.denyStop s xs u n))))

/-- Where a lane's address lies, once the checks have passed. -/
def Issue.locOf (i : Issue) (s : State) (va : Dword) (u : Use) : Loc :=
  match i.xlate s va u with
  | .ok l => l
  | _ => ⟨s.part, 0, false, false, none, false⟩

/-! ### The hold quota (R142, R268, R269) -/

/-- No die-cache line is allocated: NC, MET, or host memory of this part (R268). -/
def State.unheld (s : State) (l : Loc) : Bool := l.nc || l.met || (l.part == s.part && decide (Config.hostBase ≤ l.pa))

/-- The line of a location as the quota counts it: part × 2^44 and the physical line at which a store of the context takes effect. -/
def State.quotaLine (s : State) (ctx : Nat) (l : Loc) : Nat :=
  l.part * 2 ^ 44 + (if l.part = s.part then s.placeFor ctx l.pa else l.pa) / 256

/-- The copies that keep a new copy of a line of a team from a way (R269): those of its slice in the set, when the slice may hold no more there, else those
of other slices that stand in its ways. -/
def State.crowd (s : State) (t : Team) (q : Nat) : Option (List (Nat × Nat × Nat)) :=
  let line := q % 2 ^ 44
  let slice := s.sliceOf t.ctx
  if q / 2 ^ 44 ≠ s.part ∨ t.quota.contains q ∨ s.held.any (fun h => h.team == t.uid && h.line == line) ∨ s.wayFree slice line then none
  else
    let inSet := s.copiesIn line
    let own := inSet.filter (fun h => s.sliceOf h.2.1 == slice)
    some (if own.length < s.heldBound slice line then inSet else own)

/-- The copy that a store of a deterministic launch displaces to its context's hold overflow area of the stack (R294): of a team of a later
gang that has ended and awaits its retirement, while the area has room. -/
def State.displaced (s : State) (t : Team) (q : Nat) : Option HeldLine :=
  if !(((s.imageOf t).map (fun m => m.det)).getD false) then none else
  s.held.find? (fun h => h.place == .way && sameSet h.line (q % 2 ^ 44) &&
    s.teams.any (fun u => u.uid == h.team && u.ended && u.launch == t.launch && decide (t.gang < u.gang)) &&
    decide ((s.held.filter (fun k => k.place == .overflow && k.ctx == t.ctx && k.line * 256 / 2 ^ 36 == h.line * 256 / 2 ^ 36)).length < 262144))

/-- A new held copy of a line finds no way (R269): `some true` when all of the set's belong to the storing team. -/
def State.waysFull (s : State) (t : Team) (q : Nat) : Option Bool :=
  match s.crowd t q with
  | none => none
  | some hs => if (s.displaced t q).isSome then none else some (hs.all (fun h => h.1 == t.uid))

/-- Make room for a team's new held copy of a line where R294 displaces one. -/
def State.makeWay (s : State) (t : Team) (q : Nat) : State :=
  match s.crowd t q, s.displaced t q with
  | some _, some h => { s with held := s.held.map (fun (k : HeldLine) => if k = h then { k with place := .overflow } else k) }
  | _, _ => s

/-- What the hold quota says of a store (R135 row 9, R142, R268, R269): `lane` counts the locations before the one that fails. -/
inductive Quota
  | ok
  | commit
  | trap (lane detail : Nat)
  | wait
deriving DecidableEq, Repr

/-- The quota's answer to one location of a team that has not committed, whose line is `q`. -/
def State.quotaOne (s : State) (t : Team) (hold : Nat) (strict : Bool) (k : Nat) (l : Loc) (q : Nat) : Quota :=
  if s.unheld l then (if strict then .trap k 0x02 else .commit) else
  if decide (hold < 256 * (addOnce q t.quota).length) || s.waysFull t q == some true then (if strict then .trap k 0x00 else .commit)
  else if s.waysFull t q == some false then .wait else .ok

/-- Count a line on a team's hold quota. -/
def Team.count (t : Team) (q : Nat) : Team := { t with quota := addOnce q t.quota }

/-- Count a line on the hold quota of a team, once there is a way for its copy. -/
def State.countLineOn (s : State) (u q : Nat) : State :=
  match s.team? u with
  | some t => (s.makeWay t q).onTeam u (fun t => t.count q)
  | none => s

/-- The quota's answer to the locations of a store in turn, the lines of the earlier ones counted: the first that fails decides, and else
one that finds no way waits. -/
def State.quotaLanes (s : State) (t : Team) (hold : Nat) (strict : Bool) : Nat → List Loc → Quota
  | _, [] => .ok
  | k, l :: ls =>
    let t' := t.count (s.quotaLine t.ctx l)
    let rest := fun (_ : Unit) => ((s.makeWay t (s.quotaLine t.ctx l)).onTeam t.uid (fun _ => t')).quotaLanes t' hold strict (k + 1) ls
    match s.quotaOne t hold strict k l (s.quotaLine t.ctx l) with
    | .ok => rest ()
    | .wait => match rest () with | .ok => .wait | r => r
    | r => r

/-- The quota test of a store or atomic to some locations. -/
def Issue.quota (i : Issue) (s : State) (ls : List Loc) : Quota :=
  if i.team.committed then .ok else s.quotaLanes i.team i.image.hold i.image.strict 0 ls

/-- Row 9 of R135, and then a release at scope 3-6 of a strict-relaunch team (R147). That order is the model's (log 98). A release that commits the team
needs no way. -/
def Issue.quotaStop (i : Issue) (s : State) (xs : List (Nat × Dword)) (u : Use) (scope : Nat) : Option Stop :=
  match i.quota s (xs.map (fun x => i.locOf s x.2 u)) with
  | .trap k d => firstTrap (xs.drop k) (fun _ => true) (fun a => ⟨0x13, d, a⟩)
  | q => if q = .wait ∧ scope < 3 then some (.wait 6 s) else if i.image.strict && !i.team.committed && decide (3 ≤ scope) then firstTrap xs (fun _ => true) (fun a => ⟨0x13, 0x01, a⟩) else none

/-- Charge the store's lines, or commit the team where the quota or the release's scope says so (R142, R147); none waits. -/
def Issue.charge (i : Issue) (s : State) (ls : List Loc) (scope : Nat) : Option State :=
  if i.team.committed then some s else
  if (i.quota s ls == .commit) || decide (3 ≤ scope) then s.commit i.cur.team
  else some (ls.foldl (fun s' l => s'.countLineOn i.cur.team (s.quotaLine i.team.ctx l)) s)

/-! ### Scratchpad: rows 2, 4 and 5 -/

/-- The scratchpad lines of some bytes. -/
def linesOf (off n : Nat) : List Nat := (List.range ((off + max n 1 - 1) / 256 - off / 256 + 1)).map (fun k => off / 256 + k)

/-- The record of an absent line. -/
def Team.absentLine? (t : Team) (line : Nat) : Option AbsentLine := t.absent.find? (fun a => a.line == line)

/-- A line is absent and pending. -/
def Team.isPending (t : Team) (line : Nat) : Bool := ((t.absentLine? line).map (fun a => a.pending)).getD false

/-- A line is absent and not pending. -/
def Team.isUnfilled (t : Team) (line : Nat) : Bool := ((t.absentLine? line).map (fun a => !a.pending)).getD false

/-- Row 2 of R135. -/
def Issue.windowStop (i : Issue) (xs : List (Nat × Nat)) (n : Nat) : Option Stop :=
  (xs.find? (fun x => decide (i.image.scratch < x.2 + n))).map (fun x => .trap (Trap.access 0x03 x.2))

/-- Rows 4 and 5 of R135: a lapse that met the group while it waited (R208), UNFILLED_LINE, or a wait for pending lines. -/
def Issue.lineStop (i : Issue) (s : State) (xs : List (Nat × Nat)) (n : Nat) : Option Stop :=
  let lapse := i.grp.lapse.bind (fun x => if x.2.2.2 = i.cur.exec then some (x.1, x.2.1, x.2.2.1) else none)
  match lapse, xs.find? (fun x => (linesOf x.2 n).any i.team.isUnfilled) with
  | some (c, d, v), _ => if xs.isEmpty then none else some (.trap ⟨c, d, v⟩)
  | none, some x => some (.trap (Trap.unfilled x.2))
  | none, none =>
    let ps := ((xs.map (fun x => linesOf x.2 n)).flatten).filter i.team.isPending
    if ps.isEmpty then none else some (.wait 4 (s.onGroup i.cur.team i.cur.grp (fun g => { g with lineWait := ps })))

/-- A byte range of scratchpad meets the rows of one side of a copy slice. -/
def rowsMeet (start stride rows rb off n : Nat) : Bool :=
  (List.range rows).any (fun r => decide (start + r * stride < off + n ∧ off < start + r * stride + rb))

/-- A scratchpad access meets a byte that an unfinished slice reads or writes (R191). -/
def State.sliceMeets (s : State) (team off n : Nat) : Bool :=
  (s.copies.filter (fun c => c.team == team)).any (fun c => c.slices.any (fun sl =>
    let w := fun k => (getAt sl.record k 0).toNat
    !sl.ended && w 3 != 0 &&
      (rowsMeet (w 2) (w 6) (w 4) (w 3) off n || (w 7 % 4 == 2 && rowsMeet (w 0) (w 5) (w 4) (w 3) off n))))

/-- Some bytes meet the lines of an ACCESSION that the engine has not read yet (R209). -/
def State.accessionMeets (s : State) (team off n : Nat) : Bool :=
  s.accessions.any (fun a => a.team == team && decide (a.offset < off + n ∧ off < a.offset + 4096))

/-- Rows 1, 2, 4 and 5 of R135 for scratchpad accesses of `n` bytes, then the waits for a slice's bytes (R191), for a store the wait for
an ACCESSION's lines (R209), and the wait for matrix work on the bytes (R167). -/
def Issue.scratchStop (i : Issue) (s : State) (xs : List (Nat × Nat)) (n : Nat) (write : Bool) : Option Stop :=
  (misStop (xs.map (fun x => (x.1, BitVec.ofNat 64 x.2))) n).orElse (fun _ => (i.windowStop xs n).orElse (fun _ =>
    (i.lineStop s xs n).orElse (fun _ =>
      if xs.any (fun x => s.sliceMeets i.cur.team x.2 n || (write && s.accessionMeets i.cur.team x.2 n)) then some (.wait 6 s) else
      if xs.any (fun x => s.tileMeets i.cur.team i.cur.grp x.2 n) then some (.wait 11 s) else none)))

/-! ### Ordering waits (R146, R150) -/

/-- An earlier LDA or ATOM of the group has not completed (R146, R149). -/
def State.acquiring (s : State) (i : Issue) : Bool :=
  s.accesses.any (fun a => a.team == i.cur.team && a.grp == i.cur.grp &&
    (match a.kind with | .acquire _ => true | .atomic _ _ => true | _ => false))

/-- An earlier access of the group is outstanding. -/
def State.outstanding (s : State) (team grp : Nat) : Bool := s.accesses.any (fun a => a.team == team && a.grp == grp && a.kind != .packet)

/-- Nothing is left that a release at a scope of a core's team waits for, once its group's accesses have completed (R146): no entry that
it drains, no request whose completion it awaits, and at scope 3-6 nothing that the team held for another part (R242). -/
def State.releaseDone (s : State) (core team scope : Nat) : Bool :=
  (s.drainsFor core team scope).isEmpty && !(s.awaits core team scope) && !(decide (3 ≤ scope) && s.heldOut.any (fun e => e.team == team))

/-- Drain what a release at a scope drains; at scope 3-6 what the team holds for other parts is released first (R242). -/
def State.releaseDrain (s : State) (core team scope : Nat) : State :=
  let s := if decide (3 ≤ scope) && s.heldOut.any (fun e => e.team == team) then (s.commit team).getD s else s
  s.drainSome (s.drainsFor core team scope)

/-- The waits of a release at a scope (R146): the group's earlier accesses complete, the entries drain, and their completions
arrive. Answers the state after the drains when nothing is left to wait for. -/
def State.releaseWait (s : State) (i : Issue) (scope : Nat) : Except State State :=
  if s.outstanding i.cur.team i.cur.grp then .error s else
  let s := s.releaseDrain i.grp.core i.cur.team scope
  if s.releaseDone i.grp.core i.cur.team scope then .ok s else .error s

/-- A later store or atomic waits for what an earlier FENCE.REL covers (R150). -/
def State.fenceWait (s : State) (i : Issue) : Except State State :=
  match i.grp.frel with
  | none => .ok s
  | some (scope, ids) =>
    if s.accesses.any (fun a => ids.contains a.id) then .error s else
    let s := s.releaseDrain i.grp.core i.cur.team scope
    if s.releaseDone i.grp.core i.cur.team scope then .ok (s.onGroup i.cur.team i.cur.grp (fun g => { g with frel := none }))
    else .error s

/-- Go on after a wait that records stall reason 6. -/
def Issue.after (i : Issue) (e : Except State State) (k : State → Outcome State Fault Refusal) : Outcome State Fault Refusal :=
  match e with
  | .ok s => k s
  | .error s => i.stall 6 s

/-! ### Watchpoints (R337) -/

/-- The scope of an access's acquire. -/
def AccKind.acquireScope : AccKind → Nat
  | .acquire c => c
  | .atomic _ c => c
  | .await c => c
  | _ => 0

/-- The watchpoint that a lane's access matches: the kinds are writes 0b01 and reads 0b10 (R337). -/
def Ctx.watchpoint (c : Ctx) (va n : Nat) (reads writes : Bool) : Option Nat :=
  (List.range 4).find? (fun k =>
    let w := getAt c.wp k 0
    let len := (w.extractLsb' 57 5).toNat
    let base := (w.extractLsb' 0 57).toNat / 2 ^ len * 2 ^ len
    let a := va % 2 ^ 57
    decide (len ≤ 20) && ((writes && w.getLsbD 62) || (reads && w.getLsbD 63)) && decide (base < a + n ∧ a < base + 2 ^ len))

/-- TWINCTL.EN, with OVLSZ 0 acting as 0 (R338). -/
def Ctx.twinOn (c : Ctx) : Bool := c.twinctl.getLsbD 31 && (fld c.twinctl 0 13) != 0#13

/-- A match that asks the arbiter for a twin: the group pauses, and owes the arbiter's decision (R339). -/
def State.claim (s : State) (ctx : Nat) (c : Claim) (pause : Bool) : State :=
  let s := s.onCtx ctx (fun x => { x with claims := x.claims ++ [c] })
  let s := if pause then s.onGroup c.team c.grp (fun g => { g with wait := .claim }) else s
  s.owe (.twinClaim ctx)

/-- The core has taken its cut for a twin being forked, so what it sends carries the cut mark (R340). -/
def State.marksCut (s : State) (ctx core : Nat) : Bool :=
  match s.twinOf? ctx with
  | some w => w.state == .cutting && w.cutCores.contains core
  | none => false

/-- What an access that would match a watchpoint still waits for (R337): the queue of a migrating page, the promotion of a release that its acquire
meets, the overlay of a twin that its write would fill, and of an atomic at another part what it waits for before its requests leave. None when nothing; the state
says what has been begun. A wait of such an atomic at its home comes after the test (log 100). -/
def Issue.watchWait (i : Issue) (s : State) (xs : List (Nat × Dword)) (u : Use) (acq : Nat) : Option State :=
  let all := xs.map (fun x => i.locOf s x.2 u)
  let ls := all.filter (fun l => l.part == s.part)
  let far := all.filter (fun l => l.part != s.part)
  let lines := fun (e : WcEntry) => e.core == i.grp.core && e.team == i.cur.team && far.any (fun l => l.part == e.part && l.pa / 256 == e.line)
  if ls.any (fun l => (s.queueing? l.pa).isSome) then some s else
  if u != .read && i.team.committed && ls.any (fun l => (s.copyOld (s.placeFor i.team.ctx l.pa) s.twins).isNone) then some s else
  if u == .atomic && s.wc.any lines then some ((s.drainAll (s.wc.filter lines)).getD s) else
  if u == .atomic && (s.reqs.any (fun r => (r.wc.map lines).getD false) || !(far.all (fun l => s.mayRequest 3 i.grp.core l.part l.pa))) then some s else
  match s.serveMarks (if s.marksCut i.team.ctx i.grp.core then some i.team.ctx else none) s.part i.grp.core i.cur.team acq
      (ls.foldl (fun acc l => addOnce (l.pa / 256) acc) []) with
  | none => some s
  | some (s', done) => if done && s' = s then none else some s'

/-- The watchpoint that an access matches, with the lane's address (R337). The accesses of a twin never match. -/
def Issue.watchHit (i : Issue) (s : State) (xs : List (Nat × Dword)) (n : Nat) (u : Use) : Option (Nat × Dword) :=
  match s.ctx? i.team.ctx with
  | none => none
  | some c =>
    if c.twinOf.isSome || i.grp.twinPass then none else
    xs.findSome? (fun x => (c.watchpoint x.2.toNat n (u != .write) (u != .read)).map (fun k => (k, x.2)))

/-- A match raises BREAK, or claims a twin and pauses (R337, R339, R222). -/
def Issue.watchTake (i : Issue) (s : State) (k : Nat) (va : Dword) : Stop :=
  if ((s.ctx? i.team.ctx).map (fun c => c.twinOn)).getD false then
    let s := s.claim i.team.ctx ⟨i.cur.team, i.cur.grp, 0x20 + k, i.cur.pc, s.gid i.team.ctx i.grp, va⟩ true
    .wait 15 (s.onGroup i.cur.team i.cur.grp (fun g => { g with twinPass := true }))
  else .trap ⟨0x0E, 0x20 + k, va⟩

/-- The watchpoint test before an access is performed (R337), once the access has left every wait. -/
def Issue.watchStop (i : Issue) (s : State) (xs : List (Nat × Dword)) (n : Nat) (u : Use) (acq : Nat) : Option Stop :=
  match i.watchHit s xs n u with
  | none => none
  | some (k, va) =>
    match i.watchWait s xs u acq with
    | some s' => some (.wait 6 s')
    | none => some (i.watchTake s k va)

/-- A read at another part is tested for watchpoints when its answers have come: only then has it left every wait (R337). -/
def Issue.watchLate (i : Issue) (s : State) (xs : List (Nat × Dword)) : Bool :=
  xs.any (fun x => (i.locOf s x.2 .read).part != s.part) && !(s.quarantined i.team.ctx)

/-! ### Starting an access -/

/-- Bump a load counter (R138). -/
def Group.bump (g : Group) (c : Option Nat) : Group :=
  match c with | some k => { g with ctrs := setAt g.ctrs k (getAt g.ctrs k 0 + 1) } | none => g

/-- A load counter at 63 holds the instruction back (R18), reason 3. -/
def Issue.counterStop (i : Issue) (s : State) (c : Option Nat) : Option Stop :=
  match c with | some k => if 63 ≤ getAt i.grp.ctrs k 0 then some (.wait 3 s) else none | none => none

/-- Issue an access that completes later (R138, R139, R149): the counter is bumped, the registers it will write are interlocked,
the executing lanes advance, and its completion is owed. -/
def Issue.begin (i : Issue) (kind : AccKind) (ctr : Option Nat) (dst dstN size : Nat) (signed : Bool) (lanes : List LaneAcc)
    (got : List (Nat × List Byte × Nat)) (s : State) : Outcome State Fault Refusal :=
  let a : Access := ⟨s.nextId, i.cur.team, i.cur.grp, i.grp.core, kind, ctr, i.grp.wb + dst, dstN, size, signed, i.cur.pc, lanes,
    i.cur.exec, got, false, s.marksCut i.team.ctx i.grp.core⟩
  let s := { s with nextId := s.nextId + 1, accesses := s.accesses ++ [a] }.owe a.event
  i.retire (fun g => g.bump ctr) s

/-- Issue a load or atomic: where a home of another part may refuse it, which raises a precise trap (R271, R370), its issue goes on only with the answers
(log 17); a twin that has not been released goes on without them (R348). -/
def Issue.beginRead (i : Issue) (kind : AccKind) (ctr : Option Nat) (dst dstN size : Nat) (signed : Bool) (lanes : List LaneAcc)
    (s : State) : Outcome State Fault Refusal :=
  if lanes.all (fun x => x.loc.part == s.part) || s.quarantined i.team.ctx then i.begin kind ctr dst dstN size signed lanes [] s else
  let a : Access := ⟨s.nextId, i.cur.team, i.cur.grp, i.grp.core, kind, none, i.grp.wb + dst, dstN, size, signed, i.cur.pc, lanes,
    i.cur.exec, [], false, s.marksCut i.team.ctx i.grp.core⟩
  i.stall 15 (({ s with nextId := s.nextId + 1, accesses := s.accesses ++ [a] }.owe a.event).onGroup i.cur.team i.cur.grp
    (fun g => { g with wait := .reply i.cur.exec }))

/-! ### The team's own bytes at other parts (R141, R241, R242, R367) -/

/-- What a team on a core has written to another part that has not been performed there, youngest first: its write-combining entries, those sent and
not answered yet, and what it holds. -/
def State.ownFar (s : State) (team core part : Nat) : List WcEntry :=
  let mine := fun (e : WcEntry) => e.core == core && e.team == team && e.part == part
  s.wc.filter mine ++ ((s.reqs.filterMap (fun r => r.wc)).filter mine).reverse ++ s.heldOut.filter (fun e => e.team == team && e.part == part)

/-- The bytes of another part as a team on a core reads them: what it has written itself over the home's answer. -/
def State.overOwn (s : State) (team core part pa : Nat) (reply : List Byte) (n : Nat) : List Byte :=
  let mine := s.ownFar team core part
  (List.range n).map (fun k => (mine.findSome? (fun e => cellAt (pa + k) e.cells)).getD (getAt reply k 0))

end Sys2Proof.Machine
end

