-- ==== Sys2Proof/Machine/Num.lean ====
section
/-!
DEFINITION. Number formats, rounding, overflow and exact arithmetic on their values (R79-R86, R94, R118-R122), and codebook
weights (R88).
-/
namespace Sys2Proof.Machine

/-- A floating format: significand bits after the point, bias, bits, greatest finite pattern, canonical NaN and infinity (R79). -/
structure Fmt where
  mant : Nat
  bias : Nat
  bits : Nat
  maxPat : Nat
  nan : Nat
  inf : Option Nat
deriving DecidableEq, Repr

/-- FP32 (R79). -/
def Fmt.f32 : Fmt := ⟨23, 127, 32, 0x7F7FFFFF, 0x7FC00000, some 0x7F800000⟩
/-- FP16 (R79). -/
def Fmt.f16 : Fmt := ⟨10, 15, 16, 0x7BFF, 0x7E00, some 0x7C00⟩
/-- BF16 (R79). -/
def Fmt.bf16 : Fmt := ⟨7, 127, 16, 0x7F7F, 0x7FC0, some 0x7F80⟩
/-- E4M3: no infinity, one NaN pattern for each sign (R79). -/
def Fmt.e4m3 : Fmt := ⟨3, 7, 8, 0x7E, 0x7F, none⟩
/-- E5M2 (R79). -/
def Fmt.e5m2 : Fmt := ⟨2, 15, 8, 0x7B, 0x7E, some 0x7C⟩
/-- E2M1: sixteen finite values; a NaN converted to it gives +0 (R79, R82). -/
def Fmt.e2m1 : Fmt := ⟨1, 1, 4, 0x7, 0x0, none⟩

/-- A value: NaN, an infinity, or ±m × 2^e exactly. -/
inductive Val
  | nan
  | inf (neg : Bool)
  | fin (neg : Bool) (m : Nat) (e : Int)
deriving DecidableEq, Repr

/-- The sign bit of a format's pattern. -/
def Fmt.signBit (f : Fmt) : Nat := 2 ^ (f.bits - 1)

/-- The value of a bit pattern (R79). -/
def Fmt.decode (f : Fmt) (x : Nat) : Val :=
  let neg := decide (f.signBit ≤ x)
  let p := x % f.signBit
  match f.inf with
  | some i =>
    if p = i then .inf neg else if i < p then .nan else
      if p < 2 ^ f.mant then .fin neg p (1 - (f.bias : Int) - (f.mant : Int))
      else .fin neg (2 ^ f.mant + p % 2 ^ f.mant) (((p / 2 ^ f.mant : Nat) : Int) - (f.bias : Int) - (f.mant : Int))
  | none =>
    if f.maxPat < p then .nan else
      if p < 2 ^ f.mant then .fin neg p (1 - (f.bias : Int) - (f.mant : Int))
      else .fin neg (2 ^ f.mant + p % 2 ^ f.mant) (((p / 2 ^ f.mant : Nat) : Int) - (f.bias : Int) - (f.mant : Int))

/-- The four rounding modes (R84). -/
inductive RMode
  | rne | rz | ru | rd
deriving DecidableEq, Repr

/-- RM of sr.fpm (R32). -/
def RMode.ofBits (b : BitVec 2) : RMode :=
  match b.toNat with | 0 => .rne | 1 => .rz | 2 => .ru | _ => .rd

/-- Bits of a number: 0 for 0. -/
def bitLen (m : Nat) : Nat := if m = 0 then 0 else Nat.log2 m + 1

/-- Whether a magnitude cut to `n` with remainder `rem` of `2^sh` (and something smaller below when `sticky`) rounds up (R84). -/
def roundsUp (rm : RMode) (neg : Bool) (n rem sh : Nat) (sticky : Bool) : Bool :=
  let inexact := rem != 0 || sticky
  match rm with
  | .rz => false
  | .ru => inexact && !neg
  | .rd => inexact && neg
  | .rne =>
    if sh = 0 then false else
      let half := 2 ^ (sh - 1)
      decide (half < rem) || (rem == half && (sticky || n % 2 == 1))

/-- The pattern of a signed magnitude pattern. -/
def Fmt.signed (f : Fmt) (neg : Bool) (p : Nat) : Nat := if neg then f.signBit + p else p

/-- A result whose rounded magnitude exceeds the greatest finite value (R85). -/
def Fmt.overflow (f : Fmt) (rm : RMode) (sat neg : Bool) : Nat :=
  let toInf := match rm with | .rne => true | .rz => false | .ru => !neg | .rd => neg
  if sat || !toInf || f.bits == 4 then f.signed neg f.maxPat else
    match f.inf with
    | some i => f.signed neg i
    | none => f.nan

/-- Round ±(m, and something smaller below when `sticky`) × 2^e to a format (R84, R85). With `sticky`, `m` must have at least
two bits more than the format's significand. -/
def Fmt.roundMag (f : Fmt) (rm : RMode) (sat neg : Bool) (m : Nat) (e : Int) (sticky : Bool) : Nat :=
  if m = 0 then f.signed neg 0 else
    let emin : Int := 1 - (f.bias : Int) - (f.mant : Int)
    let q := max (e + (bitLen m : Int) - ((f.mant : Int) + 1)) emin
    let sh := q - e
    let n := if 0 < sh then m / 2 ^ sh.toNat else m * 2 ^ (-sh).toNat
    let rem := if 0 < sh then m % 2 ^ sh.toNat else 0
    let n' := if roundsUp rm neg n rem sh.toNat sticky then n + 1 else n
    let pat := if n' < 2 ^ f.mant then n' else (q - emin).toNat * 2 ^ f.mant + n'
    if f.maxPat < pat then f.overflow rm sat neg else f.signed neg pat

/-- Encode a value, rounding once (R84-R86). A NaN is canonical, an infinity overflows where the format has none. -/
def Fmt.encode (f : Fmt) (rm : RMode) (sat : Bool) (v : Val) : Nat :=
  match v with
  | .nan => f.nan
  | .inf neg =>
    if sat || f.bits == 4 then f.signed neg f.maxPat else
      match f.inf with | some i => f.signed neg i | none => f.nan
  | .fin neg m e => f.roundMag rm sat neg m e false

/-- A signed integer at an exponent, as a value; a zero takes the sign given. -/
def Val.ofInt (zeroNeg : Bool) (n : Int) (e : Int) : Val :=
  if n = 0 then .fin zeroNeg 0 0 else .fin (decide (n < 0)) n.natAbs e

/-- The signed significand. -/
def sgn (neg : Bool) (m : Nat) : Int := if neg then -(m : Int) else (m : Int)

/-- A significand moved down to a lower exponent. -/
def scaleTo (n : Int) (e lo : Int) : Int := n * (2 : Int) ^ (e - lo).toNat

/-- Exact sum (R83, R118): opposite infinities give NaN; an exact zero from opposite signs is +0, or -0 under RD. -/
def Val.add (rm : RMode) (x y : Val) : Val :=
  match x, y with
  | .nan, _ => .nan
  | _, .nan => .nan
  | .inf a, .inf b => if a = b then .inf a else .nan
  | .inf a, _ => .inf a
  | _, .inf b => .inf b
  | .fin a m e, .fin b n k =>
    let lo := min e k
    let t := scaleTo (sgn a m) e lo + scaleTo (sgn b n) k lo
    let zneg := if a = b then a else decide (rm = .rd)
    if t = 0 then .fin zneg 0 0 else Val.ofInt false t lo

/-- Exact product (R118): an infinity times zero is NaN. -/
def Val.mul (x y : Val) : Val :=
  match x, y with
  | .nan, _ => .nan
  | _, .nan => .nan
  | .inf a, .inf b => .inf (a != b)
  | .inf a, .fin b n _ => if n = 0 then .nan else .inf (a != b)
  | .fin a m _, .inf b => if m = 0 then .nan else .inf (a != b)
  | .fin a m e, .fin b n k => .fin (a != b) (m * n) (e + k)

/-- a × b + d, exact (R84, R119). -/
def Val.fma (rm : RMode) (x y d : Val) : Val := Val.add rm (Val.mul x y) d

/-- A value as a number for comparing: -1, 0 or 1 as x is below, equal to or above y; none for a NaN (R126). -/
def Val.cmp (x y : Val) : Option Int :=
  match x, y with
  | .nan, _ => none
  | _, .nan => none
  | .inf a, .inf b => some (if a = b then 0 else if a then -1 else 1)
  | .inf a, _ => some (if a then -1 else 1)
  | _, .inf b => some (if b then 1 else -1)
  | .fin a m e, .fin b n k =>
    let lo := min e k
    let d := scaleTo (sgn a m) e lo - scaleTo (sgn b n) k lo
    some (if d < 0 then -1 else if d = 0 then 0 else 1)

/-- FMIN and FMAX on patterns (R82, R119): the other operand for one NaN, canonical for two, -0 below +0. -/
def Fmt.pick (f : Fmt) (greater : Bool) (a b : Nat) : Nat :=
  match f.decode a, f.decode b with
  | .nan, .nan => f.nan
  | .nan, _ => b
  | _, .nan => a
  | x, y =>
    match Val.cmp x y with
    | some c =>
      if c = 0 then (if (decide (f.signBit ≤ a)) != greater then a else b)
      else if (decide (c < 0)) != greater then a else b
    | none => f.nan

/-- Integer square root by bits from the top, on a fuel of bits. -/
def isqrtFrom (n : Nat) : Nat → Nat → Nat
  | 0, r => r
  | k + 1, r => let t := r + 2 ^ k; if t * t ≤ n then isqrtFrom n k t else isqrtFrom n k r

/-- The integer square root. -/
def isqrt (n : Nat) : Nat := isqrtFrom n ((bitLen n + 1) / 2) 0

/-- √ of a value, rounded (R120, R121). -/
def Fmt.sqrt (f : Fmt) (rm : RMode) (v : Val) : Nat :=
  match v with
  | .nan => f.nan
  | .inf neg => if neg then f.nan else f.encode rm false v
  | .fin neg m e =>
    if m = 0 then f.signed neg 0 else if neg then f.nan else
      let odd := decide (e % 2 ≠ 0)
      let m1 := if odd then m * 2 else m
      let e1 := if odd then e - 1 else e
      let big := m1 * 2 ^ 128
      let r := isqrt big
      f.roundMag rm false false r (e1 / 2 - 64) (decide (r * r ≠ big))

/-- 1 over a value, rounded (R120, R121). -/
def Fmt.rcp (f : Fmt) (rm : RMode) (v : Val) : Nat :=
  match v with
  | .nan => f.nan
  | .inf neg => f.signed neg 0
  | .fin neg m e =>
    if m = 0 then f.encode rm false (.inf neg) else
      let big := 2 ^ 128
      f.roundMag rm false neg (big / m) (-e - 128) (decide (big % m ≠ 0))

/-- 1 over the square root of a value, rounded (R120, R121): the root of 2^k / m, its floor being the floor of the exact root. -/
def Fmt.rsqrt (f : Fmt) (rm : RMode) (v : Val) : Nat :=
  match v with
  | .nan => f.nan
  | .inf neg => if neg then f.nan else 0
  | .fin neg m e =>
    if m = 0 then f.encode rm false (.inf neg) else if neg then f.nan else
      let odd := decide (e % 2 ≠ 0)
      let m1 := if odd then m * 2 else m
      let e1 := if odd then e - 1 else e
      let big := 2 ^ 256
      let r := isqrt (big / m1)
      f.roundMag rm false false r (-(e1 / 2) - 128) (decide (r * r * m1 ≠ big))

/-- Round a value to an integer by a mode (R84, R86). -/
def Val.toInt (rm : RMode) (neg : Bool) (m : Nat) (e : Int) : Int :=
  if 0 ≤ e then sgn neg (m * 2 ^ e.toNat) else
    let sh := (-e).toNat
    let n := m / 2 ^ sh
    let rem := m % 2 ^ sh
    sgn neg (if roundsUp rm neg n rem sh false then n + 1 else n)

/-- Round to an integral value in FP32, keeping the sign (R120, R121). -/
def f32Integral (rm : RMode) (x : Nat) : Nat :=
  match Fmt.f32.decode x with
  | .nan => Fmt.f32.nan
  | .inf _ => x
  | .fin neg m e => if 0 ≤ e then x else
      Fmt.f32.roundMag rm false neg (Val.toInt rm neg m e).natAbs 0 false

/-- Clamp an integer to a range. -/
def clamp (lo hi n : Int) : Int := if n < lo then lo else if hi < n then hi else n

/-- A value rounded by RM and clamped to a range; a NaN gives 0 (R86). -/
def toIntClamped (rm : RMode) (lo hi : Int) (v : Val) : Int :=
  match v with
  | .nan => 0
  | .inf neg => if neg then lo else hi
  | .fin neg m e => clamp lo hi (Val.toInt rm neg m e)

/-! ### Fixed-point series for the transcendental functions (R120, log 20) -/

/-- Fraction bits of the fixed-point work. -/
def fxBits : Nat := 448

/-- One in fixed point. -/
def fxOne : Int := 2 ^ fxBits

/-- Product in fixed point, truncated toward zero. -/
def fxMul (a b : Int) : Int := Int.tdiv (a * b) fxOne

/-- Quotient in fixed point. -/
def fxDiv (a b : Int) : Int := Int.tdiv (a * fxOne) b

/-- The sum of a power series whose next term is the last times `r`, divided by `d k` (sign by `alt`), on a fuel of terms. -/
def fxSeries (r : Int) (alt : Bool) (d : Nat → Nat) : Nat → Nat → Int → Int → Int
  | 0, _, _, acc => acc
  | n + 1, k, term, acc =>
    let t := Int.tdiv (fxMul term r) (d k)
    let t := if alt then -t else t
    fxSeries r alt d n (k + 1) t (acc + t)

/-- arctanh of a small fixed-point number by its series. -/
def fxAtanh (z : Int) : Int :=
  let z2 := fxMul z z
  let rec go : Nat → Nat → Int → Int → Int
    | 0, _, _, acc => acc
    | n + 1, k, p, acc => go n (k + 1) (fxMul p z2) (acc + Int.tdiv p ((2 * k + 1 : Nat) : Int))
  go 300 0 z 0

/-- ln 2 in fixed point: 2 arctanh (1/3). -/
def fxLn2 : Int := 2 * fxAtanh (Int.tdiv fxOne 3)

/-- arctan of 1/n in fixed point. -/
def fxAtanInv (n : Nat) : Int :=
  let n2 : Int := ((n * n : Nat) : Int)
  let rec go : Nat → Nat → Int → Int → Int
    | 0, _, _, acc => acc
    | m + 1, k, p, acc =>
      let t := Int.tdiv p ((2 * k + 1 : Nat) : Int)
      go m (k + 1) (Int.tdiv p n2) (if k % 2 = 0 then acc + t else acc - t)
  go 220 0 (Int.tdiv fxOne n) 0

/-- π in fixed point: 16 arctan 1/5 - 4 arctan 1/239. -/
def fxPi : Int := 16 * fxAtanInv 5 - 4 * fxAtanInv 239

/-- e^x for |x| ≤ 1 in fixed point. -/
def fxExp (x : Int) : Int := fxSeries x false (fun k => k) 110 1 fxOne fxOne

/-- ±m × 2^e in fixed point, truncated; e is not above 8. -/
def fxOf (neg : Bool) (m : Nat) (e : Int) : Int :=
  let sh := e + (fxBits : Int)
  sgn neg (if 0 ≤ sh then m * 2 ^ sh.toNat else m / 2 ^ (-sh).toNat)

/-- Round a fixed-point number times 2^e to FP32, RNE; the number is inexact. -/
def fxRound (x : Int) (e : Int) : Nat :=
  Fmt.f32.roundMag .rne false (decide (x < 0)) x.natAbs (e - (fxBits : Int)) true

/-- 2^a (R120, R121). -/
def f32Exp2 (x : Nat) : Nat :=
  match Fmt.f32.decode x with
  | .nan => Fmt.f32.nan
  | .inf neg => if neg then 0 else x
  | .fin neg m e =>
    if m = 0 then 0x3F800000 else
    if !neg && decide (8 ≤ (bitLen m : Int) + e) then 0x7F800000 else
    if decide (9 ≤ (bitLen m : Int) + e) then 0 else
    if (bitLen m : Int) + e < -30 then 0x3F800000 else
      let v := fxOf neg m e
      let i := Int.fdiv v fxOne
      let fr := v - i * fxOne
      if fr = 0 then Fmt.f32.roundMag .rne false false 1 i false
      else fxRound (fxExp (fxMul fr fxLn2)) i

/-- log₂ a (R120, R121): the significand is brought near 1 and its logarithm is 2 arctanh ((s-1)/(s+1)). -/
def f32Log2 (x : Nat) : Nat :=
  match Fmt.f32.decode x with
  | .nan => Fmt.f32.nan
  | .inf neg => if neg then Fmt.f32.nan else x
  | .fin neg m e =>
    if m = 0 then 0xFF800000 else if neg then Fmt.f32.nan else
      let l := bitLen m
      let hi := decide (2 ^ l * 3 < m * 4)
      let k : Int := (l : Int) + e - (if hi then 0 else 1)
      let s : Int := ((m * 2 ^ (fxBits + 1 - l) : Nat) : Int)
      let s := if hi then Int.tdiv s 2 else s
      if s = fxOne then Fmt.f32.encode .rne false (Val.ofInt false k 0)
      else
        let z := fxDiv (s - fxOne) (s + fxOne)
        fxRound (k * fxOne + fxDiv (2 * fxAtanh z) fxLn2) 0

/-- sin of |x| ≤ 1 in fixed point. -/
def fxSin (x : Int) : Int := fxSeries (fxMul x x) true (fun k => (2 * k) * (2 * k + 1)) 60 1 x x

/-- cos of |x| ≤ 1 in fixed point. -/
def fxCos (x : Int) : Int := fxSeries (fxMul x x) true (fun k => (2 * k - 1) * (2 * k)) 60 1 fxOne fxOne

/-- The argument reduced by π/2 (R120): the nearest multiple's number and the rest in fixed point. The quotient is taken with
π scaled up so that the rest keeps its precision for every finite operand. -/
def fxReduce (neg : Bool) (m : Nat) (e : Int) : Int × Int :=
  if (bitLen m : Int) + e < 0 then (0, fxOf neg m e) else
    let half := Int.tdiv fxPi 2
    let up := if 0 ≤ e then e.toNat else 0
    let v : Int := sgn neg (if 0 ≤ e then m * 2 ^ (fxBits + up) else m * 2 ^ (fxBits - (-e).toNat))
    let q := Int.fdiv (2 * v + half) (2 * half)
    (q, v - q * half)

/-- sin a (R120, R121), or cos a one quarter turn on. -/
def f32Trig (quarter : Int) (x : Nat) : Nat :=
  match Fmt.f32.decode x with
  | .nan => Fmt.f32.nan
  | .inf _ => Fmt.f32.nan
  | .fin neg m e =>
    if m = 0 then (if quarter = 0 then x else 0x3F800000) else
    if (bitLen m : Int) + e < -40 then
      (if quarter = 0 then Fmt.f32.roundMag .rne false neg (m * 2 ^ 64 - 1) (e - 64) true else 0x3F800000)
    else
      let r := fxReduce neg m e
      let q := (r.1 + quarter) % 4
      let v := if q = 0 then fxSin r.2 else if q = 1 then fxCos r.2 else if q = 2 then -(fxSin r.2) else -(fxCos r.2)
      fxRound v 0

/-- tanh a (R120, R121): 1 - 2 / (e^(2|a|) + 1), and a itself less a tiny amount for a small a. -/
def f32Tanh (x : Nat) : Nat :=
  match Fmt.f32.decode x with
  | .nan => Fmt.f32.nan
  | .inf neg => Fmt.f32.signed neg 0x3F800000
  | .fin neg m e =>
    if m = 0 then x else
    if 5 ≤ (bitLen m : Int) + e then Fmt.f32.signed neg 0x3F800000 else
    if (bitLen m : Int) + e < -40 then Fmt.f32.roundMag .rne false neg (m * 2 ^ 64 - 1) (e - 64) true else
      let v := fxOf false m e
      let t := Int.tdiv v 16
      let p := fxExp (Int.tdiv t 1)
      let p2 := fxMul p p; let p4 := fxMul p2 p2; let p8 := fxMul p4 p4; let p16 := fxMul p8 p8; let p32 := fxMul p16 p16
      let y := fxDiv (p32 - fxOne) (p32 + fxOne)
      fxRound (if neg then -y else y) 0

/-- The class mask of an FP32 pattern (R122). -/
def f32Class (x : Nat) : Nat :=
  match Fmt.f32.decode x with
  | .nan => 1
  | .inf neg => if neg then 2 else 256
  | .fin neg m _ =>
    if m = 0 then (if neg then 16 else 32) else
    if m < 2 ^ 23 then (if neg then 8 else 64) else (if neg then 4 else 128)

/-! ### Codebook weights (R88) -/

/-- The weights of a 16-bit index in quarters, element 0 first (R88). -/
def codebookQuarters (ix : Nat) (entry : Nat) : List Int :=
  let h : Int := ((ix % 2 : Nat) : Int)
  let s := fun j => (ix / 2 ^ (j + 1)) % 2
  let minus := ((List.range 7).map s).foldl (· + ·) 0
  (List.range 8).map (fun j =>
    let m : Int := (((entry / 2 ^ (4 * j)) % 16 : Nat) : Int)
    let sj := if j = 7 then minus % 2 else s j
    (if sj = 1 then -m else m) + h)

/-- A weight in quarters as a value; a zero weight is +0 (R88). -/
def quarterVal (q : Int) : Val := Val.ofInt false q (-2)

end Sys2Proof.Machine
end

