-- ==== Sys2Proof/Machine/Flags.lean ====
section
/-!
DEFINITION. Every computation of a predicate: the compare conditions over integers and floats (R106, R126), and how a compare
writes PD and PD xor 1 (R46, R106, R125).
-/
namespace Sys2Proof.Machine

/-- The integer conditions eq, ne, lt, le, gt, ge signed, lo, hs unsigned (R106). -/
def intCond (cc : BitVec 3) (a b : Word) : Bool :=
  match cc.toNat with
  | 0 => a == b
  | 1 => a != b
  | 2 => decide (a.toInt < b.toInt)
  | 3 => decide (a.toInt ≤ b.toInt)
  | 4 => decide (b.toInt < a.toInt)
  | 5 => decide (b.toInt ≤ a.toInt)
  | 6 => decide (a.toNat < b.toNat)
  | _ => decide (b.toNat ≤ a.toNat)

/-- The float conditions eq, ne, lt, le, gt, ge, un, or on patterns of a format (R126). -/
def floatCond (f : Fmt) (cc : BitVec 3) (a b : Nat) : Bool :=
  match Val.cmp (f.decode a) (f.decode b) with
  | none => cc.toNat = 1 || cc.toNat = 6
  | some c =>
    match cc.toNat with
    | 0 => c = 0
    | 1 => c ≠ 0
    | 2 => decide (c < 0)
    | 3 => decide (c ≤ 0)
    | 4 => decide (0 < c)
    | 5 => decide (0 ≤ c)
    | 6 => false
    | _ => true

/-- PD xor 1 (R106). -/
def pairPred (p : BitVec 4) : Nat := (p ^^^ 1#4).toNat

/-- Write a compare's two predicates in each lane of a set (R106, R125). -/
def Group.setPair (g : Group) (eff : LaneMask) (p : BitVec 4) (t0 t1 : Nat → Bool) : Group :=
  g.onLanes eff (fun l ln => (ln.setPred p.toNat (t0 l)).setPred (pairPred p) (t1 l))

/-- A C-format compare (R106, R125): `t0` goes to PD and `t1` to PD xor 1 in each lane where it takes effect; the guard and
both sources are read before either write. -/
def compare (g : Guard) (p : BitVec 4) (a b : RegField) (t0 t1 : Word → Word → Bool) (s : State) :
    Host.Outcome State Fault Refusal :=
  issued s true (fun _ => [.srcLost a, .srcLost b]) true (fun i =>
    i.retire (fun gr => gr.setPair (i.effect g) p (fun l => t0 (i.src a l) (i.src b l)) (fun l => t1 (i.src a l) (i.src b l))) s)

end Sys2Proof.Machine
end

