-- ==== Sys2Proof/Machine/Issue.lean ====
section
/-!
DEFINITION. The issue rule: which lanes of a group issue next, waits that are tested again, asynchronous traps, breakpoints,
one issue with its checks, a co-issued pair, and the choice of the next group (R21-R27, R35, R38, R218, R295, R297, R305).
-/
namespace Sys2Proof.Machine

open Host (Outcome)

/-- The eligible lanes (R21): live, not blocked, not yield-excluded, and not excluded by handler mode (R218). -/
def Group.elig (g : Group) : LaneMask :=
  maskOf (fun l => !(g.lane l).exited && (g.lane l).waitm.isNone && !(g.lane l).yx && !(inMask g.excl l)) g.lanes.length

/-- The least pcv of some lanes. -/
def leastPc : List Word → Option Word
  | [] => none
  | w :: ws => match leastPc ws with | some v => some (if w.toNat ≤ v.toNat then w else v) | none => some w

/-- The executing fragment (R21): the eligible lanes at the least pcv; inside a chain the chain's lanes (R17). -/
def Group.fragment (g : Group) : Option (Word × LaneMask) :=
  match g.chain with
  | some _ =>
    match lowest g.lastExec g.lanes.length with
    | some l => some ((g.lane l).pcv, g.lastExec)
    | none => none
  | none =>
    match leastPc ((lanesOf g.elig g.lanes.length).map (fun l => (g.lane l).pcv)) with
    | some ia => some (ia, maskOf (fun l => inMask g.elig l && (g.lane l).pcv == ia) g.lanes.length)
    | none => none

/-- The fragment at the next-lowest pcv (R25). -/
def Group.second (g : Group) : Option (Word × LaneMask) :=
  match g.fragment with
  | some (ia, _) =>
    let rest := maskOf (fun l => inMask g.elig l && (g.lane l).pcv != ia) g.lanes.length
    match leastPc ((lanesOf rest g.lanes.length).map (fun l => (g.lane l).pcv)) with
    | some ib => some (ib, maskOf (fun l => inMask rest l && (g.lane l).pcv == ib) g.lanes.length)
    | none => none
  | none => none

/-- Some live lane is yield-excluded (R21). -/
def Group.yielded (g : Group) : Bool := (List.range g.lanes.length).any (fun l => !(g.lane l).exited && (g.lane l).yx)

/-- Clear the yield exclusions of the lanes outside a set (R21, R23). -/
def Group.clearYx (g : Group) (exec : LaneMask) : Group := g.onLanes (~~~exec) (fun _ l => { l with yx := false })

/-- ISSUE_DECISION (R21): every eligible lane is yield-excluded, so the decision clears the exclusions and issues nothing. That such a decision too
makes the group the youngest is the model's choice (log 106). -/
def execIssueDecision (team grp : Nat) (s : State) : Outcome State Fault Refusal :=
  match s.group? team grp with
  | some g =>
    if g.fragment.isNone && g.yielded && !g.ended then
      .next (s.onGroup team grp (fun g => { g.clearYx 0 with age := s.issues + 1 }))
    else .fault .eventCannotOccur
  | none => .fault .eventCannotOccur

/-- A pending trap sets ASYNC, unless it is the ACCESS that a lane's access met when it was performed, which is precise (R217, R271; log 17). -/
def AsyncTrap.isAsync (a : AsyncTrap) : Bool := !(a.cause == 0x05 && a.lane.isSome)

/-- The pending asynchronous trap that the fragment of a group would take: the lowest cause whose lane is in it (R218, R307). -/
def Group.dueTrap (g : Group) (exec : LaneMask) : Option AsyncTrap :=
  let lane := fun (t : AsyncTrap) => (t.lane.getD ((lowest g.live g.lanes.length).getD 0))
  (sortBy (fun (t : AsyncTrap) => t.cause) g.pend).find? (fun t => inMask exec (lane t))

/-- ASYNC_TRAP_TAKEN (R218, R307): at the next issue decision of its fragment, outside a chain. In handler mode the trap is fatal where
the fragment shares a lane with the handler set; else the fragment is excluded, and its trap stays pending. -/
def execAsyncTrapTaken (team grp : Nat) (s : State) : Outcome State Fault Refusal :=
  match s.team? team, s.group? team grp with
  | some t, some g =>
    match g.fragment with
    | some (ia, exec) =>
      match g.dueTrap exec with
      | some a =>
        if g.chain.isSome then .fault .eventCannotOccur else
        if g.handler != 0 && (exec &&& g.handler) == 0 then
          .next (s.takeTrap team grp exec ia a.isAsync a.orphan a.level a.tpc a.parent ⟨a.cause, a.detail, a.tval⟩)
        else
          let s := s.onGroup team grp (fun g => { g with pend := g.pend.filter (fun b => b.cause != a.cause) })
          let s := s.takeTrap team grp exec ia a.isAsync a.orphan a.level a.tpc a.parent ⟨a.cause, a.detail, a.tval⟩
          -- a report that waited for this one moves up (R311)
          match takeFirst (fun (r : Report) => r.team == team && r.grp == grp) (s.coreCtx g.core t.ctx).reports with
          | some (r, rest) =>
            if a.cause = 0x11 then
              .next ((s.onCoreCtx g.core t.ctx (fun c => { c with reports := rest })).onGroup team grp
                (fun g => { g with pend := r.trap :: g.pend }))
            else .next s
          | none => .next s
      | none => .fault .eventCannotOccur
    | none => .fault .eventCannotOccur
  | _, _ => .fault .eventCannotOccur

/-- The condition of a group's wait holds (R151, R172, R204, R213). -/
def State.waitMet (s : State) (t : Team) (g : Group) : Bool :=
  match g.wait with
  | .none => true
  | .counter c n => decide (getAt g.ctrs c 0 ≤ n)
  | .barrier b p _ => decide (0 ≤ ((getAt t.bars b ⟨0, 0, 0⟩).phase - BitVec.ofNat 16 p).toInt)
  | .handoff _ _ => t.hidx == 0 || ((s.launch? t.launch).map (fun l => l.hands.any (fun h => h.1 + 1 == t.hidx))).getD false
  | .matrix => !(s.works.any (fun w => w.team == t.uid && w.grp == g.idx)) && !(s.tileops.any (fun w => w.team == t.uid && w.grp == g.idx))
  | .await _ => false
  | .facsim _ _ => false
  | .publish _ _ _ => false
  | .claim => false
  | .reply _ => false

/-- The stall reason of a wait (R303). -/
def Wait.reason : Wait → Nat
  | .none => 0
  | .counter _ _ => 3
  | .barrier _ _ _ => 5
  | .handoff _ _ => 5
  | .facsim _ _ => 5
  | .matrix => 11
  | .await _ => 6
  | .publish _ _ _ => 6
  | .claim => 15
  | .reply _ => 15

/-- The stall reason of a wait of a group (R303): a counter that waits for what a twin's RELEASE will give is an ordering wait (R348). -/
def State.waitReason (s : State) (t : Team) (g : Group) : Nat :=
  match g.wait with
  | .counter c _ => if s.accesses.any (fun a => a.team == t.uid && a.grp == g.idx && a.ctr == some c && s.awaitsRelease a) then 6 else 3
  | w => w.reason

/-- End a wait whose condition holds, writing what it writes when it ends (R204, R213). -/
def State.endWait (s : State) (t : Team) (g : Group) : State :=
  let hand : Word × Nat := match s.launch? t.launch with
    | some l => if t.hidx = 0 then (0, 0) else
        match l.hands.find? (fun h => h.1 + 1 == t.hidx) with | some h => (h.2.1, h.2.2) | none => (0, 0)
    | none => (0, 0)
  s.onGroup t.uid g.idx (fun g =>
    let g := match g.wait with
      | .barrier _ _ (some (d, m, v)) => g.onLanes m (fun _ l => l.setReg d v)
      | .handoff d m => g.onLanes m (fun _ l => (l.setReg d hand.1).setReg (d + 1) (BitVec.ofNat 32 hand.2))
      | _ => g
    { g with wait := .none })

/-- A core that has not cut cuts before a group on it accepts a token of a core that has (R341): one that the twin's launch has not seen. None
when the cut must wait. -/
def State.takeToken (s : State) (t : Team) (g : Group) : Option State :=
  match g.wait, s.twinOf? t.ctx with
  | .handoff _ _, some w =>
    match (w.launches.find? (fun p => p.1 == t.launch)).bind (fun p => s.launch? p.2) with
    | some l => if t.hidx = 0 ∨ l.hands.any (fun h => h.1 + 1 == t.hidx) then some s else s.cutFirst t.ctx g.core
    | none => some s
  | _, _ => some s

/-- The breakpoint that matches an issue address (R336): armed, and in a kernel its image filter admits. -/
def Ctx.breakpoint (c : Ctx) (image : Nat) (pc : Word) : Option Nat :=
  (List.range 8).find? (fun n =>
    let b := getAt c.bp n 0xFFFFFFFF
    b.toNat % 4 == 0 && b == pc && ((getAt c.bpimg n 0) == 0 || (getAt c.bpimg n 0).toNat == image))

/-- The code line of an address of a kernel lies beyond a core's instruction buffer and has not been fetched (R305). -/
def State.unfetched (s : State) (core image : Nat) (pc : Word) : Bool :=
  decide (65536 ≤ pc.toNat / 4) && !((s.core core).fetched.contains (image, pc.toNat / 256))

/-- A chain's head waits until every register that a member may read is free of interlock (R17). -/
def State.chainHeld (s : State) (i : Issue) : Bool :=
  match i.grp.chain, chainFrom i.image.code (i.cur.pc.toNat / 4) with
  | none, some e =>
    ((i.image.code.drop (i.cur.pc.toNat / 4)).take (e + 1 - i.cur.pc.toNat / 4)).any (fun w => s.interlocked i (memberOpnds w))
  | _, _ => false

/-- Perform the issue that `cur` describes: R72 row 1, the fetch, the breakpoint match, decoding, and the instruction. -/
def runIssue (run : Instr → State → Outcome State Fault Refusal) (s : State) : Outcome State Fault Refusal :=
  match s.issue? with
  | none => .fault .noIssue
  | some i =>
    if i.image.code.length ≤ i.cur.pc.toNat / 4 then i.raise (Trap.access 0x01 i.cur.pc.toNat) s else
    if s.unfetched i.grp.core i.image.addr i.cur.pc then
      i.stall 8 (s.owe (.instructionFetch i.cur.team i.cur.grp))
    else if s.chainHeld i then i.stall 2 s else
    match (s.ctx? i.team.ctx).bind (fun c => if i.grp.bpPass then none else (c.breakpoint i.image.addr i.cur.pc).map (fun n => (c, n))) with
    | some (c, n) =>
      if c.twinOn then
        let claim : Claim := ⟨i.cur.team, i.cur.grp, 0x10 + n, i.cur.pc, s.gid i.team.ctx i.grp, 0⟩
        let pause := i.grp.chain.isNone && (chainFrom i.image.code (i.cur.pc.toNat / 4)).isNone
        let s := s.onGroup i.cur.team i.cur.grp (fun g => { g with bpPass := true })
        if pause then i.stall 15 (s.claim c.num claim true) else
          match decodeWord (getAt i.image.code (i.cur.pc.toNat / 4) 0) with
          | some ins => run ins (s.claim c.num claim false)
          | none => i.raise (Trap.illegal 0) s
      else i.raise ⟨0x0E, 0x10 + n, i.cur.pc.setWidth 64⟩ s
    | none =>
      match decodeWord (getAt i.image.code (i.cur.pc.toNat / 4) 0) with
      | some ins => run ins s
      | none => i.raise (Trap.illegal 0) s

/-- A group's mode is deterministic (R27). -/
def State.isDet (s : State) (t : Team) : Bool :=
  (((s.launch? t.launch).bind (fun l => s.image? l.image)).map (fun m => m.det)).getD false

/-- A deterministic group's rotation moves past it when its issue unit has ended (R38, R297, R333). -/
def State.turn (s : State) (team grp : Nat) : State :=
  match s.team? team, s.group? team grp with
  | some t, some g =>
    if s.isDet t && g.chain.isNone then s.onCoreCtx g.core t.ctx (fun c => { c with rot := some (g.slot, g.pos) }) else s
  | _, _ => s

/-- The group has issued: it did not stall, or what it issued now waits to complete (R152). -/
def Group.went (g : Group) : Bool := g.stall == 0 || (match g.wait with | .await _ => true | .reply _ => true | _ => false)

/-- One fragment of a group issues at an address (R21): an issue by another fragment than the last invalidates the latches
first (R16); afterwards the yield exclusions outside `keep` end, unless the issue stalled. -/
def issueAt (run : Instr → State → Outcome State Fault Refusal) (team grp : Nat) (pc : Word) (exec keep : LaneMask)
    (second : Bool) (s : State) : Outcome State Fault Refusal :=
  let s := s.onGroup team grp (fun g => if g.lastExec = exec then g else { g with latches := noLatches, lastExec := exec })
  match runIssue run { s with cur := some ⟨team, grp, exec, pc, second⟩ } with
  | .next s' =>
    let s' := { s' with cur := none }
    match s'.group? team grp with
    | some g => if g.went then .next ((s'.onGroup team grp (fun g => g.clearYx keep)).turn team grp) else .next s'
    | none => .next s'
  | .fault r => .fault r
  | .refused r => .refused r

/-! ### Which group issues (R20, R35, R38, R295, R297) -/

/-- The replays of a twin have run (R343), but for AWAITs, which wait on, and accesses whose answer is still to come. -/
def State.replayed (s : State) (w : Twin) : Bool :=
  w.pairs.all (fun p => !(s.wc.any (fun e => e.id == p.2)) &&
    !(s.accesses.any (fun a => a.id == p.2 && !a.waiting && (match a.kind with | .await _ => false | _ => true))))

/-- The live groups of a context on a core, in the rotation's order (R38, R333). -/
def State.rotation (s : State) (core ctx : Nat) : List (Nat × Nat × Nat) :=
  sortBy (fun (x : Nat × Nat × Nat) => x.1)
    ((s.teams.filter (fun t => t.ctx == ctx && !t.ended && !t.killed)).map (fun t =>
      (t.groups.filter (fun g => g.core == core && !g.ended && g.live != 0)).map (fun g => (g.slot * 16 + g.pos, t.uid, g.idx)))).flatten

/-- The group whose turn it is (R38): the first after the saved position, wrapping round. -/
def State.turnOf (s : State) (core ctx : Nat) : Option (Nat × Nat) :=
  let rot := s.rotation core ctx
  let after := match (s.coreCtx core ctx).rot with
    | some (sl, p) => rot.find? (fun (x : Nat × Nat × Nat) => decide (sl * 16 + p < x.1))
    | none => rot.head?
  match after with
  | some x => some (x.2.1, x.2.2)
  | none => (rot.head?).map (fun (x : Nat × Nat × Nat) => (x.2.1, x.2.2))

/-- A group's issue decisions count: its context is active on its core and not being swapped out, outside a chain (R20, R315), its
team runs (R220, R232), no answer of the host is due to it (R274), and a twin's group is the one stepped (R350). -/
def State.decides (s : State) (t : Team) (g : Group) : Bool :=
  !g.ended && !t.ended && !t.killed && (t.aborting.isNone || g.undo) && (s.core g.core).active == some t.ctx && g.live != 0 &&
  ((s.coreCtx g.core t.ctx).ladder != .halt || g.chain.isSome) && g.parked.isEmpty &&
  (match s.twins.find? (fun w => w.num == t.ctx) with
   | some w => s.replayed w && (w.state == .rival || (w.step.map (fun x => x.1 == t.uid && x.2.1 == g.idx && x.2.2 != 0)).getD false)
   | none => true)

/-- In deterministic mode only the group whose turn it is issues (R38, R297, R333); in a twin that is stepped, the group that STEP names, the others being
held at the rotation (R350). -/
def State.mayDecide (s : State) (t : Team) (g : Group) : Bool :=
  s.decides t g && (!(s.isDet t) || s.turnOf g.core t.ctx == some (t.uid, g.idx) || s.twins.any (fun w => w.num == t.ctx && w.state == .stepping))

/-- Nothing that a group met at its last decision still holds it (R295, R297). -/
def State.unstalled (s : State) (t : Team) (g : Group) : Bool := g.stall == 0 && s.decides t g && (g.wait == .none || s.waitMet t g)

/-- A group may be chosen: it may have a decision, and nothing it met at its last one still holds it (R295). -/
def State.ready (s : State) (t : Team) (g : Group) : Bool := s.unstalled t g && s.mayDecide t g

/-- The groups that may issue next, with their teams (R38, R295, R297). -/
def State.candidates (s : State) : List (Team × Group) :=
  (s.teams.map (fun t => (t.groups.filter (s.ready t)).map (fun g => (t, g)))).flatten

/-- How often the other ready groups of a group's core have been passed over running. -/
def passedBy (rs : List (Team × Group)) (t : Team) (g : Group) : List Nat :=
  (rs.filter (fun x => x.2.core == g.core && !(x.1.uid == t.uid && x.2.idx == g.idx))).map (fun x => x.2.passed)

/-- Some groups that have been passed over so often cannot all be served in later decisions within the bound of R35 if one more passes them
over: the one passed over most is served next, and so on. -/
def overBound (ps : List Nat) : Bool :=
  let qs := sortBy (fun p => 1000 - p) ps
  (qs.zip (List.range qs.length)).any (fun x => decide (255 < x.1 + x.2 + 1))

/-- A decision of a group would pass another over more often than R35 allows, and that one has been passed over more often than it (R35; log 86). -/
def State.overdue (s : State) (t : Team) (g : Group) : Bool :=
  let ps := passedBy s.candidates t g
  ps.any (fun p => decide (g.passed < p)) && overBound ps

/-- The oldest candidate that may go (R35, R295). -/
def State.pick (s : State) : Option (Nat × Nat) :=
  ((sortBy (fun (x : Team × Group) => x.2.age) s.candidates).find? (fun x => !(s.overdue x.1 x.2))).map (fun x => (x.1.uid, x.2.idx))

/-- Count a decision of some groups of a core: each other ready group of it in normal mode is passed over once more, and those and any that is
not ready start again (R35). -/
def State.passOver (s : State) (core : Nat) (mine : List (Nat × Nat)) : State :=
  { s with teams := s.teams.map (fun t => { t with groups := t.groups.map (fun h =>
      if h.core = core then { h with passed := if !(mine.contains (t.uid, h.idx)) && !(s.isDet t) && s.ready t h then h.passed + 1 else 0 } else h) }) }

/-- One issue decision of a group that waits for nothing (R21): a lifted exclusion, an asynchronous trap, or its fragment's issue. -/
def decideFree (run : Instr → State → Outcome State Fault Refusal) (team grp : Nat) (g : Group) (s : State) :
    Outcome State Fault Refusal :=
  match g.fragment with
  | none => if g.yielded then execIssueDecision team grp s
            else .next (s.onGroup team grp (fun g => { g with stall := 7 }))
  | some (ia, exec) =>
    if (g.dueTrap exec).isSome && g.chain.isNone then execAsyncTrapTaken team grp s
    else issueAt run team grp ia exec exec false s

/-- One issue decision of a group (R21, R305): a wait whose condition holds ends in it, and one that does not holds the group. -/
def decideGroup (run : Instr → State → Outcome State Fault Refusal) (team grp : Nat) (t : Team) (g : Group) (s : State) :
    Outcome State Fault Refusal :=
  if g.wait = .none then decideFree run team grp g s else
  let held := Outcome.next (s.onGroup team grp (fun g => { g with stall := s.waitReason t g }))
  if !(s.waitMet t g) then held else
  match s.takeToken t g with
  | none => held
  | some s1 =>
    let s2 := s1.endWait t g
    match s2.group? team grp with
    | some h => decideFree run team grp h s2
    | none => .next s2

/-- The issue decision of a group that its core has chosen. A watchdog that is raised comes before it (R304, R325). -/
def issueOne (run : Instr → State → Outcome State Fault Refusal) (team grp : Nat) (s : State) : Outcome State Fault Refusal :=
  match s.team? team, s.group? team grp with
  | some t, some g =>
    if !(s.mayDecide t g) then .fault .eventCannotOccur
    else if s.dogBites g.core t.ctx then .next (s.bite g.core t.ctx)
    else decideGroup run team grp t g s
  | _, _ => .fault .eventCannotOccur

/-- The issue decision of a group that the core may choose (R20, R35, R38). -/
def issueGroup (run : Instr → State → Outcome State Fault Refusal) (team grp : Nat) (s : State) :
    Outcome State Fault Refusal :=
  match s.team? team, s.group? team grp with
  | some t, some g =>
    if !(s.mayDecide t g) || s.overdue t g then .fault .eventCannotOccur
    else if s.dogBites g.core t.ctx then .next (s.bite g.core t.ctx)
    else decideGroup run team grp t g (s.passOver g.core [(team, grp)])
  | _, _ => .fault .eventCannotOccur

/-- A word that may be half of a co-issued pair (R25, R52): no A or B field that names a latch, and no D = 127. A compare has no D; a branch has
no register field; of a MOVC, A and X are an index. -/
def pairWord (w : Word) : Bool :=
  let op := (fld w 26 6).toNat
  let latch := fun (f : RegField) => decide (120 ≤ f.toNat)
  let d127 := decide ((fld w 14 7).toNat = 127)
  if op = 0x3D ∨ op = 0x3E then true
  else if op = 0x16 ∨ op = 0x17 then !d127
  else if 0x25 ≤ op ∧ op ≤ 0x27 then !(latch (fld w 7 7) || latch (fld w 0 7))
  else if op ≤ 0x13 ∨ (0x18 ≤ op ∧ op ≤ 0x22) ∨ op = 0x34 then !(latch (fld w 7 7) || latch (fld w 0 7) || d127)
  else if op = 0x3F ∧ !(w.getLsbD 20) then true
  else !(latch (fld w 7 7) || d127)

/-- What makes two instructions conflict whatever their banks are (R296): both of one engine's majors, both LAUNCH or FACSIM, or both
global accesses (R133). -/
def portConflict (w v : Word) : Bool :=
  let op := fun (x : Word) => (fld x 26 6).toNat
  let engine := fun x => decide (0x35 ≤ op x ∧ op x ≤ 0x3C)
  let asks := fun x => match decodeWord x with | some (.launch _ _) => true | some (.facsim _ _) => true | _ => false
  let globe := fun x => [0x2A, 0x2B, 0x2C, 0x2F, 0x30, 0x31].contains (op x) ||
    (match decodeWord x with | some (.await _ _ _ _) => true | some (.pref _ _ _) => true | _ => false)
  (engine w && engine v) || (asks w && asks v) || (globe w && globe v)

/-- A word that may be the second of a pair (R25): majors 0x00-0x28 and 0x2A-0x32. -/
def secondWord (w : Word) : Bool :=
  let op := (fld w 26 6).toNat
  decide (op ≤ 0x28) || decide (0x2A ≤ op ∧ op ≤ 0x32)

/-- The second fragment of a group that may go out with the first (R25): normal mode, both words in reach and allowed, neither in a
chain, and no trap due to either. -/
def State.mate (s : State) (t : Team) (g : Group) : Option (Word × LaneMask × Word × LaneMask) :=
  match g.fragment, g.second, s.imageOf t with
  | some (ia, e1), some (ib, e2), some im =>
    let w1 := getAt im.code (ia.toNat / 4) 0
    let w2 := getAt im.code (ib.toNat / 4) 0
    let free := fun (pc : Word) => g.chain.isNone && !(inChain im.code (pc.toNat / 4)) && !(s.unfetched g.core im.addr pc)
    if g.wait = .none ∧ (g.dueTrap e1).isNone ∧ (g.dueTrap e2).isNone ∧ !im.det ∧ pairWord w1 ∧ pairWord w2 ∧ secondWord w2 ∧ !(portConflict w1 w2) ∧
       free ia ∧ free ib ∧ ib.toNat / 4 < im.code.length then some (ia, e1, ib, e2) else none
  | _, _, _ => none

/-- A co-issued pair (R25, R308): in normal mode, the minimum fragment's instruction and then the second's, as one decision
whose exclusions are cleared outside the union of both. Where R25 does not allow the pair, or the first does not go out or is waited
for, only the first issues; so it does where the second would wait. -/
def issuePair (run : Instr → State → Outcome State Fault Refusal) (team grp : Nat) (s : State) :
    Outcome State Fault Refusal :=
  match s.team? team, s.group? team grp with
  | some t, some g =>
    match s.mate t g with
    | some (ia, e1, ib, e2) =>
      if !(s.mayDecide t g) || s.overdue t g || s.dogBites g.core t.ctx then issueGroup run team grp s else
      match issueAt run team grp ia e1 (e1 ||| e2) false (s.passOver g.core [(team, grp)]) with
      | .next s1 =>
        if !(((s1.group? team grp).map (fun g => g.stall == 0 && g.wait == .none)).getD false) then .next s1 else
        match issueAt run team grp ib e2 (e1 ||| e2) true s1 with
        | .next s2 => if ((s2.group? team grp).map (fun g => g.went)).getD true then .next s2 else .next s1
        | o => o
      | o => o
    | none => issueGroup run team grp s
  | _, _ => .fault .eventCannotOccur

/-- The groups that issue as one bundle with the oldest (R12, R305): the ready groups of its slot at its issue address, ascending. In deterministic
mode each member's turn comes by itself (R332) (log 84). -/
def State.bundle (s : State) (team grp : Nat) : List Nat :=
  match s.team? team, s.group? team grp with
  | some t, some g =>
    if s.isDet t then [grp] else
    ((t.groups.filter (fun h => h.core == g.core && h.slot == g.slot && s.ready t h &&
      (h.fragment.map (fun x => x.1)) == g.fragment.map (fun x => x.1))).map (fun h => h.idx))
  | _, _ => [grp]

/-- The members of a bundle that have issued, as `n` issues had gone before, become the youngest and keep the order of age that they had
among themselves (R305). -/
def State.keepOrder (s : State) (team n : Nat) (before : List (Nat × Nat)) : State :=
  s.onTeam team (fun t =>
    let went := before.filter (fun x => ((t.group? x.1).map (fun g => decide (n < g.age))).getD false)
    { t with groups := t.groups.map (fun g =>
      match went.find? (fun x => x.1 == g.idx) with
      | some x => { g with age := n + 1 + (went.filter (fun y => decide (y.2 < x.2 ∨ (y.2 = x.2 ∧ y.1 < x.1)))).length }
      | none => g) })

/-- The members of a bundle issue one after another in ascending group index (R12). -/
def issueBundle (run : Instr → State → Outcome State Fault Refusal) (team : Nat) : List Nat → State → State
  | [], s => s
  | k :: ks, s =>
    match issueOne run team k s with
    | .next s' => issueBundle run team ks s'
    | _ => issueBundle run team ks s

/-- A group that the core chooses for port 0 issues, with its bundle if it goes out (R12, R295, R305). -/
def issueChosen (run : Instr → State → Outcome State Fault Refusal) (team grp : Nat) (s : State) : Outcome State Fault Refusal :=
  match s.bundle team grp with
  | a :: b :: ks =>
    match issueGroup run team grp s with
    | .next s1 =>
      let age := fun (s : State) (k : Nat) => ((s.group? team k).map (fun h => h.age)).getD 0
      if age s1 grp ≤ s.issues then .next s1 else
        let all := a :: b :: ks
        let core := ((s.group? team grp).map (fun h => h.core)).getD 0
        .next ((issueBundle run team all (s.passOver core (all.map (fun k => (team, k))))).keepOrder team s.issues (all.map (fun k => (k, age s k))))
    | o => o
  | _ => issueGroup run team grp s

/-- Something happened: every stalled group may try again. -/
def State.wake (s : State) : State :=
  { s with teams := s.teams.map (fun t => { t with groups := t.groups.map (fun g => { g with stall := 0 }) }) }

/-- After anything but an issue, stalled groups may try again, saved copies return to free ways (R313), and recalls that the part has become vacant for
are reported (R326). -/
def State.after (s : State) : State := s.wake.fillWays.tellVacant

/-- An event that has only begun stays owed, and a command is busy meanwhile (R398). -/
def State.settle (s : State) (i : Instr) : State := if s.begun then (({ s with begun := false } : State).owe i).showBusy i else s

/-- The first owed completion that can occur, performed. -/
def firstDue (run : Instr → State → Outcome State Fault Refusal) (s : State) : List Instr → Option State
  | [] => none
  | i :: is =>
    match run i ((s.unowe i).again i) with
    | .next s' => some (s'.settle i)
    | _ => firstDue run s is

/-- What happens next when nothing outside comes first: the oldest ready group issues, with its bundle (R12, R295, R305), else the
part's oldest owed completion occurs, else every stalled group may try again. -/
def runInside (run : Instr → State → Outcome State Fault Refusal) (s : State) : Outcome State Fault Refusal :=
  match s.pick with
  | some (t, g) => issueChosen run t g s
  | none =>
    match firstDue run s s.due with
    | some s' => .next s'.after
    | none => .next s.wake

/-- An error of the hardware happens (R175, R270, R271; log 52). A poisoned sector is reported to the host, and a team that reads a
vector register or held copy with an uncorrectable error ends under SCRATCH_UE. -/
def State.upset (s : State) : Upset → Outcome State Fault Refusal
  | .corrected die =>
    if die < Config.numDies then .next { s with errors := putKey die (lookupD die 0 s.errors + 1) s.errors } else .fault .eventCannotOccur
  | .sector n =>
    if n < 2 ^ 35 then .next (({ s with poison := addOnce n s.poison } : State).send (.poison (32 * n))) else .fault .eventCannotOccur
  | .line team l =>
    if (s.team? team).isSome then .next (s.onTeam team (fun t => { t with bad := addOnce l t.bad })) else .fault .eventCannotOccur
  | .tile team n =>
    if (s.team? team).isSome then .next (s.onTeam team (fun t => { t with badTiles := addOnce n t.badTiles })) else .fault .eventCannotOccur
  | .found team =>
    if (s.team? team).isSome then .next (s.deliverE team 0 0xFFFFFFFF) else .fault .eventCannotOccur
  | .shelf team l =>
    if (s.team? team).isSome then .next (s.onTeam team (fun t => { t with shelf := t.shelf.filter (fun e => e.line != l) })) else .fault .eventCannotOccur
  | .element team n e v =>
    if (s.team? team).isSome then
      .next (s.onTeam team (fun t => { t with tiles := t.tiles.map (fun x => if x.1 = n then (x.1, { x.2 with elems := setAt x.2.elems e v }) else x) }))
    else .fault .eventCannotOccur

/-- What holds a group at the sampled cycle's decision (R303, R306): its issue is tried, and only the reason is kept. -/
def State.probe (run : Instr → State → Outcome State Fault Refusal) (s : State) (t : Team) (g : Group) : State :=
  if g.stall ≠ 0 ∨ !(s.decides t g) then s else
  match decideGroup run t.uid g.idx t g s with
  | .next s' => s.onGroup t.uid g.idx (fun g => { g with stall := ((s'.group? t.uid g.idx).map (fun h => h.stall)).getD 0 })
  | _ => s

/-- Before a core is sampled, each of its groups says what holds it now. -/
def State.probeCore (run : Instr → State → Outcome State Fault Refusal) (s : State) (core : Nat) : State :=
  s.teams.foldl (fun s t => (t.groups.filter (fun g => g.core == core)).foldl (fun s g => s.probe run t g) s) s

/-- A record of the placement log (R382). -/
def PlaceRec.bytes (r : PlaceRec) : List Byte :=
  leBytes 8 r.time.toNat ++ leBytes 4 r.gen.toNat ++ leBytes 4 r.launch.toNat ++ leBytes 4 r.tlin ++ leBytes 2 r.core ++ leBytes 1 r.ctx ++
    leBytes 1 r.event ++ leBytes 8 0

/-- The controller is told something (R382, R383, R395): it forwards a taint notice of another part to its own host, keeps a hash, and gives the host
a record of the placement log, counted from the oldest (log 114). -/
def State.tell (s : State) : Told → Outcome State Fault Refusal
  | .taint bs => if s.up then .next (s.send (.taint s.part bs)) else .fault .eventCannotOccur
  | .chained h => if h.length = 48 then .next { s with chained := addOnce h s.chained } else .fault .eventCannotOccur
  | .placed n =>
    match s.plog[n]? with
    | some r => .next (s.send (.placed n r.bytes))
    | none => .fault .eventCannotOccur

/-- Before an event of the inbox occurs: a sampled core's groups say what holds them, a start begins afresh (R404), and the same event is owed no more,
but for a command that a busy mailbox ignores (R398). -/
def State.before (run : Instr → State → Outcome State Fault Refusal) (s : State) (i : Instr) : State :=
  let s := match i with
    | .stallSample core => s.probeCore run core
    | .parkRule core => s.probeCore run core
    | .powerGood _ => { s with attempting := false }
    | .fundamentalReset _ _ => { s with attempting := false }
    | _ => s
  if s.ignores i then s else s.unowe i

/-- One action of the inbox. -/
def runAct (run : Instr → State → Outcome State Fault Refusal) (a : Act) (s : State) : Outcome State Fault Refusal :=
  match a with
  | .event i =>
    match run i (s.before run i) with
    | .next s' => .next (s'.settle i).after
    | o => o
  | .issue t g => issueGroup run t g s
  | .bundle t g => issueChosen run t g s
  | .pair t g => issuePair run t g s
  | .upset u => s.upset u
  | .told x => s.tell x

/-- What comes from outside once, and waits while something holds it back: requests at their homes (R278, R347, R365), the host's answers
and commands, and the end of a start barrier, which wait for old accesses (R275) or for a full overlay (R347; log 12). -/
def Instr.arrives (s : State) : Instr → Bool
  | .loadPacket p => p.dstPart == s.part
  | .storePacket p => p.dstPart == s.part
  | .atomicPacket p => p.dstPart == s.part
  | .promotionRequest _ _ p => p.dstPart == s.part && p.srcPart != s.part
  | .replyPacket p => p.dstPart == s.part && p.kind == 0x04 && p.cut
  | .engineDataPacket p _ => p.dstPart == s.part && p.kind == 0x08 && p.spray && decide (9 ≤ p.payload.length)
  | .barrierPacket plane spine p => p.kind == 0x0C && decide (6 ≤ p.payload.length ∧ plane < 36 ∧ spine < 32)
  | .cxlMemRead _ _ => true
  | .cxlMemWrite _ _ => true
  | .hostInvalidate ctx _ => (s.ctx? ctx).isSome
  | .faultFill ctx va _ => s.faultq.any (fun r => r.ctx == ctx && r.page == pageOf (BitVec.ofNat 64 va))
  | .hostFedAppend queue _ => ((s.queue? queue).map (fun q => !q.deviceFed)).getD false
  | .startBarrierRelease queue _ _ _ => ((s.queue? queue).map (fun q => !q.barrier.isEmpty)).getD false
  | .startBarrierTimeout queue => ((s.queue? queue).map (fun q => !q.barrier.isEmpty)).getD false
  | .regimg fn _ _ _ => s.up && decide (fn ≤ 8)
  | .restore fn _ _ _ => s.up && decide (fn ≤ 8)
  | .twinEdit fn _ _ _ => s.up && decide (fn ≤ 8)
  | .twinRelease fn _ => s.up && decide (fn ≤ 8)
  | .testPassFail cluster _ => s.up && decide (cluster < Config.numClusters) && !(s.retired.contains cluster)
  | _ => false

/-- One step: the head of the inbox, else what happens inside. What cannot occur does not occur, and the step goes on without it; a request
that cannot be performed yet is owed. -/
def stepWith (run : Instr → State → Outcome State Fault Refusal) (s : State) : Outcome State Fault Refusal :=
  match s.inbox with
  | a :: rest =>
    match runAct run a { s with inbox := rest } with
    | .fault _ =>
      match a with
      | .event i => .next (if Instr.arrives s i then (({ s with inbox := rest } : State).oweOnce i).showBusy i else { s with inbox := rest })
      | _ => .next { s with inbox := rest }
    | o => o
  | [] =>
    match runInside run s with
    | .fault _ => .next s
    | o => o

/-- INSTRUCTION_FETCH (R305): the 256-byte code line of the group's issue address arrives. -/
def execInstructionFetch (team grp : Nat) (s : State) : Outcome State Fault Refusal :=
  match s.team? team, s.group? team grp with
  | some t, some g =>
    match g.fragment, s.launch? t.launch with
    | some (ia, _), some l =>
      if 65536 ≤ ia.toNat / 4 ∧ !((s.core g.core).fetched.contains (l.image, ia.toNat / 256)) then
        .next (s.onCore g.core (fun c => { c with fetched := (l.image, ia.toNat / 256) :: c.fetched }))
      else .fault .eventCannotOccur
    | _, _ => .fault .eventCannotOccur
  | _, _ => .fault .eventCannotOccur

end Sys2Proof.Machine
end

