-- ==== Sys2Proof/Machine/MemInstr.lean ====
section
/-!
DEFINITION. Loads, stores, gathers, scatters, acquires, releases and atomics of lanes (R133-R149).
-/
namespace Sys2Proof.Machine

open Host (Outcome Cell)

/-! ### Sizes and values (R137) -/

/-- Bytes of a SIZE code (R137). -/
def sizeBytes (s : BitVec 3) : Nat := getAt [1, 1, 2, 2, 4, 8, 16] s.toNat 0

/-- Registers of a SIZE code (R137). -/
def sizeRegs (s : BitVec 3) : Nat := getAt [1, 1, 1, 1, 1, 2, 4] s.toNat 1

/-- A SIZE code that sign-extends (R137). -/
def sizeSigned (s : BitVec 3) : Bool := s.toNat = 1 || s.toNat = 3

/-- The words that loaded bytes write: 1 or 2 bytes extended, longer ones word by word (R137, R138). -/
def extWords (signed : Bool) (bs : List Byte) : List Word :=
  if bs.length < 4 then
    let v := leNat bs
    let top := 2 ^ (8 * bs.length)
    [BitVec.ofNat 32 (if signed && decide (top / 2 ≤ v) then v + 2 ^ 32 - top else v)]
  else bytesWords (bs.length / 4) bs

/-- The bytes that a lane's registers from D store (R137, R139). -/
def Issue.dataOf (i : Issue) (d : RegField) (regs n l : Nat) : List Byte :=
  (wordsBytes ((List.range regs).map (fun k => i.regAt d k l))).take n

/-- The global address of a lane: the pair A (R133). -/
def Issue.pairAddrs (i : Issue) (g : Guard) (a : RegField) : List (Nat × Dword) :=
  (i.taking g).map (fun l => (l, i.pair a l))

/-! ### Global loads and stores -/

/-- A load of `n` bytes into `dN` registers from D (R138): the checks, the wait for an earlier acquire (R146), the watchpoint
test, and the access. -/
def loadGlobal (i : Issue) (xs : List (Nat × Dword)) (n dN : Nat) (signed : Bool) (kind : AccKind) (scope : Nat) (ctr : Option Nat)
    (d : RegField) (s : State) : Outcome State Fault Refusal :=
  i.unless s (i.globalStop s xs n scope .read)
    (if !xs.isEmpty && s.acquiring i then i.stall 6 s else
     i.unless s (i.counterStop s ctr)
    (if xs.isEmpty then i.begin (.done 0) ctr d.toNat dN n signed [] [] s else
     i.unless s (if i.watchLate s xs then none else i.watchStop s xs n .read kind.acquireScope)
       (i.beginRead kind ctr d.toNat dN n signed (xs.map (fun x => ⟨x.1, x.2.toNat, i.locOf s x.2 .read, []⟩)) s)))

/-- A store of `n` bytes a lane (R139): the checks with the hold quota (R135, R142, R147), the waits of an earlier acquire or
FENCE.REL and of its own release (R146, R150), the watchpoint test, the charge or the commit, and the access. -/
def storeGlobal (i : Issue) (xs : List (Nat × Dword)) (n : Nat) (kind : AccKind) (scope : Option Nat) (ctr : Option Nat)
    (data : Nat → List Byte) (s : State) : Outcome State Fault Refusal :=
  i.unless s (i.globalStop s xs n (scope.getD 0) .write) (i.unless s (i.quotaStop s xs .write (scope.getD 0))
    (if !xs.isEmpty && s.acquiring i then i.stall 6 s else
     i.unless s (i.counterStop s ctr)
    (if xs.isEmpty then i.begin (.done 1) ctr 0 0 n false [] [] s else
     i.after (s.fenceWait i) (fun s => i.after (match scope with | some c => s.releaseWait i c | none => .ok s) (fun s =>
       i.unless s (i.watchStop s xs n .write 0)
         (match i.charge s (xs.map (fun x => i.locOf s x.2 .write)) (scope.getD 0) with
          | none => i.stall 6 s
          | some s =>
            let s := match scope with
              | some c => if c ≤ 2 then s.onTeam i.cur.team (fun t => { t with released := true }) else s
              | none => s
            i.begin kind ctr 0 0 n false (xs.map (fun x => ⟨x.1, x.2.toNat, i.locOf s x.2 .write, data x.1⟩)) [] s))))))

/-- LD (R138). A hint never changes a value (R137). -/
def execLd (g : Guard) (d a : RegField) (_h c : BitVec 2) (sz : BitVec 3) (s : State) : Outcome State Fault Refusal :=
  issued s (ldSizeOk sz) (fun _ => [.dstMem d (sizeRegs sz), .srcNoLatch a 2]) true (fun i =>
    loadGlobal i (i.pairAddrs g a) (sizeBytes sz) (sizeRegs sz) (sizeSigned sz) .load 0 (some c.toNat) d s)

/-- ST (R139). -/
def execSt (g : Guard) (d a : RegField) (h c : BitVec 2) (sz : BitVec 3) (s : State) : Outcome State Fault Refusal :=
  issued s (stSizeOk sz && stHintOk h) (fun _ => [.rw d (sizeRegs sz), .srcNoLatch a 2]) true (fun i =>
    storeGlobal i (i.pairAddrs g a) (sizeBytes sz) .store none (some c.toNat) (i.dataOf d (sizeRegs sz) (sizeBytes sz)) s)

/-- The index registers of GATH and SCAT: a 64-bit index is a pair (R144). -/
def indexRegs (w : BitVec 2) : Nat := if w.toNat = 3 then 2 else 1

/-- The address of a lane of GATH or SCAT: base plus the extended index times the element size, modulo 2^64 (R144). -/
def Issue.gatherAddr (i : Issue) (a : RegField) (w : BitVec 2) (sgn : Bool) (e : BitVec 2) (l : Nat) : Dword :=
  let base : Dword := i.regAt a (indexRegs w + 1) l ++ i.regAt a (indexRegs w) l
  let ix : Dword :=
    match w.toNat with
    | 0 => let b := fld (i.regAt a 0 l) 0 8; if sgn then b.signExtend 64 else b.setWidth 64
    | 1 => let b := fld (i.regAt a 0 l) 0 16; if sgn then b.signExtend 64 else b.setWidth 64
    | 2 => let b := i.regAt a 0 l; if sgn then b.signExtend 64 else b.setWidth 64
    | _ => i.pair a l
  base + (ix <<< e.toNat)

/-- Element bytes of GATH and SCAT (R144). -/
def elemBytes (e : BitVec 2) : Nat := 2 ^ e.toNat

/-- Element registers of GATH and SCAT (R144). -/
def elemRegs (e : BitVec 2) : Nat := if e.toNat = 3 then 2 else 1

/-- The addresses of GATH and SCAT. -/
def Issue.gatherAddrs (i : Issue) (g : Guard) (a : RegField) (w : BitVec 2) (sgn : Bool) (e : BitVec 2) : List (Nat × Dword) :=
  (i.taking g).map (fun l => (l, i.gatherAddr a w sgn e l))

/-- GATH (R144). -/
def execGath (g : Guard) (d a : RegField) (w : BitVec 2) (x : Bool) (e c : BitVec 2) (s : State) : Outcome State Fault Refusal :=
  issued s true (fun _ => [.dstMem d (elemRegs e), .srcNoLatch a (indexRegs w + 2)]) true (fun i =>
    loadGlobal i (i.gatherAddrs g a w x e) (elemBytes e) (elemRegs e) false .load 0 (some c.toNat) d s)

/-- SCAT (R144). -/
def execScat (g : Guard) (d a : RegField) (w : BitVec 2) (x : Bool) (e c : BitVec 2) (s : State) : Outcome State Fault Refusal :=
  issued s true (fun _ => [.rw d (elemRegs e), .srcNoLatch a (indexRegs w + 2)]) true (fun i =>
    storeGlobal i (i.gatherAddrs g a w x e) (elemBytes e) .store none (some c.toNat) (i.dataOf d (elemRegs e) (elemBytes e)) s)

/-- The scope code of a word is not 7 (R234). -/
def scopeValid (sc : BitVec 3) : Bool := sc.toNat != 7

/-- Bytes of an LDA or STL size code (R145). -/
def syncBytes (z : BitVec 2) : Nat := 2 ^ z.toNat

/-- Registers of an LDA or STL size code (R145). -/
def syncRegs (z : BitVec 2) : Nat := if z.toNat = 3 then 2 else 1

/-- LDA (R145, R146): a load that is an acquire at its scope and uses no counter. -/
def execLda (g : Guard) (d a : RegField) (z : BitVec 2) (sc : BitVec 3) (s : State) : Outcome State Fault Refusal :=
  issued s true (fun _ => [.dstMem d (syncRegs z), .srcNoLatch a 2]) (scopeValid sc) (fun i =>
    loadGlobal i (i.pairAddrs g a) (syncBytes z) (syncRegs z) false (.acquire sc.toNat) sc.toNat none d s)

/-- STL (R145, R146, R147): a store that is a release at its scope. -/
def execStl (g : Guard) (d a : RegField) (z : BitVec 2) (sc : BitVec 3) (s : State) : Outcome State Fault Refusal :=
  issued s true (fun _ => [.rw d (syncRegs z), .srcNoLatch a 2]) (scopeValid sc) (fun i =>
    storeGlobal i (i.pairAddrs g a) (syncBytes z) (.release sc.toNat) (some sc.toNat) none (i.dataOf d (syncRegs z) (syncBytes z)) s)

/-! ### Scratchpad -/

/-- The offsets of the lanes that access the scratchpad (R133). -/
def Issue.offsets (i : Issue) (g : Guard) (a : RegField) : List (Nat × Nat) :=
  (i.taking g).map (fun l => (l, (i.regAt a 0 l).toNat))

/-- The lowest uncorrectable line among some bytes (R270). -/
def Team.badLine (t : Team) (xs : List (Nat × Nat)) (n : Nat) : Option Nat :=
  (sortBy id (((xs.map (fun x => linesOf x.2 n)).flatten).filter t.bad.contains)).head?

/-- LDS (R138, R143): performed at issue, in issue order; the registers are written when it completes. -/
def execLds (g : Guard) (d a : RegField) (c : BitVec 2) (sz : BitVec 3) (s : State) : Outcome State Fault Refusal :=
  issued s (ldSizeOk sz) (fun _ => [.dstMem d (sizeRegs sz), .srcNoLatch a 1]) true (fun i =>
    let xs := i.offsets g a
    let n := sizeBytes sz
    i.unless s (i.scratchStop s xs n false)
     (if !xs.isEmpty && s.acquiring i then i.stall 6 s else
      i.unless s (i.counterStop s (some c.toNat))
      (match i.team.badLine xs n with
       | some k => .next (s.deliverE i.cur.team 0 (BitVec.ofNat 64 k))
       | none =>
         i.begin (.done 0) (some c.toNat) d.toNat (sizeRegs sz) n false []
           (xs.map (fun x => (x.1, wordsBytes (extWords (sizeSigned sz) (Memory.read i.team.scratch x.2 n)), 0))) s)))

/-- A line written whole by one instruction is no longer uncorrectable (R270). -/
def Team.healed (t : Team) (cells : List Cell) : List Nat :=
  if t.bad.isEmpty then [] else
  t.bad.filter (fun k => !((List.range 256).all (fun j => (cellAt (k * 256 + j) cells).isSome)))

/-- Write bytes to a team's scratchpad, lane after lane. -/
def Team.scratchWrite (t : Team) (xs : List (Nat × List Byte)) : Team :=
  let cells := xs.foldl (fun cs x => cellsWrite cs x.1 x.2) []
  { t with scratch := xs.foldl (fun m x => Memory.write m x.1 x.2) t.scratch, bad := t.healed cells }

/-- STS (R139, R143). -/
def execSts (g : Guard) (d a : RegField) (c : BitVec 2) (sz : BitVec 3) (s : State) : Outcome State Fault Refusal :=
  issued s (stSizeOk sz) (fun _ => [.rw d (sizeRegs sz), .srcNoLatch a 1]) true (fun i =>
    let xs := i.offsets g a
    let n := sizeBytes sz
    i.unless s (i.scratchStop s xs n true)
     (if !xs.isEmpty && s.acquiring i then i.stall 6 s else
      i.unless s (i.counterStop s (some c.toNat))
      (if xs.isEmpty then i.begin (.done 1) (some c.toNat) 0 0 n false [] [] s else
       i.after (s.fenceWait i) (fun s =>
         i.begin (.done 1) (some c.toNat) 0 0 n false [] []
           (s.onTeam i.cur.team (fun t => t.scratchWrite (xs.map (fun x => (x.2, i.dataOf d (sizeRegs sz) n x.1)))))))))

/-! ### Atomics (R148, R149) -/

/-- A 64-bit operation of ATOM and ATOMS (R148). -/
def atomWide (o : Nat) : Bool := decide (0xB ≤ o)

/-- Bytes of an atomic access (R148). -/
def atomBytes (o : Nat) : Nat := if atomWide o then 8 else 4

/-- Registers of the operand block (R148). -/
def atomBlock (o : Nat) : Nat := if o = 0xD then 4 else if atomWide o then 3 else 2

/-- What a 32-bit operation writes: none when a compare fails (R148). -/
def atomNew32 (o : Nat) (old v w : Word) : Option Word :=
  match o with
  | 0 => some v
  | 1 => some (old + v)
  | 2 => some (old &&& v)
  | 3 => some (old ||| v)
  | 4 => some (old ^^^ v)
  | 5 => some (if old.toInt ≤ v.toInt then old else v)
  | 6 => some (if old.toInt ≤ v.toInt then v else old)
  | 7 => some (if old.toNat ≤ v.toNat then old else v)
  | 8 => some (if old.toNat ≤ v.toNat then v else old)
  | 9 => if old = w then some v else none
  | _ => some (BitVec.ofNat 32 (Fmt.f32.encode .rne false (Val.add .rne (Fmt.f32.decode old.toNat) (Fmt.f32.decode v.toNat))))

/-- What a 64-bit operation writes: none when a compare fails (R148). -/
def atomNew64 (o : Nat) (old v w : Dword) : Option Dword :=
  match o with
  | 0xB => some v
  | 0xC => some (old + v)
  | _ => if old = w then some v else none

/-- The bytes an atomic step writes over the old bytes, with the operand block's bytes (R148). -/
def atomStep (o : Nat) (old block : List Byte) : Option (List Byte) :=
  if atomWide o then
    (atomNew64 o (BitVec.ofNat 64 (leNat old)) (BitVec.ofNat 64 (bytesAt block 0 8)) (BitVec.ofNat 64 (bytesAt block 8 8))).map
      (fun v => leBytes 8 v.toNat)
  else
    (atomNew32 o (BitVec.ofNat 32 (leNat old)) (BitVec.ofNat 32 (bytesAt block 0 4)) (BitVec.ofNat 32 (bytesAt block 4 4))).map
      (fun v => leBytes 4 v.toNat)

/-- The words an atomic writes to its block: the old value, the status, and 0 to D+3 for cas64 (R149). -/
def atomWords (o : Nat) (old : List Byte) (st : Nat) : List Word :=
  let v := if st = 1 then List.replicate (atomBytes o) 0 else old
  bytesWords (atomBytes o / 4) v ++ [BitVec.ofNat 32 st] ++ (if o = 0xD then [0] else [])

/-- ATOM (R148, R149): a release and an acquire at its scope. -/
def execAtom (g : Guard) (d a : RegField) (o : BitVec 4) (sc : BitVec 3) (s : State) : Outcome State Fault Refusal :=
  issued s (atomOpOk o) (fun _ => [.rw d (atomBlock o.toNat), .srcNoLatch a 2]) (scopeValid sc) (fun i =>
    let xs := i.pairAddrs g a
    let n := atomBytes o.toNat
    i.unless s (i.globalStop s xs n sc.toNat .atomic) (i.unless s (i.quotaStop s xs .atomic sc.toNat)
      (if xs.isEmpty then i.begin (.done 2) none d.toNat (atomBlock o.toNat) n false [] [] s else
       if s.acquiring i then i.stall 6 s else
       i.after (s.fenceWait i) (fun s => i.after (s.releaseWait i sc.toNat) (fun s =>
         i.unless s (i.watchStop s xs n .atomic sc.toNat)
           (match i.charge s (xs.map (fun x => i.locOf s x.2 .atomic)) sc.toNat with
            | none => i.stall 6 s
            | some s =>
              let s := if sc.toNat ≤ 2 then s.onTeam i.cur.team (fun t => { t with released := true }) else s
              i.beginRead (.atomic o.toNat sc.toNat) none d.toNat (atomBlock o.toNat) n false
                (xs.map (fun x => ⟨x.1, x.2.toNat, i.locOf s x.2 .atomic, i.dataOf d (atomBlock o.toNat) 16 x.1⟩)) s))))))

/-- The steps of ATOMS, lane after lane: each sees what the lane before it left (R149). -/
def scratchSteps (o : Nat) (block : Nat → List Byte) : List (Nat × Nat) → List Cell → List Cell × List (Nat × List Byte × Nat)
  | [], m => (m, [])
  | (l, off) :: xs, m =>
    let old := Memory.read m off (atomBytes o)
    let m := match atomStep o old (block l) with | some bs => Memory.write m off bs | none => m
    let (m, rs) := scratchSteps o block xs m
    (m, (l, wordsBytes (atomWords o old 0), 0) :: rs)

/-- ATOMS (R148, R149): scopes 3-6 are BAD_SCOPE; it never answers status 1. -/
def execAtoms (g : Guard) (d a : RegField) (o : BitVec 4) (sc : BitVec 3) (s : State) : Outcome State Fault Refusal :=
  issued s (atomOpOk o) (fun _ => [.rw d (atomBlock o.toNat), .srcNoLatch a 1]) (decide (sc.toNat ≤ 2)) (fun i =>
    let xs := i.offsets g a
    let n := atomBytes o.toNat
    i.unless s (i.scratchStop s xs n true)
      (if xs.isEmpty then i.begin (.done 2) none d.toNat (atomBlock o.toNat) n false [] [] s else
       if s.acquiring i then i.stall 6 s else
       i.after (s.fenceWait i) (fun s => i.after (s.releaseWait i sc.toNat) (fun s =>
         match i.team.badLine xs n with
         | some k => .next (s.deliverE i.cur.team 0 (BitVec.ofNat 64 k))
         | none =>
           let r := scratchSteps o.toNat (i.dataOf d (atomBlock o.toNat) 16) xs i.team.scratch
           i.begin (.done 2) none d.toNat (atomBlock o.toNat) n false [] r.2
             (s.onTeam i.cur.team (fun t => { t with scratch := r.1, released := true }))))))

end Sys2Proof.Machine
end

