-- ==== Sys2Proof/Machine/Meters.lean ====
section
/-!
DEFINITION. Circulation counters: the count at the tap, and the statements that the Iswell controller signs (R391-R395).
-/
namespace Sys2Proof.Machine

/-- Bytes 0x00 to 0x5F of a statement (R394). -/
def statementBody (kind : Nat) (gap : Bool) (region : Word) (seq value : Dword) (prev : List Byte) : List Byte :=
  leBytes 4 0x4D545243 ++ leBytes 2 kind ++ leBytes 2 (if gap then 1 else 0) ++ padTo 16 Config.devid ++ leBytes 4 region.toNat ++
    leBytes 4 0 ++ leBytes 8 seq.toNat ++ leBytes 8 value.toNat ++ padTo 48 prev

/-- Sign a statement of a region (R394, R395): its value is the counter, its predecessor the region's last statement. -/
def State.sign (s : State) (m : Meter) (kind : Nat) (gap : Bool) (seq : Dword) : State :=
  let body := statementBody kind gap m.region seq m.counter m.hash
  let stmt := body ++ padTo 96 (Config.freeSignature body)
  let m' := { m with seq := seq, hash := sha384 body }
  { s with statements := stmt :: s.statements
           meters := m' :: s.meters.filter (fun (x : Meter) => x.region != m.region) }.send (.statement stmt)

/-- Count one line of a region (R392, R395): the counter stays at its greatest value, and signs a periodic statement at a multiple of
2^20. -/
def State.countLine (s : State) (m : Meter) : State :=
  if m.counter = BitVec.allOnes 64 then s else
  let m' := { m with counter := m.counter + 1 }
  if m'.counter.toNat % 2 ^ 20 = 0 then s.sign m' 1 false (m.seq + 1)
  else { s with meters := m' :: s.meters.filter (fun (x : Meter) => x.region != m.region) }

/-- Lines of metered pages that one instruction reads at a tap count once each (R392). -/
def State.tap (s : State) (ls : List Loc) : State :=
  let lines := (ls.filter (fun l => l.met && l.part == s.part)).foldl (fun acc l => addOnce (l.pa / 256) acc) []
  lines.foldl (fun s k => match s.meter? (k * 256) with
    | some m => s.countLine m
    | none => s) s

end Sys2Proof.Machine
end

