-- ==== Sys2Proof/Machine/MemEvents.lean ====
section
/-!
DEFINITION. The completions of accesses: loads, stores, atomics and AWAIT, and the drains of write-combining entries (R138-R141,
R146, R149, R152, R245, R271, R277, R343, R363-R370).
-/
namespace Sys2Proof.Machine

open Host (Outcome Cell)

/-- Nothing to perform now. -/
def nothing : Outcome State Fault Refusal := .fault .eventCannotOccur

/-- A twin performs accesses only while it is stepped or runs as a rival (R349, R350). -/
def State.runs (s : State) (ctx : Nat) : Bool :=
  match s.twinNum? ctx with
  | some w => w.state == .rival || w.state == .stepping
  | none => true

/-- The context of an access's team. -/
def State.ctxOf (s : State) (team : Nat) : Nat := ((s.team? team).map (fun t => t.ctx)).getD 0

/-- The outstanding access with an identifier. -/
def State.access? (s : State) (id : Nat) : Option Access := s.accesses.find? (fun a => a.id == id)

/-- Update one access. -/
def State.onAccess (s : State) (id : Nat) (f : Access → Access) : State :=
  { s with accesses := s.accesses.map (fun a => if a.id = id then f a else a) }

/-- Two accesses touch a common byte. -/
def Access.overlaps (a b : Access) : Bool :=
  a.lanes.any (fun x => b.lanes.any (fun y => x.loc.part == y.loc.part && decide (x.loc.pa < y.loc.pa + b.size ∧ y.loc.pa < x.loc.pa + a.size)))

/-- An earlier access of the group to a byte of this one is still to be performed (R141). -/
def State.behind (s : State) (a : Access) : Bool :=
  s.accesses.any (fun b => b.team == a.team && b.grp == a.grp && decide (b.id < a.id) && a.overlaps b)

/-- The access ends: its counter drops, its registers are free (R138, R139, R141). -/
def State.endAccess (s : State) (a : Access) : State :=
  { s with accesses := s.accesses.filter (fun b => b.id != a.id) }.onGroup a.team a.grp (fun g =>
    match a.ctr with
    | some k => { g with ctrs := setAt g.ctrs k (getAt g.ctrs k 0 - 1) }
    | none => g)

/-- Write an access's registers in one lane. -/
def State.writeLane (s : State) (team grp dst lane : Nat) (ws : List Word) : State :=
  s.onGroup team grp (fun g => g.onLanes (BitVec.ofNat 64 (2 ^ lane)) (fun _ l =>
    (mapFrom (fun k v => (dst + k, v)) 0 ws).foldl (fun l kv => l.setReg kv.1 kv.2) l))

/-- Results performed before the cut of their home go to the twin too (R343): its copy of the access loses those lanes. -/
def State.echo (s : State) (ctx id : Nat) (rs : List (Nat × List Word)) : State :=
  match (s.twinCopy? ctx id).bind s.access? with
  | none => s
  | some b =>
    let s := rs.foldl (fun s r => s.writeLane b.team b.grp b.dst r.1 r.2) s
    let left := b.lanes.filter (fun x => !(rs.any (fun r => r.1 == x.lane)))
    if left.isEmpty then s.endAccess b else s.onAccess b.id (fun a => { a with lanes := left })

/-- The home of a lane's location has not cut for a twin being forked. -/
def State.beforeCut (s : State) (ctx : Nat) (l : Loc) : Bool :=
  match s.twinOf? ctx with
  | some w => l.part == s.part && decide (l.pa < Config.hostBase) && !(w.cutHomes.contains (homeDie (s.placeFor ctx l.pa)))
  | none => false

/-- The issue in progress of a group that completes an instruction outside its issue. -/
def State.resumeIssue (s : State) (team grp : Nat) (exec : LaneMask) (pc : Word) : State × Option Issue :=
  let s := { s with cur := some ⟨team, grp, exec, pc, false⟩ }
  (s, s.issue?)

/-- The issue in progress ends. -/
def finished (o : Outcome State Fault Refusal) : Outcome State Fault Refusal :=
  match o with
  | .next s => .next { s with cur := none }
  | o => o

/-- The issue of a group that has waited for its access completes: it advances and is counted (R152). -/
def State.finishAwait (s : State) (team grp : Nat) (exec : LaneMask) (pc : Word) : Outcome State Fault Refusal :=
  match (s.onGroup team grp (fun g => { g with wait := .none })).resumeIssue team grp exec pc with
  | (s, some i) => finished (i.retire id s)
  | (s, none) => .next { s with cur := none }

/-- The group's issue waits for this access: an AWAIT, or its latest access where it waits for the answers of other parts. -/
def State.holdsIssue (s : State) (a : Access) : Bool :=
  match (s.group? a.team a.grp).map (fun g => g.wait) with
  | some (Wait.await _) => (match a.kind with | .await _ => true | _ => false)
  | some (Wait.reply _) => !(s.accesses.any (fun b => b.team == a.team && b.grp == a.grp && decide (a.id < b.id)))
  | _ => false

/-- An access has been performed: it ends, and the issue that waits for it goes on. -/
def State.complete (s : State) (a : Access) : Outcome State Fault Refusal :=
  if s.holdsIssue a then (s.endAccess a).finishAwait a.team a.grp a.exec a.pc else .next (s.endAccess a)

/-- A fault that an access meets at its home (R271, R370): the instruction that waits for it raises it, precisely. For one of a twin that went on without the
answer it is pended for its lane (log 17). -/
def State.accessFault (s : State) (a : Access) (detail : Nat) (x : LaneAcc) : Outcome State Fault Refusal :=
  if s.holdsIssue a then
    match ((s.endAccess a).onGroup a.team a.grp (fun g => { g with wait := .none })).resumeIssue a.team a.grp a.exec a.pc with
    | (s, some i) => finished (i.raise (Trap.access detail x.va) s)
    | (s, none) => .next { s with cur := none }
  else .next ((s.endAccess a).pend a.team a.grp ⟨0x05, detail, 0, false, some a.pc, BitVec.ofNat 64 x.va, some x.lane, none⟩)

/-- The lanes of an access on other parts that are atomics find the team's own bytes there before them (R141, R149): its entries for their
lines drain first. None waits. -/
def State.drainAhead (s : State) (a : Access) (rs : List LaneAcc) : Option State :=
  s.drainAll (s.wc.filter (fun e => e.core == a.core && e.team == a.team && rs.any (fun x => x.loc.part == e.part && x.loc.pa / 256 == e.line)))

/-- An access to a page in FREEZE or DRAIN joins the page's queue, in arrival order, and may be performed only as its head in
DRAIN (R277, R278): none goes on, some answers what happens instead. -/
def State.queueAt (s : State) (a : Access) : Option (Outcome State Fault Refusal) :=
  match a.lanes.find? (fun x => x.loc.part == s.part && (s.queueing? x.loc.pa).isSome) with
  | none => none
  | some x =>
    match s.joinQueue (.access a.id) x.loc.pa with
    | none => none
    | some (s, new) => some (if new then .next (s.owe a.event) else nothing)

/-- An access stands in the queue of a migrating page. -/
def State.queuedAs (s : State) (a : Access) : Bool := s.migrations.any (fun m => m.queued.contains (.access a.id))

/-- The lines of metered pages that an AWAIT reads here, as its lanes, the lines' bytes and a mark of 8: it reads a line again whenever it is written (R152, R392). -/
def State.metLines (s : State) (a : Access) : List (Nat × List Byte × Nat) :=
  (a.lanes.filter (fun x => x.loc.part == s.part && x.loc.met)).map (fun x => (x.lane, s.viewRead (s.ctxOf a.team) (x.loc.pa / 256 * 256) 256, 8))

/-- Take an access out of the queues of migrating pages. -/
def State.unqueue (s : State) (a : Access) : State := s.unqueued (.access a.id)

/-- The lanes whose home is on another part. -/
def State.remoteLanes (s : State) (a : Access) : List LaneAcc := a.lanes.filter (fun x => x.loc.part != s.part)

/-- An atomic of a team that holds its stores only reads at another part, by an operation that leaves the bytes as they are, and its result is held
(R142, R268; log 88): an or or an add of 0. -/
def Access.asks (a : Access) (kind aux : Nat) : Access × Nat :=
  if kind = 3 ∧ a.signed then
    ({ a with lanes := a.lanes.map (fun x => { x with data := List.replicate (if a.size = 8 then 12 else 8) 0 }) }, (if a.size = 8 then 0xC else 3) * 8 + aux % 8)
  else (a, aux)

/-- A store of the same team and core to a line of some lanes is still to be answered, so that an atomic waits (R141, R365). -/
def State.storesAhead (s : State) (a : Access) (rs : List LaneAcc) : Bool :=
  s.reqs.any (fun r => match r.wc with
    | some e => e.core == a.core && e.team == a.team && rs.any (fun x => x.loc.part == e.part && x.loc.pa / 256 == e.line)
    | none => false)

/-- When an access or entry of a context was issued: a twin's copy counts as the one that it was made from (R343, R348). -/
def State.origin (s : State) (ctx id : Nat) : Nat := (((s.twinNum? ctx).bind (fun w => w.pairs.find? (fun p => p.2 == id))).map (fun p => p.1)).getD id

/-- An access or entry is one that a twin is to perform again (R343). -/
def State.isReplay (s : State) (ctx id : Nat) : Bool := ((s.twinNum? ctx).map (fun w => w.pairs.any (fun p => p.2 == id))).getD false

/-- A store or entry that a twin is to perform again waits for its turn (R343): the reads and atomics of the table come first, but for one that itself waits for a
store of its group, then the entries in the order that they held. -/
def State.replayWaits (s : State) (ctx id : Nat) : Bool :=
  s.isReplay ctx id &&
    (s.accesses.any (fun a => s.isReplay ctx a.id && !a.waiting && !(s.behind a) &&
        (match a.kind with | .load => true | .acquire _ => true | .atomic _ _ => true | _ => false)) ||
      s.wc.any (fun e => s.isReplay ctx e.id && e.id != id && (decide (s.origin ctx e.id < s.origin ctx id) || !(s.wc.any (fun x => x.id == id)))))

/-- An access that a twin issued earlier is still to enter its quarantine (R348). -/
def State.quarantineTurn (s : State) (a : Access) : Bool :=
  !(s.quarantined (s.ctxOf a.team)) || !(s.accesses.any (fun b => decide (s.origin (s.ctxOf a.team) b.id < s.origin (s.ctxOf a.team) a.id) && s.ctxOf b.team == s.ctxOf a.team && !b.waiting && s.awaitsRelease b))

/-- The watchpoint test of a read at another part, whose answers have come (R337): the read is not performed, and what it does instead. -/
def State.lateWatch (s : State) (a : Access) : Option (Outcome State Fault Refusal) :=
  if !(s.holdsIssue a) || (s.remoteLanes a).isEmpty || (match a.kind with | .atomic _ _ => true | _ => false) then none else
  match (s.onGroup a.team a.grp (fun g => { g with wait := .none })).resumeIssue a.team a.grp a.exec a.pc with
  | (s1, some i) =>
    match i.watchHit s1 (a.lanes.map (fun x => (x.lane, BitVec.ofNat 64 x.va))) a.size .read with
    | none => none
    | some (k, va) =>
      let s2 := (s1.unqueue a).endAccess a
      some (match i.watchTake s2 k va with
        | .trap t => finished (i.raise t s2)
        | .wait r s3 => finished (i.stall r s3))
  | (_, none) => none

/-- Send the requests of an access's lanes on other parts (R363): kind 1 loads carry the size and the scope of an acquire, kind 3 atomics
the operand block; both name the core and the launch's measurement (log 15). -/
def State.sendLanes (s : State) (a : Access) (kind aux : Nat) (xs : List LaneAcc) : State :=
  xs.foldl (fun s x => s.request kind a.core a.team (s.ctxOf a.team) x.loc.part x.loc.pa aux
    ((if kind = 1 then [BitVec.ofNat 8 a.size, BitVec.ofNat 8 a.kind.acquireScope] else x.data) ++ leBytes 2 a.core ++ s.measOf a.team) (some (a.id, x.lane)) none a.marked) s

/-- The requests to other parts of an access: none when all have been answered; else what happens instead. -/
def State.remoteStep (s : State) (a : Access) (kind aux : Nat) : Option (Outcome State Fault Refusal) :=
  let rs := s.remoteLanes a
  if rs.isEmpty then none else
  if a.waiting then (if rs.all (fun x => a.got.any (fun g => g.1 == x.lane)) then none else some nothing)
  else if !(s.quarantineTurn a) then some nothing
  else match (if kind = 3 then s.drainAhead a rs else some s) with
    | none => some nothing
    | some s1 =>
      if kind = 3 ∧ s1.storesAhead a rs then (if s1.wc.length = s.wc.length then some nothing else some (.next (s1.owe a.event)))
      else if rs.all (fun x => s1.mayRequest kind a.core x.loc.part x.loc.pa) then
        let a := { a with signed := a.signed || (kind == 3 && s1.holds a.team) }
        let (q, aux) := a.asks kind aux
        some (.next (((s1.sendLanes q kind aux (s1.remoteLanes q)).onAccess a.id (fun b => { b with waiting := true, signed := a.signed })).owe a.event))
      else some nothing

/-- The bytes that a lane of a load reads (R138, R141, R241, R242): at a home of this part, or from the answer of another part with what the team
has written there itself over that (log 76). -/
def State.laneBytes (s : State) (a : Access) (x : LaneAcc) : List Byte :=
  if x.loc.part = s.part then s.teamRead a.team (s.ctxOf a.team) a.core x.loc.pa a.size else
  s.overOwn a.team a.core x.loc.part x.loc.pa (((a.got.find? (fun g => g.1 == x.lane)).map (fun g => g.2.1)).getD []) a.size

/-- The first lane whose read at its home fails: a poisoned byte (0x0B, R271; status 5 of an answer), a refusal of another part (0x04, R370; status 2)
or of its allowlist (0x0C, R391; status 6). At homes of this part a load or atomic was looked at when it issued; an AWAIT is each time it reads. -/
def State.badLane (s : State) (a : Access) : Option (Nat × LaneAcc) :=
  let again := match a.kind with | .await _ => true | _ => false
  a.lanes.findSome? (fun x =>
    if x.loc.part = s.part then (if again && s.poisonedFor a.team (s.ctxOf a.team) a.core x.loc.pa a.size then some (0x0B, x) else none)
    else match (a.got.find? (fun g => g.1 == x.lane)).map (fun g => g.2.2) with
      | some 2 => some (0x04, x)
      | some 5 => some (0x0B, x)
      | some 6 => some (0x0C, x)
      | _ => none)

/-- Every lane of an access meets its home (R341, R342). -/
def State.meetLanes (s : State) (a : Access) (write : Bool) : Option State :=
  a.lanes.foldl (fun o x => o.bind (fun s =>
    if x.loc.part = s.part then s.meet (s.ctxOf a.team) a.core a.marked write (s.placeFor (s.ctxOf a.team) x.loc.pa) else some s)) (some s)

/-- The lines of this part that an access reads, where their marks stand (R245, R277). -/
def State.ownLines (s : State) (a : Access) : List Nat :=
  (a.lanes.filter (fun x => x.loc.part == s.part)).foldl (fun acc x => addOnce (s.moved x.loc.pa / 256) acc) []

/-- What an access that has been performed at issue, or took effect in no lane, writes when it completes. -/
def State.finishDone (s : State) (a : Access) : State :=
  let rs := a.got.map (fun g => (g.1, bytesWords a.dstN g.2.1))
  let s := rs.foldl (fun s r => s.writeLane a.team a.grp a.dst r.1 r.2) s
  match (s.twinCopy? (s.ctxOf a.team) a.id).bind s.access? with
  | some b => ((rs.foldl (fun s r => s.writeLane b.team b.grp b.dst r.1 r.2) s).endAccess b).endAccess a
  | none => s.endAccess a

/-- The marks that an acquire meets (R245): none goes on; some answers what happens instead. -/
def State.promoteFor (s : State) (a : Access) : Except (Outcome State Fault Refusal) State :=
  match s.serveMarks (if a.marked then some (s.ctxOf a.team) else none) s.part a.core a.team a.kind.acquireScope (s.ownLines a) with
  | none => .error nothing
  | some (s', true) => .ok s'
  | some (s', false) => if s' = s then .error nothing else .error (.next (s'.owe a.event))

/-- LOAD_COMPLETION (R138, R140): LD, LDA, GATH and LDS write their registers and the counter drops. -/
def execLoadCompletion (acc : Nat) (s : State) : Outcome State Fault Refusal :=
  match s.access? acc with
  | none => nothing
  | some a =>
    let go : Bool := match a.kind with | .load => true | .acquire _ => true | _ => false
    if a.kind = .done 0 then .next (s.finishDone a) else
    if !go || !(s.runs (s.ctxOf a.team)) || s.behind a then nothing else
    match s.queueAt a with
    | some o => o
    | none =>
      match (s.remoteStep a 1 0).orElse (fun _ => s.lateWatch a) with
      | some o => o
      | none =>
        match s.promoteFor a with
        | .error o => o
        | .ok s =>
          match s.meetLanes a false with
          | none => nothing
          | some s =>
            match s.badLane a with
            | some (d, x) => (s.unqueue a).accessFault a d x
            | none =>
              let rs := a.lanes.map (fun x => (x, extWords a.signed (s.laneBytes a x)))
              let ctx := s.ctxOf a.team
              let early := rs.filter (fun r => s.beforeCut ctx r.1.loc)
              let s := s.tap (a.lanes.map (fun x => x.loc))
              let s := rs.foldl (fun s r => s.writeLane a.team a.grp a.dst r.1.lane r.2) s
              ((s.unqueue a).echo ctx a.id (early.map (fun r => (r.1.lane, r.2)))).complete a

/-- A lane's bytes as cells at the place where they take effect. -/
def State.laneCells (s : State) (ctx : Nat) (x : LaneAcc) : List Cell := mapFrom (fun k b => (s.placeFor ctx (x.loc.pa + k), b)) 0 x.data

/-- A core-local release sends its marks to the homes of its lines (R245), those on other parts in promotion packets. None waits. -/
def State.markLanes (s : State) (a : Access) : Option State :=
  let rs := s.remoteLanes a
  if rs.all (fun x => s.mayRequest 7 a.core x.loc.part x.loc.pa) then
    some (rs.foldl (fun s x => s.request 7 a.core a.team (s.ctxOf a.team) x.loc.part (x.loc.pa / 256 * 256) 0 (promotionPayload a.core 0) none none a.marked)
      (s.mark s.part a.core (s.ownLines a)))
  else none

/-- The home of a lane's store lies on the issuing die, so it enters that die's cache (R140). -/
def State.direct (s : State) (a : Access) (x : LaneAcc) : Bool :=
  x.loc.part == s.part && decide (x.loc.pa < Config.hostBase) && homeDie (s.placeFor (s.ctxOf a.team) x.loc.pa) == dieOfCore a.core

/-- The store-buffer entry of a store's line on another part (R309): its lowest address there. -/
def State.storeBuf (s : State) (a : Access) (x : LaneAcc) : Option StoreBuf :=
  if x.loc.part = s.part then none else
  match s.team? a.team, s.group? a.team a.grp with
  | some t, some g =>
    let low := (a.lanes.filter (fun y => y.loc.part == x.loc.part && y.loc.pa / 256 == x.loc.pa / 256)).foldl (fun m y => min m y.va) x.va
    some ⟨a.pc, s.gid t.ctx g, t.tlin, t.launch, BitVec.ofNat 64 low, a.team, a.grp, a.id⟩
  | _, _ => none

/-- A store finds no place in its core's write-combining buffer until the oldest entry has drained (R367): the group records stall reason 6. -/
def State.bufferWait (s : State) (a : Access) : Outcome State Fault Refusal :=
  if ((s.group? a.team a.grp).map (fun g => g.stall == 0)).getD false then
    .next { s.onGroup a.team a.grp (fun g => { g with stall := 6 }) with begun := true }
  else nothing

/-- STORE_COMPLETION (R139, R140): ST, SCAT, STL and STS. The bytes of lines whose home is on the issuing die are performed there, in their turn where the
page migrates; the others enter the write-combining buffer, and arrive at their home when their entry drains. A core-local release leaves its mark (R245). -/
def execStoreCompletion (acc : Nat) (s : State) : Outcome State Fault Refusal :=
  match s.access? acc with
  | none => nothing
  | some a =>
    let go : Bool := match a.kind with | .store => true | .release _ => true | _ => false
    if a.kind = .done 1 then .next (s.finishDone a) else
    if !go || !(s.runs (s.ctxOf a.team)) || s.behind a || s.replayWaits (s.ctxOf a.team) a.id then nothing else
    let near := a.lanes.filter (s.direct a)
    match s.queueAt { a with lanes := near } with
    | some o => o
    | none =>
      let ctx := s.ctxOf a.team
      match s.meetLanes { a with lanes := near } true with
      | none => nothing
      | some s =>
        let early := near.filter (fun x => s.beforeCut ctx x.loc)
        let cells := near.foldl (fun cs x => (s.laneCells ctx x).foldl (fun cs c => cellPut c.1 c.2 cs) cs) []
        match s.storeHome a.team ctx cells with
        | none => nothing
        | some s =>
          let far := a.lanes.filter (fun x => !(s.direct a x))
          match far.foldl (fun o x => o.bind (fun (s : State) =>
              s.combine a.core a.team ctx x.loc.part x.loc.pa x.data (s.storeBuf a x) (a.marked || s.marksCut ctx a.core))) (some s) with
          | none => s.bufferWait a
          | some s =>
            match (match a.kind with | .release c => if c ≤ 2 then s.markLanes a else some s | _ => some s) with
            | none => nothing
            | some s => .next (((s.unqueue a).echo ctx a.id (early.map (fun x => (x.lane, [])))).endAccess a)

/-- One lane's atomic step at a home of this part (R149): the team's own entry for the line drains first, then the bytes are read
and written with nothing between. None waits. -/
def State.atomLane (s : State) (a : Access) (o : Nat) (x : LaneAcc) : Option (State × List Word) :=
  let ctx := s.ctxOf a.team
  match s.drainAll (s.wc.filter (fun e => e.core == a.core && e.team == a.team && e.part == s.part && e.line == x.loc.pa / 256)) with
  | none => none
  | some s =>
    if (s.team? a.team).isNone then some (s, []) else
    let old := s.teamRead a.team ctx a.core x.loc.pa a.size
    match atomStep o old x.data with
    | none => some (s, atomWords o old 0)
    | some bs => (s.storeHome a.team ctx (mapFrom (fun k b => (s.placeFor ctx (x.loc.pa + k), b)) 0 bs)).map (fun s => (s, atomWords o old 0))

/-- One lane's atomic step at another part, once it has been answered (R149): performed there; or, where the team holds its stores, made on what was
read there and on what the team holds, and held (R142, R268; log 88). -/
def State.atomFar (s : State) (a : Access) (o : Nat) (x : LaneAcc) : State × List Word :=
  let g := (a.got.find? (fun g => g.1 == x.lane)).getD (x.lane, [], 0)
  if !a.signed ∨ g.2.2 = 1 then (s, atomWords o (g.2.1.take a.size) g.2.2) else
  let old := s.overOwn a.team a.core x.loc.part x.loc.pa g.2.1 a.size
  match atomStep o old x.data with
  | none => (s, atomWords o old 0)
  | some bs =>
    ({ s with nextId := s.nextId + 1 }.holdOut ⟨s.nextId, a.core, a.team, x.loc.part, homeDie x.loc.pa, x.loc.pa / 256, cellsAt x.loc.pa bs, [], a.marked, s.ctxOf a.team⟩,
      atomWords o old 0)

/-- The steps of an atomic's lanes in ascending order (R149); one that a twin's RELEASE performed in its turn has its words already (R348). -/
def State.atomLanes (s : State) (a : Access) (o : Nat) : List LaneAcc → Option (State × List (LaneAcc × List Word))
  | [] => some (s, [])
  | x :: xs =>
    let r : Option (State × List Word) :=
      match a.got.find? (fun g => g.1 == x.lane && g.2.2 == 9) with
      | some g => some (s, bytesWords a.dstN g.2.1)
      | none => if x.loc.part = s.part then s.atomLane a o x else some (s.atomFar a o x)
    match r with
    | none => none
    | some (s, ws) =>
      match s.atomLanes a o xs with
      | none => none
      | some (s, rs) => some (s, (x, ws) :: rs)

/-- An atomic of a twin that has not been released, with a lane in host memory, enters the quarantine (R348) as a packet of kind 0xE2 that stays on the part; the
requests of its lanes at other parts follow it. -/
def State.quarantineAtom (s : State) (a : Access) (aux : Nat) : Outcome State Fault Refusal :=
  if a.waiting || !(s.quarantineTurn a) then nothing else
  let rs := s.remoteLanes a
  if !(rs.all (fun x => s.mayRequest 3 a.core x.loc.part x.loc.pa)) then nothing else
  let p : Packet := { kind := 0xE2, srcPart := s.part, dstPart := s.part, ctx := s.ctxOf a.team, key := a.id }
  .next (((s.sendPacket (s.ctxOf a.team) p).sendLanes a 3 aux rs).onAccess a.id (fun a => { a with waiting := true }) |>.owe a.event)

/-- ATOM_COMPLETION (R149): ATOM and ATOMS write the old value and the status. -/
def execAtomCompletion (acc : Nat) (s : State) : Outcome State Fault Refusal :=
  match s.access? acc with
  | none => nothing
  | some a =>
    if a.kind = .done 2 then .next (s.finishDone a) else
    match a.kind with
    | .atomic o c =>
      if !(s.runs (s.ctxOf a.team)) || s.behind a then nothing else
      if s.quarantined (s.ctxOf a.team) && a.lanes.any (fun x => x.loc.part == s.part && decide (Config.hostBase ≤ x.loc.pa)) then s.quarantineAtom a (o * 8 + c) else
      match s.queueAt a with
      | some out => out
      | none =>
        match s.remoteStep a 3 (o * 8 + c) with
        | some out => out
        | none =>
          match s.promoteFor a with
          | .error out => out
          | .ok s =>
            match s.meetLanes a true with
            | none => nothing
            | some s =>
              match s.badLane a with
              | some (d, x) => (s.unqueue a).accessFault a d x
              | none =>
                if a.signed && !(s.holds a.team) then
                  .next ((s.onAccess a.id (fun a => { a with waiting := false, got := [], signed := false })).owe a.event) else
                let ctx := s.ctxOf a.team
                let early := a.lanes.filter (fun x => s.beforeCut ctx x.loc)
                match s.atomLanes a o a.lanes with
                | none => nothing
                | some (s, rs) =>
                  let s := s.tap (a.lanes.map (fun x => x.loc))
                  let s := rs.foldl (fun s r => s.writeLane a.team a.grp a.dst r.1.lane r.2) s
                  let s := if c ≤ 2 then s.mark s.part a.core (s.ownLines a) else s
                  let er := (rs.filter (fun r => early.any (fun x => x.lane == r.1.lane))).map (fun r => (r.1.lane, r.2))
                  ((s.unqueue a).echo ctx a.id er).complete a
    | _ => nothing

/-- Lanes of an AWAIT that were done before their home's cut are done in the twin too (R343). -/
def State.echoAwait (s : State) (ctx id : Nat) (lanes : List LaneAcc) : State :=
  match (s.twinCopy? ctx id).bind s.access? with
  | none => s
  | some b =>
    let left := b.lanes.filter (fun x => !(lanes.any (fun y => y.lane == x.lane)))
    if left.isEmpty then
      match (s.endAccess b).finishAwait b.team b.grp b.exec b.pc with
      | .next s => s
      | _ => s
    else s.onAccess b.id (fun a => { a with lanes := left })

/-- Host lines of 64 bytes that CXL.cache holds, at most 16,384 (R397): those of the queues' tails, then those of AWAITs, the oldest first (log 118). -/
def State.cacheLines (s : State) : List Nat :=
  let line := fun (l : Loc) => if l.part = s.part ∧ Config.hostBase ≤ l.pa then some (l.pa / 64) else none
  let tails := s.queues.filterMap (fun q => match s.translate q.ctx (BitVec.ofNat 64 q.tail) .read with | .ok l => line l | _ => none)
  let awaits := (s.accesses.filter (fun a => match a.kind with | .await _ => true | _ => false)).map (fun a => a.lanes.filterMap (fun x => line x.loc))
  ((tails ++ awaits.flatten).foldl (fun acc k => if acc.contains k then acc else acc ++ [k]) []).take 16384

/-- Every host line that an AWAIT watches is held (R397). -/
def State.watches (s : State) (a : Access) : Bool :=
  a.lanes.all (fun x => x.loc.part != s.part || decide (x.loc.pa < Config.hostBase) || s.cacheLines.contains (x.loc.pa / 64))

/-- AWAIT_COMPLETION (R152): the watched words are read again; lanes that read another value are done, and with none left the
AWAIT completes, advances and is counted. -/
def execAwaitCompletion (team grp : Nat) (s : State) : Outcome State Fault Refusal :=
  match s.accesses.find? (fun a => a.team == team && a.grp == grp && (match a.kind with | .await _ => true | _ => false)) with
  | none => nothing
  | some a =>
    if !(s.runs (s.ctxOf team)) || s.behind a || !(s.watches a) then nothing else
    match s.queueAt a with
    | some o => o
    | none =>
      match (s.remoteStep a 1 0).orElse (fun _ => s.lateWatch a) with
      | some o => o
      | none =>
        match s.promoteFor a with
        | .error o => o
        | .ok s =>
          match s.meetLanes a false with
          | none => nothing
          | some s =>
            match s.badLane a with
            | some (d, x) => (s.unqueue a).accessFault a d x
            | none =>
              let left := a.lanes.filter (fun x => s.laneBytes a x == x.data)
              let early := (a.lanes.filter (fun x => s.laneBytes a x != x.data)).filter (fun x => s.beforeCut (s.ctxOf team) x.loc)
              let s := if early.isEmpty then s else s.echoAwait (s.ctxOf team) a.id early
              let met := s.metLines a
              let fresh := met.filter (fun m => !(a.got.contains m))
              let queued := s.queuedAs a
              let s := (s.unqueue a).tap ((a.lanes.filter (fun x => fresh.any (fun m => m.1 == x.lane))).map (fun x => x.loc))
              if left.isEmpty then s.complete a
              else if left.length = a.lanes.length ∧ !a.waiting ∧ !queued ∧ fresh.isEmpty then nothing
              else .next ((s.onAccess a.id (fun a => { a with lanes := left, waiting := false, got := met })).owe a.event)

/-- WC_AGE_EXPIRY (R368): the entry drains; in a twin it is performed only while the twin runs (R343, R348). -/
def execWcAgeExpiry (entry : Nat) (s : State) : Outcome State Fault Refusal :=
  match s.wc.find? (fun e => e.id == entry) with
  | none => nothing
  | some e =>
    if !(s.runs e.ctx) || s.replayWaits e.ctx e.id then nothing else
    match s.drain e with
    | some s => .next s
    | none => nothing

/-- CXL_MEM_COMPLETION (R146): a store to host memory is acknowledged. -/
def execCxlMemCompletion (req : Nat) (s : State) : Outcome State Fault Refusal :=
  if s.reqs.any (fun r => r.id == req && r.host) then .next { s with reqs := s.reqs.filter (fun r => r.id != req) }
  else nothing

/-- An answer to a request of another part: on the request's path, to its source (R359). -/
def replyTo (p : Packet) (status : Nat) (data : List Byte) : Packet :=
  { kind := 0x04, spray := p.spray, srcPart := p.dstPart, srcDie := p.dstDie, dstPart := p.srcPart, dstDie := p.srcDie, ctx := p.ctx,
    plane := p.plane, rid := p.rid, key := p.key, payload := BitVec.ofNat 8 status :: data }

/-- The answer of a home to a request carries the cut mark (R342, R355): for an unmarked atomic that it performs after its cut, and for an unmarked
read of a line that a twin's overlay holds. -/
def State.answersCut (s : State) (p : Packet) (status : Nat) : Bool :=
  !p.cut && status == 0 && s.twins.any (fun w => w.state == .cutting && w.cutHomes.contains p.dstDie &&
    (p.kind == 3 || (p.kind == 1 && w.overlay.any (fun o => o.line == p.key / 256))))

/-- Send a reply. -/
def State.reply (s : State) (p : Packet) (status : Nat) (data : List Byte) : Outcome State Fault Refusal :=
  .next (s.send (.packet (s.stamped { replyTo p status data with cut := s.answersCut p status })))

/-- PROMOTION_REQUEST (R245): a home asks a core of this part to promote its releases to a scope, and it answers when it has; or, with a
scope up to 2, a release of another part leaves its mark at a home here (log 15). A home of this part has no need of a packet, and the event
then stands for its asking. -/
def execPromotionRequest (core scope : Nat) (p : Packet) (s : State) : Outcome State Fault Refusal :=
  let line := p.key / 256
  if p.kind ≠ 0x07 ∨ p.dstPart ≠ s.part ∨ p.payload ≠ promotionPayload core scope ∨ 65536 ≤ core ∨ 256 ≤ scope then nothing else
  if p.srcPart = s.part then
    if scope < 3 ∨ !(s.marks.any (fun m => m.line == line && m.core == core && m.part == s.part)) then nothing else
    match s.serveMark (if p.cut then some p.ctx else none) scope none ⟨line, core, s.part, false⟩ with
    | some (s, _) => .next s
    | none => nothing
  else if scope < 3 then (s.mark p.srcPart core [line]).reply p 0 []
  else
    match s.promote core scope line none with
    | some (s, true) => s.reply p 0 []
    | some (s', false) => if s' = s then nothing else .next { s' with begun := true }
    | none => nothing

end Sys2Proof.Machine
end

