-- ==== Sys2Proof/Machine/MemCtl.lean ====
section
/-!
DEFINITION. MEMCTL: fences, WAITC, AWAIT, the shelf list and PREF (R150-R155).
-/
namespace Sys2Proof.Machine

open Host (Outcome)

/-- Advance and do nothing else: a MEMCTL function that takes effect in no lane (R150). -/
def Issue.skip (i : Issue) (s : State) : Outcome State Fault Refusal := i.retire id s

/-- The scope checks of a fence (R135 row 3, R147): no address, so sr.tval is 0. -/
def Issue.fenceStop (i : Issue) (scope : Nat) (release : Bool) : Option Stop :=
  if i.image.det && decide (3 ≤ scope) then some (.trap ⟨0x0A, 0, 0⟩)
  else if release && i.image.strict && !i.team.committed && decide (3 ≤ scope) then some (.trap ⟨0x13, 0x01, 0⟩)
  else none

/-- Commit where a release's scope says so (R147), or note a core-local release (R245); none waits. -/
def Issue.releaseAt (i : Issue) (scope : Nat) (s : State) : Option State :=
  if 3 ≤ scope then s.commit i.cur.team else some (s.onTeam i.cur.team (fun t => { t with released := true }))

/-- FENCE (R150, R244): every earlier access is performed at the scope before anything later issues. -/
def execFence (g : Guard) (sc : BitVec 3) (s : State) : Outcome State Fault Refusal :=
  issued s true (fun _ => []) (scopeValid sc) (fun i =>
    if i.effect g = 0 then i.skip s else
    i.unless s (i.fenceStop sc.toNat true) (i.after (s.fenceWait i) (fun s => i.after (s.releaseWait i sc.toNat) (fun s =>
      match i.releaseAt sc.toNat s with
      | none => i.stall 6 s
      | some s => i.retire id s))))

/-- FENCE.ACQ (R150): the group's earlier loads, LDAs, AWAITs and atomics complete before anything later issues. -/
def execFenceAcq (g : Guard) (sc : BitVec 3) (s : State) : Outcome State Fault Refusal :=
  issued s true (fun _ => []) (scopeValid sc) (fun i =>
    if i.effect g = 0 then i.skip s else
    i.unless s (i.fenceStop sc.toNat false)
      (if s.accesses.any (fun a => a.team == i.cur.team && a.grp == i.cur.grp &&
          (match a.kind with | .store => false | .release _ => false | .done e => e != 1 | _ => true))
       then i.stall 6 s else i.retire id s))

/-- FENCE.REL (R150): later stores and atomics wait for what is outstanding now, by the waits of R146; loads go on. -/
def execFenceRel (g : Guard) (sc : BitVec 3) (s : State) : Outcome State Fault Refusal :=
  issued s true (fun _ => []) (scopeValid sc) (fun i =>
    if i.effect g = 0 then i.skip s else
    i.unless s (i.fenceStop sc.toNat true)
      (match i.releaseAt sc.toNat s with
       | none => i.stall 6 s
       | some s =>
         let ids := (s.accesses.filter (fun a => a.team == i.cur.team && a.grp == i.cur.grp)).map (fun a => a.id)
         i.retire (fun gr => { gr with frel := match gr.frel with
           | some (c, is) => some (max c sc.toNat, is ++ ids)
           | none => some (sc.toNat, ids) }) s))

/-- WAITC (R151): the group issues nothing further until the counter is at most `k`. -/
def execWaitc (g : Guard) (k : BitVec 6) (c : BitVec 2) (s : State) : Outcome State Fault Refusal :=
  issued s true (fun _ => []) true (fun i =>
    if i.effect g = 0 then i.skip s else
    i.retire (fun gr => { gr with wait := .counter c.toNat k.toNat }) s)

/-- AWAIT (R152): the lanes watch their words; the instruction completes, and is counted, when each has read another value. -/
def execAwait (g : Guard) (d a : RegField) (sc : BitVec 3) (s : State) : Outcome State Fault Refusal :=
  issued s true (fun _ => [.rw d 1, .srcNoLatch a 2]) (scopeValid sc) (fun i =>
    let xs := i.pairAddrs g a
    if xs.isEmpty then i.skip s else
    i.unless s (i.globalStop s xs 4 sc.toNat .read)
      (if s.acquiring i then i.stall 6 s else
       i.unless s (if i.watchLate s xs then none else i.watchStop s xs 4 .read sc.toNat)
         (let acc : Access := ⟨s.nextId, i.cur.team, i.cur.grp, i.grp.core, .await sc.toNat, none, 0, 0, 4, false, i.cur.pc,
            xs.map (fun x => ⟨x.1, x.2.toNat, i.locOf s x.2 .read, wordsBytes [i.regAt d 0 x.1]⟩), i.cur.exec, [], false,
            s.marksCut i.team.ctx i.grp.core⟩
          let s := { s with nextId := s.nextId + 1, accesses := s.accesses ++ [acc] }.owe acc.event
          i.stall 6 (s.onGroup i.cur.team i.cur.grp (fun gr => { gr with wait := .await i.cur.exec })))))

/-! ### The shelf list (R153, R154, R266) -/

/-- The set of a tag (R153). -/
def shelfSet (tag : Nat) : Nat := Nat.xor (tag % 4096) (tag / 4096 % 4096)

/-- The core that holds a line's entry (R266): the odd core of a pair from line 32,768 on. -/
def Team.lineCore (t : Team) (line : Nat) : Nat := if t.pair && decide (32768 ≤ line) then t.core + 1 else t.core

/-- The team's entry for a tag. -/
def Team.shelfLine (t : Team) (tag : Nat) : Option Nat := (t.shelf.find? (fun e => e.tag == tag)).map (fun e => e.line)

/-- SLFIND (R154). -/
def execSlfind (g : Guard) (d a : RegField) (s : State) : Outcome State Fault Refusal :=
  issued s true (fun _ => [.dstMem d 1, .srcNoLatch a 2]) true (fun i =>
    i.retire (fun gr => gr.writeRegs d.toNat (i.effect g) (fun l =>
      [BitVec.ofNat 32 ((i.team.shelfLine (i.pair a l).toNat).getD 0xFFFFFFFF)])) s)

/-- A line that is not below SCRATCH / 256 (R154). -/
def Issue.shelfLineStop (i : Issue) (xs : List (Nat × Nat)) : Option Stop :=
  (xs.find? (fun x => decide (i.image.scratch / 256 ≤ x.2))).map (fun x => .trap (Trap.access 0x03 x.2))

/-- Install a tag for a line: the entries of that line and of that tag go first (R154). -/
def installShelf (es : List ShelfEntry) (tag line : Nat) : List ShelfEntry :=
  ⟨tag, line⟩ :: es.filter (fun e => e.line != line && e.tag != tag)

/-- The entries that the other teams of the context hold on a core. -/
def State.otherShelf (s : State) (t : Team) (core : Nat) : List ShelfEntry :=
  ((s.teams.filter (fun u => u.ctx == t.ctx && u.uid != t.uid)).map (fun u => u.shelf.filter (fun e => u.lineCore e.line == core))).flatten

/-- SLSET (R154): all lanes' entries are computed before any is changed; a ninth entry in a set of a core changes nothing. The order of its checks is
the model's (log 94). -/
def execSlset (g : Guard) (d a : RegField) (s : State) : Outcome State Fault Refusal :=
  issued s true (fun _ => [.rw d 1, .srcNoLatch a 2]) true (fun i =>
    let ls := i.taking g
    let line := fun l => (i.regAt d 0 l).toNat
    let tag := fun l => (i.pair a l).toNat
    let xs := ls.map (fun l => (l, line l))
    let es := ls.foldl (fun es l => installShelf es (tag l) (line l)) i.team.shelf
    let full := fun (x : Nat × Nat) =>
      let c := i.team.lineCore x.2
      let k := shelfSet (tag x.1)
      decide (8 < ((es.filter (fun e => i.team.lineCore e.line == c && shelfSet e.tag == k)) ++
        ((s.otherShelf i.team c).filter (fun e => shelfSet e.tag == k))).length)
    i.unless s ((i.shelfLineStop xs).orElse (fun _ =>
        ((xs.find? (fun x => decide (2 ^ 53 ≤ tag x.1))).map (fun x => .trap (Trap.access 0x07 x.2))).orElse (fun _ =>
          (xs.find? full).map (fun x => .trap (Trap.access 0x06 x.2)))))
      (i.retire id (s.onTeam i.cur.team (fun t => { t with shelf := es }))))

/-- SLDROP (R154). -/
def execSldrop (g : Guard) (a : RegField) (s : State) : Outcome State Fault Refusal :=
  issued s true (fun _ => [.srcNoLatch a 1]) true (fun i =>
    let xs := i.offsets g a
    i.unless s (i.shelfLineStop xs)
      (i.retire id (s.onTeam i.cur.team (fun t => { t with shelf := t.shelf.filter (fun e => !(xs.any (fun x => x.2 == e.line))) }))))

/-- The presence word of a line: present in bit 0, pending in bit 1 (R154). -/
def Team.presence (t : Team) (line : Nat) : Word :=
  match t.absentLine? line with | none => 1 | some a => if a.pending then 2 else 0

/-- PRESQ (R154). -/
def execPresq (g : Guard) (d a : RegField) (s : State) : Outcome State Fault Refusal :=
  issued s true (fun _ => [.dstMem d 1, .srcNoLatch a 1]) true (fun i =>
    i.unless s (i.shelfLineStop (i.offsets g a))
      (i.retire (fun gr => gr.writeRegs d.toNat (i.effect g) (fun l => [i.team.presence (i.regAt a 0 l).toNat])) s))

/-- PREF (R155): it starts a fetch or a translation, which changes no value, and never faults. -/
def execPref (_g : Guard) (a : RegField) (_h : BitVec 2) (s : State) : Outcome State Fault Refusal :=
  issued s true (fun _ => [.srcNoLatch a 2]) true (fun i => i.skip s)

end Sys2Proof.Machine
end

