-- ==== Sys2Proof/Machine/Barrier.lean ====
section
/-!
DEFINITION. Named barriers (R200-R205) and the hand-off chain (R211-R214).
-/
namespace Sys2Proof.Machine

open Host (Outcome)

/-- An arrival (R201): the barrier after it, and whether it was the last of its phase. -/
def Barrier.arrive (b : Barrier) : Barrier × Bool :=
  if b.expected ≤ b.arrivals + 1 then ({ b with arrivals := 0, phase := b.phase + 1 }, true)
  else ({ b with arrivals := b.arrivals + 1 }, false)

/-- A barrier of a team. -/
def Team.bar (t : Team) (n : Nat) : Barrier := getAt t.bars n ⟨0, 0, 0⟩

/-- A transfer unit arrives on a barrier of a team (R191, R201); one without a member count takes no arrival (R203). -/
def State.unitArrive (s : State) (team n : Nat) : State :=
  s.onTeam team (fun t => if (t.bar n).expected = 0 then t else { t with bars := setAt t.bars n (t.bar n).arrive.1 })

/-- The lowest lane where an instruction takes effect (R34). -/
def Issue.first (i : Issue) (g : Guard) : Nat := ((i.taking g).head?).getD 0

/-- NBINIT (R202): the expected count; arrivals that already reach it end the phase at once. -/
def execNbinit (g : Guard) (a : RegField) (b : BitVec 4) (s : State) : Outcome State Fault Refusal :=
  issued s true (fun _ => [.srcLost a]) true (fun i =>
    if i.effect g = 0 then i.skip s else
    let n := (i.src a (i.first g)).toNat
    if n = 0 ∨ 1023 < n then i.raise (Trap.illegal 0x14) s else
      i.retire id (s.onTeam i.cur.team (fun t =>
        let x := t.bar b.toNat
        let y : Barrier := if n ≤ x.arrivals then ⟨n, 0, x.phase + 1⟩ else ⟨n, x.arrivals, x.phase⟩
        { t with bars := setAt t.bars b.toNat y })))

/-- Arrive on a barrier (R201, R203, R205): the waits of a release at team scope, then the arrival, then `k` with the phase just
before it and whether it was the last arriver. -/
def arriveOn (g : Guard) (b : BitVec 4) (k : Issue → Nat → Bool → State → Outcome State Fault Refusal) (i : Issue) (s : State) :
    Outcome State Fault Refusal :=
  if i.effect g = 0 then i.skip s else
  if (i.team.bar b.toNat).expected = 0 then i.raise (Trap.illegal 0x15) s else
  i.after (s.releaseWait i 2) (fun s =>
    let x := i.team.bar b.toNat
    let y := x.arrive
    k i x.phase.toNat y.2 (s.onTeam i.cur.team (fun t => { t with bars := setAt t.bars b.toNat y.1, released := true })))

/-- NBARR (R201). -/
def execNbarr (g : Guard) (b : BitVec 4) (s : State) : Outcome State Fault Refusal :=
  issued s true (fun _ => []) true (fun i => arriveOn g b (fun i _ _ s => i.retire id s) i s)

/-- NBWAIT (R204): wait until the phase has reached the wanted one. -/
def execNbwait (g : Guard) (a : RegField) (b : BitVec 4) (s : State) : Outcome State Fault Refusal :=
  issued s true (fun _ => [.srcLost a]) true (fun i =>
    if i.effect g = 0 then i.skip s else
    let p := (i.src a (i.first g)).toNat % 65536
    i.retire (fun gr => { gr with wait := .barrier b.toNat p none }) s)

/-- NBSYNC (R204): arrive, then wait for the phase after the one just before the arrival. -/
def execNbsync (g : Guard) (b : BitVec 4) (s : State) : Outcome State Fault Refusal :=
  issued s true (fun _ => []) true (fun i => arriveOn g b (fun i p _ s =>
    i.retire (fun gr => { gr with wait := .barrier b.toNat ((p + 1) % 65536) none }) s) i s)

/-- WAITL (R204): as NBSYNC, and D tells the last arriver; in deterministic mode it tells the team's highest-indexed group. -/
def execWaitl (g : Guard) (d : RegField) (b : BitVec 4) (s : State) : Outcome State Fault Refusal :=
  issued s true (fun _ => [.dstMem d 1]) true (fun i => arriveOn g b (fun i p last s =>
    let told := if i.image.det then decide (i.grp.idx + 1 = i.team.groups.length) else last
    let tell := fun (gr : Group) => some (gr.phys d.toNat, i.effect g, if told then (1 : Word) else 0)
    i.retire (fun gr => { gr with wait := .barrier b.toNat ((p + 1) % 65536) (tell gr) }) s) i s)

/-- NBRD (R204). -/
def execNbrd (g : Guard) (d : RegField) (b : BitVec 4) (s : State) : Outcome State Fault Refusal :=
  issued s true (fun _ => [.dstMem d 1]) true (fun i =>
    let x := i.team.bar b.toNat
    i.retire (fun gr => gr.writeRegs d.toNat (i.effect g) (fun _ => [BitVec.ofNat 32 (x.phase.toNat + 65536 * (x.arrivals % 1024))])) s)

/-- HANDOFF (R212): the team's one hand-off, a release at device scope that commits the team. -/
def execHandoff (g : Guard) (a : RegField) (s : State) : Outcome State Fault Refusal :=
  issued s true (fun _ => [.srcLost a]) true (fun i =>
    if i.effect g = 0 then i.skip s else
    if i.team.handed then i.raise (Trap.illegal 0x17) s else
    if i.image.strict && !i.team.committed then i.raise ⟨0x13, 0x01, 0⟩ s else
    let token := i.src a (i.first g)
    i.after (s.releaseWait i 5) (fun s =>
      match s.commit i.cur.team with
      | none => i.stall 6 s
      | some s =>
        let s := s.onLaunchAt i.grp.core i.team.launch (fun l => { l with hands := l.hands ++ [(i.team.hidx, token, 0)] })
        i.retire id (s.onTeam i.cur.team (fun t => { t with handed := true }))))

/-- HANDWAIT (R213): wait for the hand-off of the team before; the token and the status are written when the wait ends. -/
def execHandwait (g : Guard) (d : RegField) (s : State) : Outcome State Fault Refusal :=
  issued s true (fun _ => [.rwStrict d 2]) true (fun i =>
    if i.effect g = 0 then i.skip s else
    i.retire (fun gr => { gr with wait := .handoff (gr.phys d.toNat) (i.effect g) }) s)

end Sys2Proof.Machine
end

