-- ==== Sys2Proof/Machine/System.lean ====
section
/-!
DEFINITION. The special registers (R28-R34), RDSR and WRSR (R223), BRK and TRAP (R222), TRET (R219) and the sampling controls (R224).
-/
namespace Sys2Proof.Machine

open Host (Outcome)

/-! ### The register table (R28) -/

/-- Who may write a special register (R28). -/
inductive SrAccess
  | r | rw | rt | rh
deriving DecidableEq, Repr

/-- The width in registers and the access code of a special-register number; none for a number that is not in the table (R28). -/
def srInfo (x : Nat) : Option (Nat × SrAccess) :=
  if x ≤ 0x17 then some (1, .r) else
  match x with
  | 0x18 => some (2, .r)
  | 0x1A => some (2, .r)
  | 0x1C => some (1, .rw)
  | 0x1D => some (1, .r)
  | 0x1E => some (1, .r)
  | 0x1F => some (1, .r)
  | 0x20 => some (1, .rt)
  | 0x21 => some (1, .rt)
  | 0x22 => some (2, .rt)
  | 0x24 => some (2, .rt)
  | 0x26 => some (1, .rt)
  | 0x27 => some (1, .r)
  | 0x28 => some (1, .r)
  | 0x29 => some (1, .r)
  | 0x2A => some (1, .r)
  | 0x2B => some (1, .r)
  | 0x2C => some (1, .r)
  | 0x30 => some (1, .rh)
  | 0x32 => some (2, .rh)
  | 0x34 => some (1, .rh)
  | 0x38 => some (2, .rh)
  | 0x48 => some (2, .rh)
  | 0x4A => some (2, .rh)
  | 0x4C => some (2, .rh)
  | 0x4E => some (2, .rh)
  | x => if 0x40 ≤ x ∧ x ≤ 0x47 then some (1, .rh) else none

/-- How many registers a special-register number needs; an invalid number needs one. -/
def srWidth (x : Nat) : Nat := ((srInfo x).map (fun p => p.1)).getD 1

/-! ### Values (R28-R33) -/

/-- sr.gang (R28): the linear index of the team's gang in the grid of gangs; a deterministic launch without a shape has gangs of
one team, and another launch without gangs reads 0xFFFF_FFFF. -/
def gangNumber (l : Launch) (m : Image) (tlin : Nat) : Nat :=
  if m.ganged then
    let (a, b, c) := m.gangShape
    let (ga, gb, _) := l.gangGrid m
    let x := tlin % l.gx
    let y := tlin / l.gx % l.gy
    let z := tlin / (l.gx * l.gy)
    x / a + ga * (y / b + gb * (z / c))
  else if m.det then tlin else 0xFFFFFFFF

/-- sr.cyc (R30): in normal mode the cycles counted so far and those since the group's last issue, a free value. -/
def cycValue (m : Image) (g : Group) (since : Dword) : Dword := if m.det then g.ret else g.cyc + since

/-- The linear lane index in the team (R8). -/
def ltid (m : Image) (g : Group) (lane : Nat) : Nat := g.idx * m.width + lane

/-- The value of a special register as a lane sees it, a 32-bit one in the low word (R28). -/
def State.srValue (s : State) (t : Team) (g : Group) (l : Launch) (m : Image) (pc : Word) (x lane : Nat) : Dword :=
  let n := fun (v : Nat) => BitVec.ofNat 64 v
  let core := s.core g.core
  let c := s.ctx? t.ctx
  match x with
  | 0x00 => n lane
  | 0x01 => n (ltid m g lane)
  | 0x02 => n (ltid m g lane % m.tx)
  | 0x03 => n (ltid m g lane / m.tx % m.ty)
  | 0x04 => n (ltid m g lane / (m.tx * m.ty))
  | 0x05 => n g.idx
  | 0x06 => n m.width
  | 0x07 => n t.groups.length
  | 0x08 => n (t.tlin % l.gx)
  | 0x09 => n (t.tlin / l.gx % l.gy)
  | 0x0A => n (t.tlin / (l.gx * l.gy))
  | 0x0B => n t.tlin
  | 0x0C => n l.gx
  | 0x0D => n l.gy
  | 0x0E => n l.gz
  | 0x0F => n (gangNumber l m t.tlin)
  | 0x10 => l.id.setWidth 64
  | 0x11 => l.gen.setWidth 64
  | 0x12 => n (s.denseCore (s.sliceOf t.ctx) g.core)
  | 0x13 => n (s.denseCluster (s.sliceOf t.ctx) (g.core / 8))
  | 0x14 => n (dieOfCore g.core)
  | 0x15 => n g.slot
  | 0x16 => n (s.sliceOf t.ctx)
  | 0x17 => n t.ctx
  | 0x18 => cycValue m g (s.cyclesOf t.ctx)
  | 0x1A => g.ret
  | 0x1C => g.rm.setWidth 64
  | 0x1D => n g.wb
  | 0x1E => pc.setWidth 64
  | 0x1F => (s.gid t.ctx g).setWidth 64
  | 0x20 => g.cause.setWidth 64
  | 0x21 => g.tpc.setWidth 64
  | 0x22 => g.tval
  | 0x24 => g.frag
  | 0x26 => g.parent.setWidth 64
  | 0x27 => g.chpc.setWidth 64
  | 0x28 => (getAt s.cap 0 0).setWidth 64
  | 0x29 => (getAt s.cap 1 0).setWidth 64
  | 0x2A => (getAt s.cap 2 0).setWidth 64
  | 0x2B => (getAt s.cap 3 0).setWidth 64
  | 0x2C => n t.hidx
  | 0x30 => core.smpctl.setWidth 64
  | 0x32 => core.smpbuf
  | 0x34 => core.smpdrop.setWidth 64
  | 0x38 => (s.coreCtx g.core t.ctx).wdog
  | 0x48 => (c.map (fun (c : Ctx) => getAt c.wp 0 0)).getD 0
  | 0x4A => (c.map (fun (c : Ctx) => getAt c.wp 1 0)).getD 0
  | 0x4C => (c.map (fun (c : Ctx) => getAt c.wp 2 0)).getD 0
  | 0x4E => (c.map (fun (c : Ctx) => getAt c.wp 3 0)).getD 0
  | x => ((c.map (fun (c : Ctx) => getAt c.bp (x - 0x40) 0xFFFFFFFF)).getD 0xFFFFFFFF).setWidth 64

/-- Write a special register of a group; reserved bits of the value are ignored (R31, R32, R223). Numbers that WRSR may not write
change nothing. -/
def Group.writeSr (g : Group) (x : Nat) (v : Dword) : Group :=
  match x with
  | 0x1C => { g with rm := v.setWidth 2 }
  | 0x20 => { g with cause := (v.setWidth 32) &&& 0xF000FFFF#32 }
  | 0x21 => { g with tpc := (v.setWidth 32) &&& ~~~(3#32) }
  | 0x22 => { g with tval := v }
  | 0x24 => { g with frag := v &&& maskOf (fun _ => true) g.lanes.length }
  | 0x26 => { g with parent := v.setWidth 32 }
  | _ => g

/-! ### RDSR and WRSR (R223) -/

/-- A special register as a lane reads it: what EDIT of a twin has given it, where no other field saves it (R350), or its value. -/
def State.srRead (s : State) (t : Team) (g : Group) (l : Launch) (m : Image) (pc : Word) (x lane : Nat) : Dword :=
  match g.edits.find? (fun e => e.1 == lane && e.2.1 == x) with
  | some e => e.2.2
  | none => s.srValue t g l m pc x lane

/-- The number check of R28: sr.tval holds the number. -/
def srNumberTrap (x : Nat) : Option Trap := if (srInfo x).isNone then some (Trap.reg x) else none

/-- RDSR (R28, R223). -/
def execRdsr (g : Guard) (a : RegField) (x : BitVec 7) (s : State) : Outcome State Fault Refusal :=
  let w := srWidth x.toNat
  issued s true (fun _ => [.dstMem a w]) true (fun i =>
    match srNumberTrap x.toNat with
    | some t => i.raise t s
    | none =>
      i.retire (fun gr => gr.writeRegs a.toNat (i.effect g) (fun l =>
        let v := s.srRead i.team i.grp i.launch i.image i.cur.pc x.toNat l
        [v.setWidth 32, (v >>> 32).setWidth 32].take w)) s)

/-- WRSR may write the register (R223): RW always; RT when the executing fragment lies wholly in the handler set. -/
def Issue.mayWrite (i : Issue) (x : Nat) : Bool :=
  match srInfo x with
  | some (_, .rw) => true
  | some (_, .rt) => (i.cur.exec &&& ~~~i.grp.handler) == 0
  | _ => false

/-- WRSR (R28, R34, R223): the value of the lowest lane where it takes effect. -/
def execWrsr (g : Guard) (a : RegField) (x : BitVec 7) (s : State) : Outcome State Fault Refusal :=
  let w := srWidth x.toNat
  issued s true (fun _ => [.srcNoLatch a w]) true (fun i =>
    match srNumberTrap x.toNat with
    | some t => i.raise t s
    | none =>
      if !(i.mayWrite x.toNat) then i.raise ⟨0x05, 0x09, BitVec.ofNat 64 x.toNat⟩ s else
      if i.effect g = 0 then i.skip s else
      let v : Dword := if w = 2 then i.pair a (i.first g) else (i.regAt a 0 (i.first g)).setWidth 64
      i.retire (fun gr => gr.writeSr x.toNat v) s)

/-! ### BRK, TRAP and TRET (R219, R222) -/

/-- BRK (R222, R339): with twin forking enabled it advances, counts once and claims a twin; the group pauses until the claim and
the cut are decided. Else it raises BREAK. -/
def execBrk (g : Guard) (s : State) : Outcome State Fault Refusal :=
  issued s true (fun _ => []) true (fun i =>
    if i.effect g = 0 then i.skip s else
    match s.ctx? i.team.ctx with
    | some c =>
      if c.twinOn then
        i.retire (fun gr => { gr with wait := .claim })
          (s.claim c.num ⟨i.cur.team, i.cur.grp, 0x00, i.cur.pc, s.gid i.team.ctx i.grp, 0⟩ false)
      else i.raise ⟨0x0E, 0, 0⟩ s
    | none => i.raise ⟨0x0E, 0, 0⟩ s)

/-- TRAP (R222). -/
def execTrap (g : Guard) (t : BitVec 7) (s : State) : Outcome State Fault Refusal :=
  issued s true (fun _ => []) true (fun i =>
    if i.effect g = 0 then i.skip s else i.raise ⟨0x0F, t.toNat, 0⟩ s)

/-- TRET (R219). -/
def execTret (g : Guard) (s : State) : Outcome State Fault Refusal :=
  issued s true (fun _ => []) true (fun i =>
    if i.cur.exec &&& i.grp.handler = 0 then i.raise (Trap.illegal 0x19) s else
    i.retire (fun gr => gr.trapReturn (i.effect g &&& i.grp.handler)) s)

/-! ### Sampling controls (R224) -/

/-- SMPSUSP (R224). -/
def execSmpsusp (g : Guard) (s : State) : Outcome State Fault Refusal :=
  issued s true (fun _ => []) true (fun i => i.retire (fun gr => if i.effect g = 0 then gr else { gr with susp := true }) s)

/-- SMPRES (R224). -/
def execSmpres (g : Guard) (s : State) : Outcome State Fault Refusal :=
  issued s true (fun _ => []) true (fun i => i.retire (fun gr => if i.effect g = 0 then gr else { gr with susp := false }) s)

end Sys2Proof.Machine
end

