-- ==== Sys2Proof/Machine/Launch.lean ====
section
/-!
DEFINITION. Launch packets and queues: reading and writing memory for the part itself, the packet and header checks, completion
records and refusals, LAUNCH, host-fed appends and dependences (R74-R77, R225, R226, R263, R284-R288).
-/
namespace Sys2Proof.Machine

open Host (Outcome)

/-! ### Memory that the part itself reads and writes for a context -/

/-- Where a virtual address of a context lies. -/
def State.vaLoc (s : State) (ctx va : Nat) (u : Use) : Option Loc :=
  match s.translate ctx (BitVec.ofNat 64 va) u with
  | .ok l => some l
  | _ => none

/-- Bytes of one 64 KiB page at their homes on this part; none where the context has no such memory here. -/
def State.vaPiece (s : State) (ctx va n : Nat) : Option (List Byte) :=
  match s.vaLoc ctx va .read with
  | some l => if l.part = s.part then some (s.viewRead ctx l.pa n) else none
  | none => none

/-- Bytes at a virtual address of a context, at their homes on this part. -/
def State.vaRead (s : State) (ctx va n : Nat) : Option (List Byte) :=
  let k := min n (65536 - va % 65536)
  match s.vaPiece ctx va k with
  | none => none
  | some bs => if k = n then some bs else (s.vaPiece ctx (va + k) (n - k)).map (fun cs => bs ++ cs)

/-- Write bytes of one line at a virtual address of a context: at its home on this part, or by a store packet of die 0 to another
part (log 24). Bytes that the context may not write are not written. None waits. -/
def State.vaPut (s : State) (ctx va : Nat) (bs : List Byte) : Option State :=
  match s.vaLoc ctx va .write with
  | none => some s
  | some l =>
    if l.part = s.part then s.putQueued ctx (mapFrom (fun k b => (s.effFor ctx (l.pa + k), b)) 0 bs)
    else if s.mayRequest 2 0 l.part l.pa then
      some (s.request 2 0 s.nextId ctx l.part l.pa 0 (storePayload (l.pa / 256) (cellsAt l.pa bs)) none none false)
    else none

/-- Write bytes at a virtual address of a context, piece by piece up to a line's end. -/
def State.vaWrite (s : State) (ctx va : Nat) (bs : List Byte) : Option State :=
  let k := min bs.length (256 - va % 256)
  (s.vaPut ctx va (bs.take k)).bind (fun s => if k = bs.length then some s else s.vaPut ctx (va + k) (bs.drop k))

/-! ### The packet (R225) -/

/-- A field of a launch packet. -/
def pkField (p : List Byte) (off n : Nat) : Nat := bytesAt p off n
/-- IMAGE of a packet. -/
def pkImage (p : List Byte) : Nat := pkField p 0x08 8
/-- QUEUE of a packet. -/
def pkQueue (p : List Byte) : Nat := pkField p 0x1C 2
/-- PRIO of a packet. -/
def pkPrio (p : List Byte) : Nat := pkField p 0x1E 1
/-- NDEPS of a packet. -/
def pkNdeps (p : List Byte) : Nat := pkField p 0x1F 1
/-- DEPS of a packet. -/
def pkDeps (p : List Byte) : Nat := pkField p 0x20 8
/-- COMPL of a packet. -/
def pkCompl (p : List Byte) : Nat := pkField p 0x28 8
/-- REPL of a packet. -/
def pkRepl (p : List Byte) : Nat := pkField p 0x30 2

/-- Check 1 of R226: fields within the table of R225 and R7, reserved bytes 0, REPL within the replica set (R289). -/
def packetOk (p : List Byte) (repset : Nat) : Bool :=
  let gx := pkField p 0x10 4; let gy := pkField p 0x14 4; let gz := pkField p 0x18 4
  decide (1 ≤ gx ∧ 1 ≤ gy ∧ 1 ≤ gz ∧ gx * gy * gz ≤ 2 ^ 32) && decide (pkQueue p ≤ 255) && decide (pkPrio p ≤ 7) &&
  decide (pkNdeps p ≤ 8) && (pkNdeps p != 0 || pkDeps p == 0) && decide (1 ≤ pkRepl p ∧ pkRepl p ≤ 64 ∧ pkRepl p ≤ repset) &&
  pkField p 0x32 14 == 0

/-! ### The header checks (R76, R77) -/

/-- The feature bits that a launch of an image needs (R77). -/
def Image.needs (m : Image) : BitVec 128 :=
  BitVec.ofNat 128 (m.field 0x08 16) ||| (if m.det then BitVec.ofNat 128 (2 ^ 6) else 0) |||
    (if m.boosted then BitVec.ofNat 128 (2 ^ 4) else 0) ||| (if 16 < m.slots then BitVec.ofNat 128 (2 ^ 9) else 0)

/-- The capability register as one number (R77). -/
def State.capBits (s : State) : BitVec 128 :=
  BitVec.ofNat 128 (sumOf (mapFrom (fun k (w : Word) => w.toNat * 2 ^ (32 * k)) 0 s.cap))

/-- Check 0x01 of R76. -/
def Image.magicOk (m : Image) : Bool :=
  m.field 0x00 4 == 0x324E534A && m.field 0x04 2 == 0x0200 && m.field 0x06 2 == 0x0080 &&
    m.field 0x3A 2 == 0 && m.field 0x54 4 == 0 && m.field 0x78 8 == 0

/-- Check 0x05 of R76: R8, and the slots fit. -/
def Image.shapeOk (m : Image) : Bool :=
  m.lanes != 0 && m.lanes % m.width == 0 && decide (m.lanes ≤ 8192) &&
    decide (m.slots ≤ (if 16 < m.slots then 2 else 1) * (4096 / m.regs))

/-- Check 0x06 of R76. -/
def Image.gangOk (m : Image) (gx gy gz : Nat) : Bool :=
  (m.gangx == 0 && m.gangy == 0 && m.gangz == 0) ||
  (m.gangx != 0 && m.gangy != 0 && m.gangz != 0 && gx % m.gangx == 0 && gy % m.gangy == 0 && gz % m.gangz == 0 &&
    decide (m.gangx * m.gangy * m.gangz * m.slots ≤ 1024))

/-- A relocation record's target lies within its section (R75). -/
def relocOk (pooln datan : Nat) (r : Dword) : Bool :=
  let target := (r.extractLsb' 32 30).toNat
  if (r.extractLsb' 63 1) = 0 then decide (target < pooln) else decide (4 * target + 4 ≤ datan)

/-- Check 0x0A of R76. -/
def Image.sizesOk (m : Image) : Bool :=
  decide (m.field 0x44 4 ≤ 16384) && decide (1 ≤ m.field 0x4C 4 ∧ m.field 0x4C 4 ≤ 4194304) &&
    decide (m.field 0x50 4 ≤ 2 ^ 31 - 1) && m.relocs.all (relocOk (m.field 0x44 4) (m.field 0x50 4)) && m.dataOk

/-- The header checks of R76 in their order: the status of the first that fails. -/
def Image.status (m : Image) (cap : BitVec 128) (gx gy gz : Nat) : Option Nat :=
  let pair := if 16 < m.slots then 2 else 1
  if !m.magicOk then some 0x01 else
  if m.needs &&& ~~~cap != 0 then some 0x02 else
  if !(m.width == 16 || m.width == 32 || m.width == 64) then some 0x03 else
  if !(m.regs % 8 == 0 && decide (8 ≤ m.regs ∧ m.regs ≤ 248)) then some 0x04 else
  if !m.shapeOk then some 0x05 else
  if !(m.gangOk gx gy gz) then some 0x06 else
  if !(m.scratch % 256 == 0 && decide (m.scratch + 256 * m.accum ≤ pair * 8388608)) then some 0x07 else
  if !(decide (m.accum ≤ pair * 1024)) then some 0x08 else
  if !(decide (m.field 0x1A 2 < 32)) || (m.det && m.boosted) then some 0x09 else
  if !m.sizesOk then some 0x0A else
  if !(m.handler == 0xFFFFFFFF#32 || (m.handler.toNat % 4 == 0 && decide (m.handler.toNat < 4 * m.field 0x4C 4))) then some 0x0B else
  none

/-! ### Co-residency (R263) -/

/-- Teams of a kernel that a core, or a core pair, can hold. -/
def Image.capacity (m : Image) : Nat :=
  let pair := if m.paired then 2 else 1
  let regs := min (pair * 4096 / m.regs) (pair * 128) / m.slots
  let bytes := m.scratch + 256 * m.accum
  let a := if bytes = 0 then regs else min regs (pair * 8388608 / bytes)
  if m.accum = 0 then a else min a (pair * 1024 / m.accum)

/-- Teams of a kernel that an empty slice can hold. -/
def State.sliceCapacity (s : State) (m : Image) (slice : Nat) : Nat :=
  let clusters := (s.sliceClusters slice).length
  let places := if m.paired then 4 else 8
  if m.ganged then m.gangTeams * (places * m.capacity / m.gangTeams) * clusters else m.capacity * places * clusters

/-! ### Completion records (R288) -/

/-- The 32 bytes of a completion record. -/
def recordBytes (status tlin : Nat) (tpc gen : Word) (tval : Dword) (launch : Word) (teams : Nat) : List Byte :=
  leBytes 4 status ++ leBytes 4 tlin ++ leBytes 4 tpc.toNat ++ leBytes 4 gen.toNat ++ leBytes 8 tval.toNat ++
    leBytes 4 launch.toNat ++ leBytes 4 teams

/-- The record of a refusal (R288). -/
def refusalBytes (code : Nat) (tval : Dword) : List Byte := recordBytes (0xC0000000 + code) 0 0 0 tval 0 0

/-- Write a refusal to COMPL, when there is one. None waits. -/
def State.writeRefusal (s : State) (ctx compl code : Nat) (tval : Dword) : Option State :=
  if compl = 0 then some s else s.vaWrite ctx compl (refusalBytes code tval)

/-! ### Linking (R285) -/

/-- The monitor links a packet as the new tail and files it under its priority (R285, R286; a PRIO above 7 by its low bits, log 25). -/
def State.link (s : State) (q addr : Nat) (packet : List Byte) : State :=
  let prio := pkPrio packet % 8
  (s.onQueue q (fun x => { x with tail := addr, linked := x.linked ++ [Linked.mk prio addr packet false false []] })).oweOnce
    (.dependenceReady q prio)

/-- A packet appended by LAUNCH (R226, R285): NEXT of the tail is written and the packet linked, or status 0x22. None waits. -/
def State.append (s : State) (ctx addr : Nat) (packet : List Byte) : Option State :=
  match s.queue? (pkQueue packet) with
  | some q =>
    if q.deviceFed then (s.vaWrite q.ctx q.tail (leBytes 8 addr)).map (fun s => s.link q.num addr packet)
    else s.writeRefusal ctx (pkCompl packet) 0x22 0
  | none => s.writeRefusal ctx (pkCompl packet) 0x22 0

/-- A LAUNCH by a group: held until the task commits in a boosted launch (R226), kept in the quarantine of a twin that has not
been released (R348, as a packet of kind 0xE0 that stays on the part), else appended. None waits. -/
def State.launchBy (s : State) (t : Team) (boosted : Bool) (addr : Nat) (packet : List Byte) : Option State :=
  if boosted then some (s.onTeam t.uid (fun t => { t with heldLaunches := t.heldLaunches ++ [(addr, packet)] })) else
  if s.quarantined t.ctx then
    some (s.onTwin t.ctx (fun w => { w with quarantine := w.quarantine ++ [{ kind := 0xE0, ctx := t.ctx, key := addr, payload := packet }] }))
  else s.append t.ctx addr packet

/-- Append several packets in order. None waits. -/
def State.launchAll (s : State) (t : Team) (boosted : Bool) : List (Nat × List Byte) → Option State
  | [] => some s
  | (a, p) :: ps => (s.launchBy t boosted a p).bind (fun s => s.launchAll t boosted ps)

/-! ### LAUNCH (R226) -/

/-- What an instruction that reads global memory as it issues waits for (R138, R141, R146, R278): an earlier acquire, its group's stores to the bytes, and
the queue of a migrating page. -/
def Issue.readStop (i : Issue) (s : State) (ls : List LaneAcc) (n : Nat) : Option Stop :=
  if !ls.isEmpty && (s.acquiring i || ls.any (fun x => s.storesTo i.cur.team i.cur.grp x.loc n || (x.loc.part == s.part && (s.queueing? x.loc.pa).isSome)))
  then some (.wait 6 s) else none

/-- The answers of other parts to such an instruction's reads of 64 bytes: asked for when it first issues, then taken. -/
def State.farAnswers (s : State) (i : Issue) (xs : List LaneAcc) : Except Stop (State × List (Nat × List Byte × Nat)) :=
  if xs.isEmpty then .ok (s, []) else
  match s.accesses.find? (fun a => a.team == i.cur.team && a.grp == i.cur.grp && a.pc == i.cur.pc && a.kind == .packet) with
  | none =>
    if xs.all (fun x => s.mayRequest 1 i.grp.core x.loc.part x.loc.pa) then
      let a : Access := ⟨s.nextId, i.cur.team, i.cur.grp, i.grp.core, .packet, none, 0, 0, 64, false, i.cur.pc, xs, i.cur.exec, [], true,
        s.marksCut i.team.ctx i.grp.core⟩
      .error (.wait 6 ({ s with nextId := s.nextId + 1, accesses := s.accesses ++ [a] }.sendLanes a 1 0 xs))
    else .error (.wait 6 s)
  | some a =>
    if xs.all (fun x => a.got.any (fun g => g.1 == x.lane)) then .ok ({ s with accesses := s.accesses.filter (fun b => b.id != a.id) }, a.got)
    else .error (.wait 6 s)

/-- Reads of 64 bytes by an instruction as it issues: its waits, the answers of other parts, and at homes of this part the cut of its core
(R341, R342). -/
def State.readPieces (s : State) (i : Issue) (ls : List LaneAcc) : Except Stop (State × List (Nat × List Byte × Nat)) :=
  match i.readStop s ls 64 with
  | some e => .error e
  | none =>
    match s.farAnswers i (ls.filter (fun x => x.loc.part != s.part)) with
    | .error e => .error e
    | .ok (s, got) =>
      match (ls.filter (fun x => x.loc.part == s.part)).foldl (fun o x => o.bind (fun (s : State) =>
          s.meet i.team.ctx i.grp.core (s.marksCut i.team.ctx i.grp.core) false (s.placeFor i.team.ctx x.loc.pa))) (some s) with
      | none => .error (.wait 6 s)
      | some s => .ok (s, got)

/-- The bytes of one such read as the team reads them (R141, R241), or why another part refuses it (R271, R370, R391). -/
def State.pieceBytes (s : State) (i : Issue) (got : List (Nat × List Byte × Nat)) (x : LaneAcc) : Except Trap (List Byte) :=
  if x.loc.part = s.part then .ok (s.teamRead i.cur.team i.team.ctx i.grp.core x.loc.pa 64) else
  match got.find? (fun g => g.1 == x.lane) with
  | some (_, bs, 0) => .ok (s.overOwn i.cur.team i.grp.core x.loc.part x.loc.pa bs 64)
  | some (_, _, 5) => .error (Trap.access 0x0B x.va)
  | some (_, _, 6) => .error (Trap.access 0x0C x.va)
  | _ => .error (Trap.access 0x04 x.va)

/-- The bytes of several reads, in order. -/
def State.piecesBytes (s : State) (i : Issue) (got : List (Nat × List Byte × Nat)) : List LaneAcc → Except Trap (List (List Byte))
  | [] => .ok []
  | x :: xs =>
    match s.pieceBytes i got x, s.piecesBytes i got xs with
    | .ok b, .ok bs => .ok (b :: bs)
    | .error t, _ => .error t
    | _, .error t => .error t

/-- LAUNCH (R226): a release at device scope that commits the team; then each lane's packet is read and appended, in ascending
lane order. -/
def execLaunch (g : Guard) (a : RegField) (s : State) : Outcome State Fault Refusal :=
  issued s true (fun _ => [.srcStrict a 2]) true (fun i =>
    let xs := i.pairAddrs g a
    if xs.isEmpty then i.skip s else
    i.unless s ((misStop xs 64).orElse (fun _ => (i.pageStop s xs .read).orElse (fun _ => (i.parkStop s xs .read).orElse (fun _ =>
        i.denyStop s xs .read 64))))
      (if i.image.strict && !i.team.committed then i.raise ⟨0x13, 0x01, ((xs.head?.map (fun x => x.2)).getD 0)⟩ s else
       i.after (s.releaseWait i 5) (fun s =>
        match s.commit i.cur.team with
        | none => i.stall 6 s
        | some s =>
          let ls := xs.map (fun x => (⟨x.1, x.2.toNat, i.locOf s x.2 .read, []⟩ : LaneAcc))
          match s.readPieces i ls with
          | .error (.trap t) => i.raise t s
          | .error (.wait r s) => i.stall r s
          | .ok (s, got) =>
            match s.piecesBytes i got ls with
            | .error t => i.raise t s
            | .ok packets =>
              match (s.tap (ls.map (fun x => x.loc))).launchAll i.team i.image.boosted ((ls.map (fun x => x.va)).zip packets) with
              | none => i.stall 6 s
              | some s => i.retire id s)))

/-- HOST_FED_APPEND (R285): the host has stored a packet's address into NEXT of the tail (the event performs that store where
memory does not show it yet, log 26); the monitor links the packet and reads it. -/
def execHostFedAppend (queue packet : Nat) (s : State) : Outcome State Fault Refusal :=
  match s.queue? queue with
  | none => nothing
  | some q =>
    if q.deviceFed || packet == 0 then nothing else
    match s.vaRead q.ctx q.tail 8, s.vaRead q.ctx packet 64 with
    | some next, some bs =>
      if leNat next = packet then .next (s.link queue packet bs) else
      if leNat next ≠ 0 then nothing else
      match s.vaWrite q.ctx q.tail (leBytes 8 packet) with
      | some s => .next (s.link queue packet bs)
      | none => nothing
    | _, _ => nothing

/-! ### Dependences (R287) -/

/-- What the monitor reads at an address for a head: its bytes, nothing yet (with a request sent where none is outstanding), or
nothing at all. -/
inductive MonRead
  | bytes (bs : List Byte)
  | wait (s : State)
  | never

/-- Read an address for the head of a queue, at home or by a load of die 0 to another part (log 24). -/
def State.monRead (s : State) (q : Queue) (h : Linked) (va n : Nat) : MonRead :=
  match s.vaLoc q.ctx va .read with
  | none => .never
  | some l =>
    if l.part = s.part then .bytes (s.viewRead q.ctx l.pa n) else
    match h.got.find? (fun g => g.1 == va) with
    | some g => .bytes g.2
    | none =>
      if s.reqs.any (fun r => r.monitor == some (q.num, h.addr, va)) || !(s.mayRequest 1 0 l.part l.pa) then .wait s else
      let s := s.request 1 0 s.nextId q.ctx l.part l.pa 0 (leBytes 1 n) none none false
      .wait { s with reqs := s.reqs.map (fun r => if r.id + 1 = s.nextId then { r with monitor := some (q.num, h.addr, va) } else r) }

/-- Update a linked packet of a queue. -/
def State.onLinked (s : State) (q addr : Nat) (f : Linked → Linked) : State :=
  s.onQueue q (fun x => { x with linked := x.linked.map (fun h => if h.addr = addr then f h else h) })

/-- The state of a head's dependences: not all DONE (with what a request has changed), all DONE, or a refused or failed one. -/
inductive Deps
  | pending (s : State)
  | done
  | failed (tval : Nat)

/-- Look at the dependence records from the k-th on, in order (R287): the first one that is not DONE makes the head wait; else the
first with REFUSED or FATAL fails it. -/
def State.depsFrom (s : State) (q : Queue) (h : Linked) : Nat → Nat → Option Nat → Deps
  | 0, _, bad => match bad with | some a => .failed a | none => .done
  | n + 1, k, bad =>
    match s.monRead q h (pkDeps h.packet + 8 * k) 8 with
    | .never => .pending s
    | .wait s' => .pending s'
    | .bytes ab =>
      match s.monRead q h (leNat ab) 4 with
      | .never => .pending s
      | .wait s' => .pending s'
      | .bytes sb =>
        let st : Word := BitVec.ofNat 32 (leNat sb)
        if st.getLsbD 31 then
          s.depsFrom q h n (k + 1) (bad.orElse (fun _ => if st.getLsbD 30 || st.getLsbD 29 then some (leNat ab) else none))
        else .pending (s.onLinked q.num h.addr (fun h => { h with got := h.got.filter (fun g => g.1 != leNat ab) }))

/-- The head of a queue at a priority (R286). -/
def Queue.head? (q : Queue) (prio : Nat) : Option Linked := q.linked.find? (fun h => h.prio == prio)

/-- Unlink a packet; the next of its queue and priority becomes the head (R286). -/
def State.unlink (s : State) (q : Nat) (h : Linked) : State :=
  (s.onQueue q (fun x => { x with linked := x.linked.filter (fun k => k.addr != h.addr) })).oweOnce (.dependenceReady q h.prio)

/-- Refuse a head (R286, R288): its record is written and it is unlinked. None waits. -/
def State.refuse (s : State) (q : Queue) (h : Linked) (code : Nat) (tval : Dword) : Option State :=
  (s.writeRefusal q.ctx (pkCompl h.packet) code tval).map (fun s => s.unlink q.num h)

/-- The checks of R226 at the head, in their order. -/
def State.headStatus (s : State) (q : Queue) (h : Linked) : Option Nat :=
  if !(packetOk h.packet q.repset.length) then some 0x20 else
  match s.image? (pkImage h.packet) with
  | none => some 0x21
  | some m => m.status s.capBits (pkField h.packet 0x10 4) (pkField h.packet 0x14 4) (pkField h.packet 0x18 4)

/-- The barrier packet of a replica (R289, R371; its layout is log 15): KEY holds the set's lowest part and the kind, the payload
PASS, STATUS, the part number and the set. -/
def State.barrierPacket (s : State) (ctx kind : Nat) (set : List Nat) (pass : Bool) (status : Nat) : Packet :=
  let low := set.foldl min (set.headD 0)
  let key := low + 2 ^ 32 * kind
  { kind := 0x0C, srcPart := s.part, ctx := ctx, plane := s.planeOf 0 key, key := key,
    payload := [if pass then 1 else 0, BitVec.ofNat 8 status] ++ leBytes 2 s.part ++ (set.map (leBytes 2)).flatten }

/-- The replica set of a launch of a queue: the first parts of its REPSET (R289), which every part of the set lists from itself on (R284) and the
barrier names in ascending order (log 54). -/
def replicaSet (q : Queue) (packet : List Byte) : List Nat := sortBy id (q.repset.take (pkRepl packet))

/-- A head waits at the start barrier (R289). -/
def Queue.waits (q : Queue) (addr : Nat) : Bool := q.barrier.any (fun w => w.addr == addr)

/-- A replica arrives at the start barrier (R289) with its result, and the placement that it has reserved. -/
def State.arriveStart (s : State) (q : Queue) (h : Linked) (status : Option Nat) (res : List GangRes) : State :=
  (s.onQueue q.num (fun x => { x with barrier := x.barrier ++ [StartWait.mk h.prio h.addr (pkImage h.packet) status.isNone res none] })).sendPacket q.ctx
    (s.barrierPacket q.ctx 0 (replicaSet q h.packet) status.isNone (status.getD 0))

/-- DEPENDENCE_READY (R226, R286, R287): a packet that has reached the head of its queue and priority is checked, then waits for
its dependences; a replica that fails the checks of R76 tells the others through the start barrier (R289). -/
def execDependenceReady (queue prio : Nat) (s : State) : Outcome State Fault Refusal :=
  match s.queue? queue with
  | none => nothing
  | some q =>
    match q.head? prio with
    | none => nothing
    | some h =>
      if h.ready || q.waits h.addr then nothing else
      let refuse := fun (s : State) code tval => match s.refuse q h code tval with | some s => Outcome.next s | none => nothing
      match (if h.checked then none else s.headStatus q h) with
      | some code =>
        if 1 < pkRepl h.packet ∧ code ≤ 0x0B then .next (s.arriveStart q h (some code) []) else refuse s code 0
      | none =>
        let s1 := s.onLinked queue h.addr (fun h => { h with checked := true })
        match s1.depsFrom q h (pkNdeps h.packet) 0 none with
        | .failed a => refuse s1 0x23 (BitVec.ofNat 64 a)
        | .done => .next ((s1.onLinked queue h.addr (fun h => { h with ready := true })).oweOnce (.launchAdmission (s.sliceOf q.ctx)))
        | .pending s2 => if s2 = s then nothing else .next (s2.oweOnce (.dependenceReady queue prio))

end Sys2Proof.Machine
end

