-- ==== Sys2Proof/Machine/Dispatcher.lean ====
section
/-!
DEFINITION. The dispatcher: admission, the start barrier, placement of teams and gangs, and the aging of gangs (R263, R286, R289-R293,
R312, R326, R379).
-/
namespace Sys2Proof.Machine

open Host (Outcome)

/-! ### Admission (R286) -/

/-- Launches of a slice that have been admitted and have not completed; a twin's copies do not count. -/
def State.admitted (s : State) (slice : Nat) : Nat :=
  (s.launches.filter (fun l => s.sliceOf l.ctx == slice && (s.twinNum? l.ctx).isNone)).length

/-- Heads of a slice that wait at a start barrier with their checks passed: each will be one launch more (R286, R289). -/
def State.starting (s : State) (slice : Nat) : Nat :=
  sumOf ((s.queues.filter (fun q => s.sliceOf q.ctx == slice)).map (fun q => (q.barrier.filter (fun w => w.pass)).length))

/-- The heads of a priority that are ready, by queue. -/
def State.readyHeads (s : State) (slice prio : Nat) : List (Queue × Linked) :=
  sortBy (fun (x : Queue × Linked) => x.1.num) (s.queues.filterMap (fun q =>
    if s.sliceOf q.ctx = slice ∧ s.isRecalled q.ctx = false then
      match q.head? prio with
      | some h => if h.ready && !(q.waits h.addr) then some (q, h) else none
      | none => none
    else none))

/-- The queue last served at a priority of a slice (R286). -/
def State.lastServed (s : State) (slice prio : Nat) : Option Nat :=
  (s.served.find? (fun x => x.1 == slice && x.2.1 == prio)).map (fun x => x.2.2)

/-- The head to be admitted next: of the highest priority, in round-robin order of queues (R286). -/
def State.nextHead (s : State) (slice : Nat) : Option (Queue × Linked) :=
  [7, 6, 5, 4, 3, 2, 1, 0].findSome? (fun p =>
    let hs := s.readyHeads slice p
    match s.lastServed slice p with
    | some n => (hs.find? (fun x => decide (n < x.1.num))).orElse (fun _ => hs.head?)
    | none => hs.head?)

/-- The number of this part's replica (R289, R371): by part number, as the lowest-numbered failing one is found (log 54); 0 of a launch on one part. -/
def State.replicaNum (s : State) (q : Queue) (packet : List Byte) : Nat := if pkRepl packet ≤ 1 then 0 else countBelow s.part (replicaSet q packet)

/-- Admit a head with a generation number, and the placement that it has reserved (R286, R289). -/
def State.enter (s : State) (q : Queue) (h : Linked) (gen : Word) (res : List GangRes) : State :=
  let slice := s.sliceOf q.ctx
  let id := ((s.ctx? q.ctx).map (fun c => c.launches)).getD 0
  let p := h.packet
  let l : Launch :=
    { uid := s.nextId, ctx := q.ctx, queue := q.num, prio := pkPrio p, id := id, gen := gen, image := pkImage p,
      gx := pkField p 0x10 4, gy := pkField p 0x14 4, gz := pkField p 0x18 4, compl := pkCompl p, repl := pkRepl p,
      replica := s.replicaNum q p, next := 0, again := [], ended := [], placed := [], sumTime := 0, res := res, retired := 0, hands := [], fatal := none,
      report := none, kinds := [], concord := List.replicate 1024 0xFF, oldest := 0, facWait := none, facSent := false, facCut := 0, stopped := false }
  let s := { s with nextId := s.nextId + 1, launches := s.launches ++ [l] }
  let s := s.onCtx q.ctx (fun c => { c with launches := c.launches + 1 })
  let s := { s with served := (slice, pkPrio p, q.num) :: s.served.filter (fun x => !(x.1 == slice && x.2.1 == pkPrio p)) }
  (((s.onQueue q.num (fun x => { x with barrier := x.barrier.filter (fun w => w.addr != h.addr), nextGen := none })).unlink q.num h).oweRestores
    q.ctx).oweOnce (.dispatchDecision slice)

/-- The hold overflow area of a context for deterministic launches: 64 MiB in each stack of its slice (R294), drawn at the first one's
admission (log 93). None waits for the clean pools. -/
def State.overflowArea (s : State) (ctx : Nat) (det : Bool) : Option State :=
  if !det || s.areas.any (fun a => a.kind == .overflow && a.ctx == ctx) then some s else
  ((List.range 16).filter (fun k => (s.sliceStacks ctx).getLsbD k)).foldl (fun o k => o.bind (fun (s : State) => s.drawArea .overflow ctx 1024 [k])) (some s)

/-- The generation number of a single-part launch: its queue's start count plus 1 (R289), or what a RESTORE has set (R390). -/
def Queue.genOf (q : Queue) : Word := q.nextGen.getD (BitVec.ofNat 32 (q.starts + 1))

/-! ### Where a share can be placed (R264, R290-R293, R312, R326) -/

/-- A launch places gangs: it declares a shape, or it is deterministic (R293). -/
def Image.inGangs (m : Image) : Bool := m.ganged || m.det

/-- The cores, or even cores of pairs, of a cluster. -/
def Image.clusterCores (m : Image) (cluster : Nat) : List Nat :=
  (List.range (if m.paired then 4 else 8)).map (fun k => cluster * 8 + (if m.paired then 2 * k else k))

/-- Teams of another launch stand on a core. -/
def State.othersOn (s : State) (launch core : Nat) : List Team :=
  s.teams.filter (fun t => t.launch != launch && t.cores.contains core)

/-- A gang has aged (R292): 4,096 dispatch decisions of its slice have passed since its first reservation. -/
def State.isAged (s : State) (l : Launch) (r : GangRes) : Bool :=
  r.aged || (match r.first with | some n => decide (n + 4096 ≤ lookupD (s.sliceOf l.ctx) 0 s.decisions) | none => false)

/-- A recall lets a context's launch place teams on a core: none names it, or its queue is to RUN and the context has teams there (R326). -/
def State.recallOpen (s : State) (l : Launch) (core : Nat) : Bool :=
  !(s.isRecalled l.ctx) || (((s.recallOf l.ctx).map (fun r => r.action l.queue == 0)).getD false && !(s.teamsOn l.ctx core).isEmpty)

/-- A launch may place teams on one core (R290, R292, R293, R312, R322, R326): its context is active there, its ladder is in
RUN, no deterministic launch has the core and no aged gang the cluster, and a recall lets it. -/
def State.openTo (s : State) (l : Launch) (core : Nat) : Bool :=
  let c := s.core core
  c.active == some l.ctx &&
  (s.coreCtx core l.ctx).ladder != .soft && (s.coreCtx core l.ctx).ladder != .halt && (s.coreCtx core l.ctx).ladder != .kill &&
  (s.othersOn l.uid core).all (fun t => !(s.isDet t)) &&
  !(s.launches.any (fun k => k.uid != l.uid && k.res.any (fun r => r.cluster == core / 8 && s.isAged k r))) && s.recallOpen l core

/-- A core, or both cores of a pair, are open to a launch and hold its share. -/
def State.canPlace (s : State) (l : Launch) (m : Image) (core : Nat) : Bool :=
  s.openTo l core && (!m.paired || s.openTo l (core + 1)) && s.canHold m core l.ctx

/-- Slots of a context that are free on a core, or on a pair together (R290). -/
def State.freeCount (s : State) (m : Image) (core ctx : Nat) : Nat :=
  (Config.slotsPerCore - (s.coreUse core ctx).slots) + (if m.paired then Config.slotsPerCore - (s.coreUse (core + 1) ctx).slots else 0)

/-- The core with the most free slots, the first of equals (R290). -/
def State.bestCore (s : State) (l : Launch) (m : Image) : List Nat → Option Nat
  | [] => none
  | c :: cs =>
    match s.bestCore l m cs with
    | some d => if s.canPlace l m c then (if s.freeCount m d l.ctx ≤ s.freeCount m c l.ctx then some c else some d) else some d
    | none => if s.canPlace l m c then some c else none

/-- Seat a team on the best of some cores, away from the cores where its errors were taken (R290, R379). -/
def State.placeBest (s : State) (l : Launch) (m : Image) (a : Again) (again : Bool) (cores : List Nat) : Option State :=
  (s.bestCore l m (cores.filter (fun c => !(a.errCores.contains c)))).bind (fun c => s.seat l m a c again)

/-- The cores of a slice, in slice-dense order. -/
def State.sliceCores (s : State) (m : Image) (slice : Nat) : List Nat := ((s.sliceClusters slice).map m.clusterCores).flatten

/-! ### Teams without gangs (R37, R263, R290, R378, R379) -/

/-- The next team to place: the lowest that is to be placed again, else the next of the grid. -/
def Launch.nextTeam (l : Launch) : Option (Again × Bool) :=
  match (sortBy (fun (a : Again) => a.tlin) l.again).head? with
  | some a => some (a, true)
  | none => (((List.range l.teamCount).drop l.next).find? (fun k => !(l.placed.contains k))).map (fun k => (Again.mk k 0 [], false))

/-- Drop a gang's reservation. -/
def State.unreserve (s : State) (uid gang : Nat) : State :=
  s.onLaunch uid (fun l => { l with res := l.res.filter (fun r => r.gang != gang) })

/-- Seat teams one after another, each on its core; a core where one of the team's errors was taken does not qualify (R379). -/
def State.seatAll (s : State) (l : Launch) (m : Image) : List ((Again × Bool) × Nat) → Option State
  | [] => some s
  | ((a, again), c) :: xs =>
    if a.errCores.contains c ∨ !(s.canPlace l m c) then none else (s.seat l m a c again).bind (fun s => s.seatAll l m xs)

/-- The reservation that a launch without gangs made for a team at its start (R289). -/
def Launch.startRes (l : Launch) (m : Image) (tlin : Nat) : Option GangRes :=
  if l.res.isEmpty then none else l.res.find? (fun r => r.gang == l.gangOf m tlin)

/-- Place the next team of a launch without gangs, where it has been reserved at its start (R289); one that had an error never goes to that core's
cluster (R379). -/
def State.placeNext (s : State) (l : Launch) (m : Image) : Option State :=
  match l.nextTeam with
  | none => none
  | some (a, again) =>
    let cores := (s.sliceCores m (s.sliceOf l.ctx)).filter (fun c => !(a.errCores.any (fun e => e / 8 == c / 8)))
    (match l.startRes m a.tlin with
      | some r => (s.unreserve l.uid r.gang).seatAll l m ([(a, again)].zip r.cores)
      | none => s.placeBest l m a again cores).map (fun s => if again then s else s.onLaunch l.uid (fun l => { l with next := a.tlin + 1 }))

/-- Place every unplaced team of a cooperative launch in one step (R263); none unless all can be resident. -/
def State.placeAll (s : State) (uid : Nat) (m : Image) : Nat → Option State
  | 0 => some s
  | n + 1 =>
    match s.launch? uid with
    | none => none
    | some l =>
      match l.nextTeam with
      | none => some s
      | some _ => (s.placeNext l m).bind (fun s => s.placeAll uid m n)

/-! ### Gangs (R291-R293, R379) -/

/-- How many shares of a kernel a core still holds, up to a bound. -/
def Share.times (use new : Share) : Nat → Nat
  | 0 => 0
  | n + 1 => if use.fits new then 1 + (use.add new).times new n else 0

/-- How many pair teams the cores of a pair still hold, up to a bound. -/
def Image.pairTimes (m : Image) (use : Share × Share) : Nat → Nat
  | 0 => 0
  | n + 1 => if m.fitsPair use then 1 + m.pairTimes (m.split use) n else 0

/-- The free shares of a kernel on a cluster, as cores in ascending order, each as often as it can hold one. -/
def State.freeShares (s : State) (l : Launch) (m : Image) (cluster : Nat) : List Nat :=
  ((m.clusterCores cluster).map (fun c =>
    if s.canPlace l m c then
      List.replicate (if m.paired then m.pairTimes (s.pairUse c l.ctx) 256 else (s.coreUse c l.ctx).times (m.share false) 128) c
    else [])).flatten

/-- The cluster with the most free shares, the lowest of equals (R291). -/
def State.bestCluster (s : State) (l : Launch) (m : Image) : List Nat → Option Nat
  | [] => none
  | k :: ks =>
    match s.bestCluster l m ks with
    | some j => if (s.freeShares l m j).length ≤ (s.freeShares l m k).length then some k else some j
    | none => some k

/-- The records of a gang's unplaced teams, in ascending linear index. -/
def Launch.gangAgain (l : Launch) (members : List Nat) : List (Again × Bool) :=
  (members.filter (fun t => !(l.placed.contains t))).map (fun t =>
    match l.again.find? (fun a => a.tlin == t) with
    | some a => (a, true)
    | none => (Again.mk t 0 [], false))

/-- Seat teams one after another on the best core of a cluster (R290, R291). -/
def State.seatBest (s : State) (l : Launch) (m : Image) (cluster : Nat) : List (Again × Bool) → Option State
  | [] => some s
  | (a, again) :: xs => (s.placeBest l m a again (m.clusterCores cluster)).bind (fun s => s.seatBest l m cluster xs)

/-- Dispatch decisions of a slice so far (R292). -/
def State.decided (s : State) (slice : Nat) : Nat := lookupD slice 0 s.decisions

/-- A gang has been placed: the next gang of the order may begin (R290). -/
def State.gangPlaced (s : State) (uid gang : Nat) : State :=
  (s.unreserve uid gang).onLaunch uid (fun l => { l with next := max l.next (gang + 1) })

/-- As many elements of a list as a bound for each value leaves, the earlier ones first. -/
def capped (bound : Nat → Nat) : List Nat → List Nat → List Nat
  | _, [] => []
  | seen, c :: cs => if (seen.filter (fun d => d == c)).length < bound c then c :: capped bound (c :: seen) cs else capped bound seen cs

/-- The shares that a gang takes on its cluster, in all (R291): at its first decision every free one, later one more, and once aged every
one; `want` gives the cores of its teams where they are fixed (R293). -/
def State.gangCores (s : State) (l : Launch) (m : Image) (cluster n : Nat) (want : Option (List Nat)) (old : Option GangRes) : List Nat :=
  let have_ := (old.map (fun r => r.cores)).getD []
  let bound := fun (c : Nat) => match want with | some w => (w.filter (fun d => d == c)).length | none => n
  let free := (capped bound have_ (s.freeShares l m cluster)).take (n - have_.length)
  sortBy id (have_ ++ (if old.isNone || (old.map (s.isAged l)).getD false then free else free.take 1))

/-- Reserve shares on a cluster for a gang (R291); with all reserved the teams are placed, in ascending linear index on the reserved cores in
ascending order, or each on its own core where those are fixed (R293) and `clear` holds: no other launch has a team there. -/
def State.reserve (s : State) (l : Launch) (m : Image) (gang cluster : Nat) (teams : List (Again × Bool)) (want : Option (List Nat)) (clear : Bool) :
    Option State :=
  let old := l.res.find? (fun r => r.gang == gang)
  let cores := s.gangCores l m cluster teams.length want old
  if cores.length = teams.length && clear then
    ((s.unreserve l.uid gang).seatAll l m (teams.zip (want.getD cores))).map (fun s => s.gangPlaced l.uid gang)
  else if (old.map (fun r => r.cores.length == cores.length)).getD false then none else
    let first := (old.bind (fun r => r.first)).orElse (fun _ => if cores.isEmpty then none else some (s.decided (s.sliceOf l.ctx)))
    some (s.onLaunch l.uid (fun l => { l with res :=
      (l.res.filter (fun r => r.gang != gang)) ++ [GangRes.mk gang cluster cores first ((old.map (fun r => r.aged)).getD false)] }))

/-- A cluster qualifies for a gang (R379): the gang would not put a team there on a core where one of that team's errors was taken. Where it would have to
reserve, the cores that it gets are not known yet, and none of the cluster may be such a core (log 28). -/
def State.qualifies (s : State) (l : Launch) (m : Image) (teams : List (Again × Bool)) (k : Nat) : Bool :=
  if !(teams.any (fun x => x.1.errCores.any (fun c => c / 8 == k))) then true else
  match s.seatBest l m k (teams.map (fun x => ({ x.1 with errCores := [] }, x.2))) with
  | some s => teams.all (fun x => !(s.teams.any (fun t => t.launch == l.uid && t.tlin == x.1.tlin && x.1.errCores.contains t.core)))
  | none => false

/-- Place a gang of a normal launch whole, or reserve for it (R291). -/
def State.placeGang (s : State) (l : Launch) (m : Image) (gang : Nat) (teams : List (Again × Bool)) : Option State :=
  match l.res.find? (fun r => r.gang == gang) with
  | some r => s.reserve l m gang r.cluster teams none true
  | none =>
    match s.bestCluster l m ((s.sliceClusters (s.sliceOf l.ctx)).filter (s.qualifies l m teams)) with
    | none => none
    | some k =>
      match s.seatBest l m k teams with
      | some s => some (s.gangPlaced l.uid gang)
      | none => s.reserve l m gang k teams none true

/-- The clusters of a slice on the die to which R293 gives the gang of a position. -/
def State.dieClusters (s : State) (slice gang gangs : Nat) : List Nat :=
  let ks := s.sliceClusters slice
  let dies := (List.range 8).filter (fun d => ks.any (fun k => k / 5 == d))
  let die := getAt dies (dies.length * gang / max gangs 1) 0
  ks.filter (fun k => k / 5 == die)

/-- The core of a cluster that R293 gives the k-th team of a gang: local core k mod 8, or pair k mod 4 (log 27). -/
def Image.detCore (m : Image) (cluster k : Nat) : Nat := cluster * 8 + (if m.paired then 2 * (k % 4) else k % 8)

/-- Seat a deterministic gang on the first cluster that has room for every team (R293). -/
def State.seatDet (s : State) (l : Launch) (m : Image) (teams : List (Again × Bool)) : List Nat → Option State
  | [] => none
  | k :: ks =>
    match s.seatAll l m (teams.zip ((List.range teams.length).map (m.detCore k))) with
    | some s => some s
    | none => s.seatDet l m teams ks

/-- The cores of a cluster hold no team of another launch (R293). -/
def State.clearOf (s : State) (l : Launch) (k : Nat) : Bool := (List.range 8).all (fun c => (s.othersOn l.uid (k * 8 + c)).isEmpty)

/-- Place a deterministic gang (R293): on its die, on a cluster whose cores hold no team of another launch; else it waits, reserving the
shares of its teams' own cores on the lowest such cluster. -/
def State.placeDet (s : State) (l : Launch) (m : Image) (gang : Nat) (teams : List (Again × Bool)) : Option State :=
  let own := fun (k : Nat) => (List.range teams.length).map (m.detCore k)
  match l.res.find? (fun r => r.gang == gang) with
  | some r => s.reserve l m gang r.cluster teams (some (own r.cluster)) (s.clearOf l r.cluster)
  | none =>
    let clear := (s.dieClusters (s.sliceOf l.ctx) gang (l.gangs m).length).filter (s.clearOf l)
    match s.seatDet l m teams clear with
    | some s => some (s.gangPlaced l.uid gang)
    | none => (clear.find? (fun k => (teams.zip (own k)).all (fun x => !(x.1.1.errCores.contains x.2)))).bind (fun k =>
        s.reserve l m gang k teams (some (own k)) true)

/-- Place one team of a gang again beside the part of the gang that remains (R379): on its cluster, in a deterministic launch on
the lowest local core that can hold it; else it waits on the cluster, and ages from then on (log 28). -/
def State.placeMate (s : State) (l : Launch) (m : Image) (gang cluster : Nat) (a : Again) : Option State :=
  let cores := (m.clusterCores cluster).filter (fun c => !(a.errCores.contains c))
  let placed := if m.det then (cores.find? (s.canPlace l m)).bind (fun c => s.seat l m a c true) else s.placeBest l m a true cores
  match placed with
  | some s => some (s.unreserve l.uid gang)
  | none =>
    if l.res.any (fun r => r.gang == gang) then none else
      some (s.onLaunch l.uid (fun l => { l with res := l.res ++ [GangRes.mk gang cluster [] (some (s.decided (s.sliceOf l.ctx))) false] }))

/-- Serve one gang of a launch (R290, R379). A gang of which no team is placed any more is placed by its unplaced teams (log 28). -/
def State.serveGang (s : State) (l : Launch) (m : Image) (gang : Nat) : Option State :=
  match (l.order m)[gang]? with
  | none => none
  | some members =>
    let teams := l.gangAgain (sortBy id members)
    match s.teams.find? (fun t => t.launch == l.uid && t.gang == gang), teams with
    | some mate, (a, _) :: _ => s.placeMate l m gang (mate.core / 8) a
    | _, _ => if m.det then s.placeDet l m gang teams else s.placeGang l m gang teams

/-- Serve a launch with gangs (R290, R379): a team to be placed again first, else the next gang of the order. -/
def State.serveGangs (s : State) (l : Launch) (m : Image) : Option State :=
  s.serveGang l m (match (sortBy (fun (a : Again) => l.gangOf m a.tlin) l.again).head? with
    | some a => l.gangOf m a.tlin
    | none => l.next)

/-- Place every gang of a cooperative launch in one step (R263); none when one of them would have to reserve. -/
def State.placeAllGangs (s : State) (uid : Nat) (m : Image) : Nat → Option State
  | 0 => some s
  | n + 1 =>
    match s.launch? uid with
    | none => none
    | some l =>
      if l.again.isEmpty && decide ((l.gangs m).length ≤ l.next) then some s else
        (s.serveGangs l m).bind (fun s => if (s.launch? uid).map (fun k => k.placed.length) == some l.placed.length then none else s.placeAllGangs uid m n)

/-! ### Dispatch decisions (R290, R292) -/

/-- Serve one launch. -/
def State.serve (s : State) (l : Launch) : Option State :=
  match s.image? l.image with
  | none => none
  | some m =>
    if m.inGangs then
      if m.coop then
        if l.again.isEmpty && decide ((l.gangs m).length ≤ l.next) then none
        else s.placeAllGangs l.uid m ((l.gangs m).length + l.again.length + 1)
      else s.serveGangs l m
    else if m.coop then
      if l.nextTeam.isNone then none else s.placeAll l.uid m (l.teamCount + l.again.length)
    else s.placeNext l m

/-- The launches of a slice that the dispatcher serves, highest priority first and by identifier within one (R290). None is placed of one that has arrived
at the barrier of a facsimile cut: a team takes part in it or comes after it (R228; log 117). -/
def State.serving (s : State) (slice : Nat) : List Launch :=
  sortBy (fun (l : Launch) => (7 - l.prio) * 2 ^ 32 + l.id.toNat) (s.launches.filter (fun l =>
    s.sliceOf l.ctx == slice && !l.stopped && !l.facSent && (match s.twinNum? l.ctx with | some w => w.state == .rival | none => true)))

/-- The first launch that can be served. -/
def State.serveFirst (s : State) : List Launch → Option State
  | [] => none
  | l :: ls => match s.serve l with | some s => some s | none => s.serveFirst ls

/-- The aged gangs of some launches (R290, R292). -/
def State.agedGangs (s : State) (ls : List Launch) : List (Launch × Nat) :=
  (ls.map (fun l => (l.res.filter (s.isAged l)).map (fun r => (l, r.gang)))).flatten

/-- The first aged gang that can be served: one more share, or its placement. -/
def State.serveAged (s : State) : List (Launch × Nat) → Option State
  | [] => none
  | (l, g) :: xs =>
    match (s.image? l.image).bind (fun m => s.serveGang l m g) with
    | some s => some s
    | none => s.serveAged xs

/-- DISPATCH_DECISION (R290): aged gangs first, then by priority and identifier. -/
def execDispatchDecision (slice : Nat) (s : State) : Outcome State Fault Refusal :=
  let ls := s.serving slice
  match (s.serveAged (s.agedGangs ls)).orElse (fun _ => s.serveFirst ls) with
  | some s => .next (({ s with decisions := putKey slice (s.decided slice + 1) s.decisions } : State).oweOnce (.dispatchDecision slice))
  | none => nothing

/-- GANG_AGED (R292): 4,096 decisions of the slice have passed since the gang's first reservation. -/
def execGangAged (launch gang : Nat) (s : State) : Outcome State Fault Refusal :=
  match s.launch? launch with
  | none => nothing
  | some l =>
    if l.res.any (fun r => r.gang == gang && !r.aged && s.isAged l r) then
      .next ((s.onLaunch launch (fun l => { l with res := l.res.map (fun r => if r.gang = gang then { r with aged := true } else r) })).oweOnce
        (.dispatchDecision (s.sliceOf l.ctx)))
    else nothing

/-! ### Admission and the start barrier (R263, R286, R289) -/

/-- Serve a launch again and again while it places teams, up to a bound. -/
def State.serveMany (s : State) (uid : Nat) : Nat → State
  | 0 => s
  | n + 1 =>
    match s.launch? uid with
    | none => s
    | some l =>
      match s.serve l with
      | some s' => if (s'.launch? uid).map (fun k => k.placed.length) == some l.placed.length then s' else s'.serveMany uid n
      | none => s

/-- The placement that a replica reserves before it arrives at the start barrier (R289): where as many of its teams as fit would be placed now (log 54). -/
def State.startShares (s : State) (q : Queue) (h : Linked) : List GangRes :=
  let uid := s.nextId
  let s2 := (s.enter q h 0 []).serveMany uid (Config.numCores * Config.slotsPerCore)
  let ts := s2.teams.filter (fun t => t.launch == uid)
  ((s2.launch? uid).map (fun l => l.res)).getD [] ++ ts.map (fun t => GangRes.mk t.gang (t.core / 8) [t.core] none false)

/-- One record for each gang of some reservations. -/
def joinShares (rs : List GangRes) : List GangRes :=
  rs.foldl (fun acc r => if acc.any (fun x => x.gang == r.gang) then
      acc.map (fun x => if x.gang = r.gang then { x with cores := sortBy id (x.cores ++ r.cores) } else x) else acc ++ [r]) []

/-- LAUNCH_ADMISSION (R263, R286, R289): the slice's next ready head is admitted, refused with 0x0C, or goes on to the start
barrier. -/
def execLaunchAdmission (slice : Nat) (s : State) : Outcome State Fault Refusal :=
  if 64 ≤ s.admitted slice + s.starting slice then nothing else
  match s.nextHead slice with
  | none => nothing
  | some (q, h) =>
    let again := fun (s : State) => if (s.nextHead slice).isSome then s.oweOnce (.launchAdmission slice) else s
    let refuse := fun code => match s.refuse q h code 0 with | some s => Outcome.next (again s) | none => nothing
    match s.image? (pkImage h.packet) with
    | none => refuse 0x21
    | some m =>
      let teams := pkField h.packet 0x10 4 * pkField h.packet 0x14 4 * pkField h.packet 0x18 4
      let fits := !m.coop || decide (teams ≤ s.sliceCapacity m slice)
      if 1 < pkRepl h.packet then
        match (if fits then s.overflowArea q.ctx m.det else some s) with
        | some s => .next (again (if fits then s.arriveStart q h none (joinShares (s.startShares q h)) else s.arriveStart q h (some 0x0C) []))
        | none => nothing
      else if fits then
        match s.overflowArea q.ctx m.det with
        | some s => .next (again ((s.enter q h q.genOf []).onQueue q.num (fun x => { x with starts := x.starts + 1 })))
        | none => nothing
      else refuse 0x0C

/-- The end of a start barrier for a head (R289): with PASS it is admitted with the set's new start count, else refused; one whose context
has been recalled meanwhile is admitted when the recall is lifted (R326). -/
def State.startRelease (s : State) (q : Queue) (h : Linked) (pass : Bool) (status count : Nat) : Option State :=
  match q.barrier.find? (fun w => w.addr == h.addr) with
  | none => none
  | some w =>
    if pass then
      some (if s.isRecalled q.ctx then s.onQueue q.num (fun x => { x with barrier := x.barrier.map (fun v => if v = w then { v with go := some count } else v) })
        else s.enter q h (q.nextGen.getD (BitVec.ofNat 32 count)) w.res)
    else (s.refuse q h status 0).map (fun s => s.onQueue q.num (fun x => { x with barrier := x.barrier.filter (fun v => v.addr != h.addr) }))

/-- The head of a queue that has waited longest at the start barrier (log 105). -/
def Queue.startHead (q : Queue) : Option Linked := (q.barrier.find? (fun w => w.go.isNone)).bind (fun w => q.linked.find? (fun h => h.addr == w.addr))

/-- Heads that were released while their context was recalled are admitted (R326, R330). -/
def State.startLifted (s : State) (q : Queue) : State :=
  q.barrier.foldl (fun s w => match w.go, (s.queue? q.num), q.linked.find? (fun h => h.addr == w.addr) with
    | some n, some x, some h => s.enter x h (x.nextGen.getD (BitVec.ofNat 32 n)) w.res
    | _, _, _ => s) s

/-- START_BARRIER_RELEASE (R289). -/
def execStartBarrierRelease (queue : Nat) (pass : Bool) (status count : Nat) (s : State) : Outcome State Fault Refusal :=
  match (s.queue? queue).bind (fun q => q.startHead.bind (fun h => s.startRelease q h pass status count)) with
  | some s => .next s
  | none => nothing

/-- START_BARRIER_TIMEOUT (R289): every replica refuses with 0x24, and the barrier of the set ends. -/
def execStartBarrierTimeout (queue : Nat) (s : State) : Outcome State Fault Refusal :=
  match (s.queue? queue).bind (fun q => q.startHead.bind (fun h => (s.startRelease q h false 0x24 0).map (fun s => (s, replicaSet q h.packet)))) with
  | some (s, set) => .next { s with barriers := s.barriers.filter (fun b => !(b.kind == 0 && b.parts == set)) }
  | none => nothing

end Sys2Proof.Machine
end

