-- ==== Sys2Proof/Machine/Ending.lean ====
section
/-!
DEFINITION. Ends: store reports and their levels, the end of groups and teams, the scrubber, gang retirement and the completion of a
launch (R22, R220, R265, R288, R294, R309-R311, R317, R349).
-/
namespace Sys2Proof.Machine

open Host (Outcome)

/-! ### Store reports (R311) -/

/-- A report at LEVEL launch: it fills the cause fields unless a fatal trap or an earlier report has (R288). -/
def State.launchReport (s : State) (b : StoreBuf) (detail : Nat) : State :=
  s.onLaunch b.launch (fun l => { l with report := some (l.report.getD ⟨0x11, detail, b.tlin, b.pc, b.addr⟩) })

/-- Deliver a report to a group at a level; behind an earlier one it waits in the report queue of the core, and with 16 there it
goes to the launch (R311). -/
def State.reportTo (s : State) (t : Team) (g : Group) (level : Nat) (b : StoreBuf) (detail : Nat) : State :=
  let a : AsyncTrap := ⟨0x11, detail, level, level != 0, some b.pc, b.addr, none, some b.gid⟩
  if g.pend.any (fun p => p.cause == 0x11) then
    if (s.coreCtx g.core t.ctx).reports.length < 16 then
      s.onCoreCtx g.core t.ctx (fun c => { c with reports := c.reports ++ [Report.mk t.uid g.idx a] })
    else s.launchReport b detail
  else s.pend t.uid g.idx a

/-- A refused store is reported on the first level that is still alive (R311). -/
def State.reportStore (s : State) (b : StoreBuf) (detail : Nat) : State :=
  match s.team? b.team with
  | none => s.launchReport b detail
  | some t =>
    if t.ended then s.launchReport b detail else
    match t.groups.find? (fun g => g.idx == b.grp && !g.ended) with
    | some g => s.reportTo t g 0 b detail
    | none =>
      match (sortBy (fun (g : Group) => g.idx) (t.groups.filter (fun g => !g.ended))).head? with
      | some g => s.reportTo t g 1 b detail
      | none => s.launchReport b detail

/-- Retire a store request that the target refused (R310, R311); what a committing team held there for it is gone (R242). -/
def State.refuseStore (s : State) (r : Req) (detail : Nat) : State :=
  let s := { s with reqs := s.reqs.filter (fun x => x.id != r.id)
                    heldOut := s.heldOut.filter (fun e => !((r.wc.map (fun x => x.id)) == some e.id)) }
  ((r.wc.map (fun e => e.stores)).getD []).foldl (fun s b => s.reportStore b detail) s

/-- STORE_REFUSAL (R310, R311): the target has refused a store line. -/
def execStoreRefusal (req : Nat) (readOnly : Bool) (s : State) : Outcome State Fault Refusal :=
  match s.reqs.find? (fun r => r.id == req && r.wc.isSome && !r.host) with
  | some r => .next (s.refuseStore r (if readOnly then 1 else 0))
  | none => nothing

/-! ### Groups and teams (R22) -/

/-- Nothing that a group issued is outstanding: accesses, matrix work and TILEOPs (R22). -/
def State.quiet (s : State) (team grp : Nat) : Bool :=
  !(s.outstanding team grp) && !(s.works.any (fun w => w.team == team && w.grp == grp)) &&
    !(s.tileops.any (fun w => w.team == team && w.grp == grp))

/-- The store reports that an ended group can no longer take go to the next level (R311; log 29). -/
def State.moveReports (s : State) (t : Team) (g : Group) : State :=
  let again := fun (s : State) (a : AsyncTrap) =>
    s.reportStore ⟨a.tpc.getD 0, a.parent.getD 0, t.tlin, t.launch, a.tval, t.uid, g.idx, 0⟩ a.detail
  let waiting := (s.coreCtx g.core t.ctx).reports.filter (fun r => r.team == t.uid && r.grp == g.idx)
  let s := s.onCoreCtx g.core t.ctx (fun c => { c with reports := c.reports.filter (fun r => !(r.team == t.uid && r.grp == g.idx)) })
  ((g.pend.filter (fun a => a.cause == 0x11)) ++ waiting.map (fun r => r.trap)).foldl again s

/-- Engine work of a team that its end waits for (log 30). -/
def State.engineBusy (s : State) (team : Nat) : Bool :=
  s.copies.any (fun c => c.team == team) || s.sends.any (fun c => c.team == team) || s.colls.any (fun c => c.team == team) ||
    s.accessions.any (fun c => c.team == team)

/-- A rival all of whose teams have ended ends (R349). -/
def State.oweRivalEnd (s : State) (ctx : Nat) : State :=
  match s.twinNum? ctx with
  | some w => if w.state == .rival && !(s.teams.any (fun t => t.ctx == ctx && !t.ended)) then s.oweOnce (.rivalEnd ctx) else s
  | none => s

/-- End a team all of whose groups have ended (R22), or that its launch's end has stopped (R220). None waits. -/
def State.finishTeam (s : State) (t : Team) : Option State :=
  if t.killed then
    let s1 := s.clearTeam t
    -- what a committed team has stored is performed at this part's homes before its launch's DONE (R235)
    if s1.wc.any (fun e => e.team == t.uid && e.part == s.part) || s1.reqs.any (fun r => r.host && r.team == t.uid) then none
    else some ((s1.teamStopped t).oweRivalEnd t.ctx)
  else
  if s.engineBusy t.uid then none else
  (s.teamEnd t).map (fun s => s.oweRivalEnd t.ctx)

/-- GROUP_END (R22, R220): a group whose lanes have exited and whose work has completed ends, and the team with its last group; a
group that a fatal trap has stopped ends when its work has completed. -/
def execGroupEnd (team grp : Nat) (s : State) : Outcome State Fault Refusal :=
  match s.team? team, s.group? team grp with
  | some t, some g =>
    if t.ended || ((t.aborting.isSome || g.undo) && !t.killed) || !(s.runs t.ctx) then nothing else
    if !g.ended && !(s.quiet team grp && (t.killed || (g.live == 0 && g.ctrs.all (fun c => c == 0)))) then nothing else
    let s1 := if g.ended then s else (s.onGroup team grp (fun g => { g with ended := true })).moveReports t g
    match s1.team? team with
    | none => nothing
    | some t1 =>
      if t1.groups.all (fun g => g.ended) then
        match s1.finishTeam t1 with
        | some s2 => .next s2
        | none => if g.ended then nothing else .next (s1.owe (.groupEnd team grp))
      else if g.ended then nothing else .next s1
  | _, _ => nothing

/-- LINE_SCRUB (R265): a freed share's lines and tiles are zeroed, and placements may draw them. -/
def execLineScrub (scrub : Nat) (s : State) : Outcome State Fault Refusal :=
  match s.scrubs.find? (fun x => x.id == scrub) with
  | some x => .next ({ s with scrubs := s.scrubs.filter (fun y => y.id != scrub) }.oweDispatch x.ctx)
  | none => nothing

/-! ### Gangs and launches (R288, R294) -/

/-- GANG_RETIREMENT (R294): every team of the gang has ended and the gang before it has retired; its held lines are released, in
ascending linear index of their teams. No gang of a launch that a fatal trap has stopped retires any more: the lines of its uncommitted teams are dropped (R220). -/
def execGangRetirement (launch gang : Nat) (s : State) : Outcome State Fault Refusal :=
  match s.launch? launch with
  | none => nothing
  | some l =>
    match s.image? l.image with
    | none => nothing
    | some m =>
      let members := getAt (l.order m) gang []
      let mine := sortBy (fun (t : Team) => t.tlin) (s.teams.filter (fun t => t.launch == launch && t.gang == gang))
      if l.retired ≠ gang ∨ l.stopped ∨ !(members.all l.ended.contains) ∨ !(mine.all (fun t => t.ended)) ∨ members.isEmpty then nothing else
      match mine.foldl (fun o t => o.bind (fun s => (s.releaseAll t.uid).map (fun s => s.dropTeam t.uid))) (some s) with
      | none => nothing
      | some s =>
        .next ((s.onLaunch launch (fun l => { l with retired := l.retired + 1 })).unowe (.gangRetirement launch gang) |>.oweCompletion launch)

/-- The completion record of a launch (R288). -/
def Launch.record (l : Launch) : List Byte :=
  let bit := fun (b : Bool) (n : Nat) => if b then 2 ^ n else 0
  let c : CauseRec := (l.fatal.orElse (fun _ => l.report)).getD ⟨0, 0, 0, 0, 0⟩
  recordBytes (2 ^ 31 + bit l.fatal.isSome 29 + bit (l.fatal.isNone && l.report.isSome) 28 + (c.detail % 256) * 256 + c.code % 256)
    c.tlin c.tpc l.gen c.tval l.id l.ended.length

/-- Every team has ended, or a stopped launch has none running (R288). -/
def State.allEnded (s : State) (l : Launch) : Bool :=
  (l.stopped && !(s.teams.any (fun t => t.launch == l.uid && !t.ended))) ||
    (decide (l.ended.length = l.teamCount) && !(s.teams.any (fun t => t.launch == l.uid)))

/-- Stores of a context whose team has ended are still to be performed at another part (R235, R288): what a team held there is sent as it ends. -/
def State.sending (s : State) (ctx : Nat) : Bool :=
  s.reqs.any (fun r => r.wc.isSome && r.pkt.ctx == ctx && (s.team? r.team).isNone) || s.heldOut.any (fun e => e.ctx == ctx && (s.team? e.team).isNone)

/-- The replica set of a launch (R289), in ascending order. -/
def State.replicas (s : State) (l : Launch) : List Nat := sortBy id ((((s.queue? l.queue).map (fun q => q.repset)).getD [s.part]).take (max l.repl 1))

/-- A part arrives at the barrier of a facsimile cut with its teams all ended: PASS, and STATUS 0x80 to say so (R228; log 15). -/
def State.arriveEnded (s : State) (ctx : Nat) (set : List Nat) : State :=
  { s with facEnded := addOnce set s.facEnded }.sendPacket ctx (s.barrierPacket ctx 1 set true 0x80)

/-- A multi-part launch has ended on this part (R228): the cuts of the other parts have all of its teams, unless another launch of the set runs here. -/
def State.oweEnded (s : State) (l : Launch) : State :=
  let set := s.replicas l
  if l.repl ≤ 1 ∨ (s.twinNum? l.ctx).isSome ∨ s.launches.any (fun k => k.uid != l.uid && decide (1 < k.repl) && s.replicas k == set) then s
  else s.arriveEnded l.ctx set

/-- LAUNCH_COMPLETION (R220, R288, R310): the record is written once every team has ended, every held line is released or dropped and
every store-buffer entry has retired; DEPS of other launches and the slice's admission may go on. -/
def execLaunchCompletion (launch : Nat) (s : State) : Outcome State Fault Refusal :=
  match s.launch? launch with
  | none => nothing
  | some l =>
    if !(s.allEnded l) || s.storeBufs.any (fun b => b.launch == launch) || s.sending l.ctx then nothing else
    let dead := s.teams.filter (fun t => t.launch == launch)
    let s := (dead.filter (fun t => !t.slots.isEmpty)).foldl State.freeTeam s
    let s := { s with held := s.held.filter (fun h => !(dead.any (fun t => t.uid == h.team && !t.committed)))
                      objects := s.objects.filter (fun o => !(dead.any (fun t => t.uid == o.team)))
                      teams := s.teams.filter (fun t => t.launch != launch) }
    match (if l.compl = 0 then some s else s.vaWrite l.ctx l.compl l.record) with
    | none => nothing
    | some s =>
      .next (({ s.oweEnded l with launches := s.launches.filter (fun k => k.uid != launch) }.oweOnce (.launchAdmission (s.sliceOf l.ctx))).oweRivalEnd l.ctx)

end Sys2Proof.Machine
end

