-- ==== Sys2Proof/Machine/CopyInstr.lean ====
section
/-!
DEFINITION. COPY, PUBLISH and MCAST: their records, checks, team copies, sends and the exchange of a publishable region
(R185-R199).
-/
namespace Sys2Proof.Machine

open Host (Outcome Cell)

/-! ### Records (R185, R186, R190) -/

/-- Words of a scratchpad record. -/
def Team.words (t : Team) (off n : Nat) : List Word := bytesWords n (Memory.read t.scratch off (4 * n))

/-- A completion-record offset: 0xFFFF_FFFF wants none (R185). -/
def compOf (w : Word) : Option Nat := if w = 0xFFFFFFFF#32 then none else some w.toNat

/-- Row 1 of R190 over records of (offset, bytes, alignment): misaligned, beyond SCRATCH, or on an absent line; then the waits for a
slice's bytes (R191), for earlier matrix work on them (R167), and for an earlier acquire (R146). -/
def Issue.recordStop (i : Issue) (s : State) (rs : List (Nat × Nat × Nat)) : Option Stop :=
  ((rs.find? (fun r => r.1 % r.2.2 != 0)).map (fun r => .trap (Trap.misaligned r.1))).orElse (fun _ =>
  ((rs.find? (fun r => decide (i.image.scratch < r.1 + r.2.1))).map (fun r => .trap (Trap.access 0x03 r.1))).orElse (fun _ =>
  (i.lineStop s (rs.map (fun r => (0, r.1))) 1).orElse (fun _ =>
    if s.acquiring i || rs.any (fun r => s.sliceMeets i.cur.team r.1 r.2.1) then some (.wait 6 s) else
    if rs.any (fun r => s.tileMeets i.cur.team i.cur.grp r.1 r.2.1) then some (.wait 11 s) else none)))

/-- Read a record: an uncorrectable line of it ends the team (R143, R270). -/
def Issue.reading (i : Issue) (s : State) (off n : Nat) (k : List Word → Outcome State Fault Refusal) : Outcome State Fault Refusal :=
  match i.team.badLine [(0, off)] n with
  | some l => .next (s.deliverE i.cur.team 0 (BitVec.ofNat 64 l))
  | none => k (i.team.words off (n / 4))

/-- The record and completion record of an engine instruction. -/
def engineRecords (off bytes align : Nat) (comp : Option Nat) : List (Nat × Nat × Nat) :=
  (off, bytes, align) :: (match comp with | some c => [(c, 16, 16)] | none => [])

/-- Write a completion record, when one is wanted (R186). -/
def State.writeComp (s : State) (team : Nat) (comp : Option Nat) (fault : Bool) (cause bytes refused delivered : Nat) : State :=
  match comp with
  | none => s
  | some c =>
    let st := 2 ^ 31 + (if fault then 2 ^ 30 else 0) + cause % 256
    let bs := leBytes 4 st ++ leBytes 4 bytes ++ leBytes 4 refused ++ leBytes 4 delivered
    s.onTeam team (fun t => { t with scratch := Memory.write t.scratch c bs })

/-- A named barrier without a member count (R203). -/
def Issue.barStop (i : Issue) (n : Nat) : Option Stop :=
  if (i.team.bar n).expected = 0 then some (.trap (Trap.illegal 0x15)) else none

/-! ### Slices (R188) -/

/-- A word of a slice record. -/
def Slice.w (sl : Slice) (k : Nat) : Nat := (getAt sl.record k 0).toNat

/-- DIR of a slice (R188). -/
def Slice.dir (sl : Slice) : Nat := sl.w 7 % 4

/-- PUB of a slice (R188). -/
def Slice.pub (sl : Slice) : Bool := sl.w 7 / 4 % 2 = 1

/-- Sectors a slice moves. -/
def Slice.sectors (sl : Slice) : Nat := sl.w 3 / 32 * sl.w 4

/-- The row and the offset in it of a sector. -/
def Slice.rowOf (sl : Slice) (k : Nat) : Nat × Nat := (32 * k / max (sl.w 3) 1, 32 * k % max (sl.w 3) 1)

/-- The scratchpad offset at SOFF's side of a sector. -/
def Slice.soff (sl : Slice) (k : Nat) : Nat := sl.w 2 + (sl.rowOf k).1 * sl.w 6 + (sl.rowOf k).2

/-- The global address, or for DIR 2 the source offset, of a sector. -/
def Slice.gaddr (sl : Slice) (k : Nat) : Nat := (sl.w 0 + 2 ^ 32 * sl.w 1 + (sl.rowOf k).1 * sl.w 5 + (sl.rowOf k).2) % 2 ^ 64

/-- The fields of a record are as R188 says (R190 row 2). -/
def recordOk (r : List Word) : Bool :=
  let w := fun k => (getAt r k (0 : Word)).toNat
  let dir := w 7 % 4
  decide (w 7 < 8 ∧ dir ≠ 3 ∧ (w 7 / 4 % 2 = 1 → dir = 1) ∧ w 0 % 32 = 0 ∧ (dir = 2 → w 1 = 0) ∧ w 2 % 32 = 0 ∧ w 3 % 32 = 0 ∧ w 3 ≤ 65536 ∧
    1 ≤ w 4 ∧ w 4 ≤ 65536 ∧ w 5 % 32 = 0 ∧ w 6 % 32 = 0)

/-- The scratchpad lines of `f` over the sectors from `lo`. -/
def Slice.linesFrom (sl : Slice) (f : Nat → Nat) (lo : Nat) : List Nat :=
  ((List.range (sl.sectors - lo)).map (fun k => f (lo + k) / 256)).foldl (fun acc x => addOnce x acc) []

/-- The destination lines that a slice covers wholly (R191). -/
def Slice.whole (sl : Slice) : List Nat :=
  if sl.dir = 1 then [] else
  let secs := ((List.range sl.sectors).map (fun k => sl.soff k / 32)).foldl (fun acc x => addOnce x acc) []
  (sl.linesFrom sl.soff 0).filter (fun l => (List.range 8).all (fun j => secs.contains (l * 8 + j)))

/-- Rows 3 and 4 of R190. -/
def Issue.sliceStop (i : Issue) (sl : Slice) : Option Stop :=
  if sl.sectors = 0 then none else
  let rows := List.range (sl.w 4)
  let beyond := fun (base stride : Nat) => (rows.find? (fun r => decide (i.image.scratch < base + r * stride + sl.w 3))).map (fun r => base + r * stride)
  let src := if sl.dir = 1 then sl.linesFrom sl.soff 0 else if sl.dir = 2 then sl.linesFrom sl.gaddr 0 else []
  match beyond (sl.w 2) (sl.w 6), (if sl.dir = 2 then beyond (sl.w 0) (sl.w 5) else none) with
  | some o, _ => some (.trap (Trap.access 0x03 o))
  | none, some o => some (.trap (Trap.access 0x03 o))
  | none, none => (src.find? i.team.isUnfilled).map (fun l => .trap (Trap.unfilled (l * 256)))

/-- The team copy with a number. -/
def State.teamCopy? (s : State) (team n : Nat) : Option TeamCopy := s.copies.find? (fun c => c.team == team && c.n == n)

/-- Update one team copy. -/
def State.onCopy (s : State) (team n : Nat) (f : TeamCopy → TeamCopy) : State :=
  { s with copies := s.copies.map (fun c => if c.team = team ∧ c.n = n then f c else c) }

/-- A group supplies its slice, or an empty one, to its next team copy (R189). -/
def State.supply (s : State) (team grp n : Nat) (sl : Option Slice) : State :=
  let s := if (s.teamCopy? team n).isSome then s else
    ({ s with copies := s.copies ++ [TeamCopy.mk team n [] [] false false] }).owe (.teamCopyStart team n)
  let s := s.onCopy team n (fun c => { c with issued := addOnce grp c.issued, slices := c.slices ++ sl.toList })
  s.onGroup team grp (fun g => { g with copies := g.copies + 1 })

/-- A slice writes the lines of an ACCESSION that the engine has not read yet (R209). -/
def State.sliceOverwrites (s : State) (team : Nat) (sl : Slice) : Bool :=
  sl.dir != 1 && s.accessions.any (fun a => a.team == team && rowsMeet (sl.w 2) (sl.w 6) (sl.w 4) (sl.w 3) a.offset 4096)

/-- The queue of the copy engine of a core is full (R190): as many slices of started team copies as it holds have not ended. The depth beyond one
slice is a free value (log 96). -/
def State.queueFull (s : State) (core : Nat) : Bool :=
  let n := sumOf ((s.copies.filter (fun c => c.started && ((s.team? c.team).map (fun t => t.core == core)).getD false)).map
    (fun c => (c.slices.filter (fun sl => !sl.ended)).length))
  n != 0 && decide (Config.engineQueue < n)

/-- Set lines absent and pending for an owner. -/
def Team.pendLines (t : Team) (ls : List Nat) (o : LineOwner) (name : Dword) : Team :=
  { t with absent := ls.map (fun l => ⟨l, true, o, 0, name⟩) ++ t.absent.filter (fun a => !(ls.contains a.line)) }

/-- COPY (R188-R191). With no lanes in effect the slice is empty and names no barrier (log 96). -/
def execCopy (g : Guard) (a : RegField) (b : BitVec 4) (s : State) : Outcome State Fault Refusal :=
  issued s true (fun _ => [.srcStrict a 2]) true (fun i =>
    if i.effect g = 0 then i.retire id (s.supply i.cur.team i.cur.grp i.grp.copies none) else
    let l := i.first g
    let off := (i.regAt a 0 l).toNat
    let comp := compOf (i.regAt a 1 l)
    i.unless s (i.recordStop s (engineRecords off 32 32 comp)) (i.unless s (i.barStop b.toNat)
      (i.reading s off 32 (fun r =>
       let sl : Slice := ⟨i.cur.grp, l, i.cur.pc, r, b.toNat, comp, 0, 0, false, false, 0, s.nextId, false, []⟩
       if !(recordOk r) then i.raise (Trap.illegal 0x18) s else
       i.unless s (i.sliceStop sl)
         (if s.sliceOverwrites i.cur.team sl then i.stall 6 s else
          if s.queueFull i.team.core then i.stall 15 s else
          let s := { s with nextId := s.nextId + 1 }.onTeam i.cur.team (fun t => t.pendLines sl.whole (.copy i.grp.copies i.cur.grp) 0)
          i.retire id (s.supply i.cur.team i.cur.grp i.grp.copies (some sl)))))))

/-! ### The engine -/

/-- TEAM_COPY_START (R189): every group has issued its COPY or ended, and the team's earlier copies have started. -/
def execTeamCopyStart (team n : Nat) (s : State) : Outcome State Fault Refusal :=
  match s.teamCopy? team n, s.team? team with
  | some c, some t =>
    if !c.started && t.groups.all (fun g => c.issued.contains g.idx || g.ended) &&
       !(s.copies.any (fun k => k.team == team && decide (k.n < n) && !k.started)) then
      .next ((s.onCopy team n (fun c => { c with started := true })).owe (.teamCopyEnd team n))
    else nothing
  | _, _ => nothing

/-- What one sector's move does: it lands, the slice stops at a fault, the engine waits, or the team has ended under an
uncorrectable error. -/
inductive Moved
  | landed (s : State)
  | fault (cause detail : Nat) (tval : Dword) (s : State)
  | wait (s : State)
  | gone (s : State)

/-- The state in which a sector has landed. -/
def Moved.landedState : Moved → Option State
  | .landed s => some s
  | _ => none

/-- The scratchpad source of an engine: a pending line waits, a line left unfilled stops the transfer, an uncorrectable line ends
the team (R182, R191, R270). -/
def State.engineSource (s : State) (t : Team) (off : Nat) (k : List Byte → Moved) : Moved :=
  let line := off / 256
  if t.isPending line then .wait s else
  match t.absentLine? line with
  | some a => .fault 0x0B a.why (if a.why = 2 then 0 else a.name) s
  | none => if t.bad.contains line then .gone (s.deliverE t.uid 0 (BitVec.ofNat 64 line)) else k (Memory.read t.scratch off 32)

/-- Read a sector of global memory for an engine of a team (R187, R191, R271, R391). -/
def State.engineRead (s : State) (t : Team) (sl : Slice) (k : Nat) (m : Image) : Except Moved (State × List Byte) :=
  let va : Dword := BitVec.ofNat 64 (sl.gaddr k)
  match s.translate t.ctx va .read with
  | .fault => .error (.fault 0x04 0 va s)
  | .deny => .error (.fault 0x05 0x04 va s)
  | .replay => .error (.wait (s.recordFault t.ctx (pageOf va) .read))
  | .ok l =>
    if l.part ≠ s.part then
      let bs := (List.range 32).map (fun j => cellAt (l.part * 2 ^ 52 + l.pa + j) sl.arrived)
      if bs.all Option.isSome then .ok (s, bs.map (fun b => b.getD 0)) else .error (.wait s)
    else if (s.queueing? l.pa).isSome then .error (.wait s)
    else if s.meterRefuses l m.meas then .error (.fault 0x05 0x0C va s)
    else if s.poisonedFor t.uid t.ctx t.core l.pa 32 then .error (.fault 0x05 0x0B va s)
    else
      let s := if l.met && (decide (l.pa % 256 = 0) || (sl.rowOf k).2 == 0) then s.tap [l] else s
      match s.meet t.ctx t.core (s.marksCut t.ctx t.core) false (s.placeFor t.ctx l.pa) with
      | none => .error (.wait s)
      | some s => .ok (s, s.teamRead t.uid t.ctx t.core l.pa 32)

/-- The shadow half of a publishable region in a context's view (R193, R276), and whether the background copy still runs over it (R195):
none outside a region. -/
def State.shadow (s : State) (ctx pa : Nat) : Option (Nat × Bool) :=
  (s.pubAt? pa).map (fun x => (s.moved (x.1.half (!(s.selOf ctx x.1).1) x.2), (s.selOf ctx x.1).2))

/-- The head of a sprayed packet's payload: what it carries, 0 bytes that were asked for and 1 bytes for the shadow of a region, and the number of its
transfer (log 15). -/
def sprayHead (op xfer : Nat) : List Byte := leBytes 1 op ++ leBytes 8 xfer

/-- The number of a sector's packet in its transfer to a home of another part (R360): the earlier sectors that go there. -/
def State.sprayNumber (s : State) (ctx : Nat) (addr : Nat → Nat) (l : Loc) (k : Nat) : Nat :=
  ((List.range k).filter (fun j => match s.translate ctx (BitVec.ofNat 64 (addr j)) .write with
    | .ok x => x.part == l.part && homeDie x.pa == homeDie l.pa
    | _ => false)).length

/-- Write a sector of global memory for an engine of a team (R142, R187, R191, R193, R268, R269): like ST, in held lines, against the
quota and the ways of its set; for the shadow of a region of another part in a sprayed packet of the transfer `xfer` (R360). `addr` gives the sectors'
addresses. A write with PUB outside every region is refused as the page's protection refuses one (log 92). -/
def State.engineWrite (s : State) (t : Team) (xfer : Nat) (addr : Nat → Nat) (k : Nat) (pub : Bool) (m : Image) (bs : List Byte) : Moved :=
  let va : Dword := BitVec.ofNat 64 (addr k)
  match s.translate t.ctx va .write with
  | .fault => .fault 0x04 1 va s
  | .deny => .fault 0x05 0x04 va s
  | .replay => .wait (s.recordFault t.ctx (pageOf va) .write)
  | .ok l =>
    if s.meterRefuses l m.meas then .fault 0x05 0x0C va s else
    let at_ : Option (Nat × Bool) :=
      if l.part ≠ s.part then (if pub && l.pub.isNone then none else some (l.pa, false))
      else if pub then s.shadow t.ctx l.pa else some (s.placeFor t.ctx l.pa, false)
    match at_ with
    | none => .fault 0x05 0x04 va s
    | some (_, true) => .wait s
    | some (pa, false) =>
      let q := l.part * 2 ^ 44 + pa / 256
      let ask := if t.committed then Quota.ok else s.quotaOne t m.hold m.strict 0 l q
      let s' := match ask with
        | .commit => s.commit t.uid
        | .ok => if t.committed then some s else some (s.countLineOn t.uid q)
        | _ => none
      match ask, s' with
      | .trap _ d, _ => .fault 0x13 d va s
      | _, none => .wait s
      | _, some s' =>
        if l.part ≠ s.part then
          if pub then .landed (s'.spray 0x08 t.core t.uid t.ctx l.part pa (s.sprayNumber t.ctx addr l k) (sprayHead 1 xfer ++ bs)) else
          match s'.combine t.core t.uid t.ctx l.part l.pa bs none (s.marksCut t.ctx t.core) with
          | some s'' => .landed s''
          | none => .wait s
        else if (s.queueing? l.pa).isSome then .wait s else
          match (s'.meet t.ctx t.core (s.marksCut t.ctx t.core) true pa).bind (fun s => s.storeHome t.uid t.ctx (cellsAt pa bs)) with
          | some s'' => .landed s''
          | none => .wait s

/-- An engine's bytes of a line of another part are performed there before it writes another line, so that its sectors land in ascending address order
(R187): the entry drains, and its answer has come, or the team holds it. True when nothing is left. -/
def State.settleFar (s : State) (t : Team) (va : Nat) : State × Bool :=
  match s.translate t.ctx (BitVec.ofNat 64 va) .write with
  | .ok l =>
    if l.part = s.part then (s, true) else
    let mine := fun (e : WcEntry) => e.core == t.core && e.team == t.uid && e.part == l.part && e.line == l.pa / 256
    let s := match s.wc.find? mine with | some e => (s.drain e).getD s | none => s
    (s, !(s.wc.any mine) && !(s.reqs.any (fun r => (r.wc.map mine).getD false ||
      (r.team == t.uid && r.part == l.part && r.pkt.kind == 0x08 && r.pkt.key / 256 == l.pa / 256))))
  | _ => (s, true)

/-- Before a sector is written, or the transfer has ended, the line of the sector before it is settled where it is another one (R187, R191). -/
def State.settled (s : State) (t : Team) (addr : Nat → Nat) (k n : Nat) : State × Bool :=
  if k = 0 ∨ (k < n ∧ addr (k - 1) / 256 = addr k / 256) then (s, true) else s.settleFar t (addr (k - 1))

/-- Move one sector of a slice (R187, R191). -/
def State.moveSector (s : State) (t : Team) (m : Image) (sl : Slice) (k : Nat) : Moved :=
  let land := fun (s : State) (bs : List Byte) => Moved.landed (s.onTeam t.uid (fun t => { t with scratch := Memory.write t.scratch (sl.soff k) bs }))
  match sl.dir with
  | 0 => match s.engineRead t sl k m with | .error r => r | .ok (s, bs) => land s bs
  | 1 =>
    match s.settled t sl.gaddr k sl.sectors with
    | (s, false) => .wait s
    | (s, true) => s.engineSource t (sl.soff k) (fun bs => s.engineWrite t sl.xfer sl.gaddr k sl.pub m bs)
  | _ => s.engineSource t (sl.gaddr k) (fun bs => land s bs)

/-- Move sectors from `k` until one does not land; the number landed and how it ended. -/
def State.moveFrom (s : State) (team : Nat) (sl : Slice) : Nat → Nat → Nat × Moved
  | 0, k => (k, .landed s)
  | n + 1, k =>
    match s.team? team with
    | none => (k, .gone s)
    | some t =>
      match s.imageOf t with
      | none => (k, .gone s)
      | some m =>
        match s.moveSector t m sl k with
        | .landed s' => s'.moveFrom team sl n (k + 1)
        | r => (k, r)

/-- The destination lines of a slice that have all their covered sectors become present, and a line covered wholly is no longer
uncorrectable (R270); when it stops, the others become absent and not pending (R187, R191). -/
def Team.settleLines (t : Team) (n grp : Nat) (sl : Slice) (stopped : Bool) : Team :=
  let rest := sl.linesFrom sl.soff sl.landed
  let mine := fun (a : AbsentLine) => a.pending && a.owner == .copy n grp
  { t with bad := t.bad.filter (fun l => !(sl.whole.contains l && !(rest.contains l))), absent := (t.absent.filter (fun a => !(mine a && !(rest.contains a.line)))).map (fun a =>
      if stopped && mine a then { a with pending := false, why := 2 } else a) }

/-- Update the slice of a group. -/
def TeamCopy.onSlice (c : TeamCopy) (grp : Nat) (f : Slice → Slice) : TeamCopy :=
  { c with slices := c.slices.map (fun x => if x.grp = grp then f x else x) }

/-- A slice ends: its completion record, and for a fault the trap in its group (R186, R191). -/
def State.endSlice (s : State) (team n : Nat) (sl : Slice) (fault : Bool) (cause detail : Nat) (tval : Dword) : State :=
  let s := s.onTeam team (fun t => t.settleLines n sl.grp sl fault)
  let s := s.writeComp team sl.comp fault cause (32 * sl.landed) 0 0
  let s := if fault then s.pend team sl.grp ⟨cause, detail, 0, false, some sl.pc, tval, none, none⟩ else s
  s.onCopy team n (fun c => c.onSlice sl.grp (fun x => { x with ended := true, fault := fault, cause := cause, landed := sl.landed }))

/-- The pieces of some bytes of a row, cut at multiples of 2,048 so that none crosses a page, as addresses and sizes. -/
def rowPieces (a n : Nat) : List (Nat × Nat) :=
  (List.range ((a + n + 2047) / 2048 - a / 2048)).map (fun j =>
    let lo := max a ((a / 2048 + j) * 2048)
    (lo, min (a + n) ((a / 2048 + j + 1) * 2048) - lo))

/-- Ask another part for the rows of a slice that lie there, in numbered sprayed loads of its transfer (R360; log 19). -/
def State.askRows (s : State) (t : Team) (sl : Slice) : State :=
  ((((List.range (sl.w 4)).map (fun r => rowPieces ((sl.w 0 + 2 ^ 32 * sl.w 1 + r * sl.w 5) % 2 ^ 64) (sl.w 3))).flatten).foldl
    (fun (x : State × List (Nat × Nat)) (p : Nat × Nat) =>
      match x.1.translate t.ctx (BitVec.ofNat 64 p.1) .read with
      | .ok l =>
        if l.part = s.part then x else
        let home := l.part * 8 + homeDie l.pa
        let seq := lookupD home 0 x.2
        (x.1.spray 1 t.core t.uid t.ctx l.part l.pa seq (leBytes 2 p.2 ++ leBytes 8 sl.xfer ++ s.measOf t.uid), putKey home (seq + 1) x.2)
      | _ => x) (s, [])).1

/-- The completion record of an engine waits until the engine has read the lines of an ACCESSION (R209). -/
def State.compWaits (s : State) (team : Nat) (comp : Option Nat) : Bool := (comp.map (fun c => s.accessionMeets team c 16)).getD false

/-- Run one slice as far as it goes: its last sectors at another part are performed there before it ends (R191), and a refusal there has stopped it
(R370). -/
def State.runSlice (s : State) (team n : Nat) (sl : Slice) : State × Bool :=
  if s.compWaits team sl.comp then (s, false) else
  if sl.fault then (s.endSlice team n sl true sl.cause 0x04 sl.fval, true) else
  let (k, r) := s.moveFrom team sl (sl.sectors - sl.landed) sl.landed
  let r := match r, (r.landedState.bind (fun s => s.team? team)) with
    | .landed s', some t => if sl.dir = 1 then (match s'.settled t sl.gaddr k k with | (s'', true) => Moved.landed s'' | (s'', false) => .wait s'') else r
    | _, _ => r
  let sl' := { sl with landed := k }
  match r with
  | .landed s' => (s'.endSlice team n sl' false 0 0 0, true)
  | .fault c d v s' => (s'.endSlice team n sl' true c d v, true)
  | .gone s' => (s', false)
  | .wait s' =>
    let s' := match s'.team? team with
      | some t => if sl.dir = 0 && !sl.asked then s'.askRows t sl else s'
      | none => s'
    ((s'.onTeam team (fun t => t.settleLines n sl.grp sl' false)).onCopy team n
      (fun c => c.onSlice sl.grp (fun x => { x with landed := k, asked := true })), false)

/-- Run the slices of a team copy in ascending group index (R191). -/
def State.runSlices (s : State) (team n : Nat) : List Slice → State × Bool
  | [] => (s, true)
  | sl :: rest =>
    if sl.ended then s.runSlices team n rest else
    match s.runSlice team n sl with
    | (s', true) => s'.runSlices team n rest
    | (s', false) => (s', false)

/-- Engine work of a twin goes on unless its cut is not complete (R344). -/
def State.engineRuns (s : State) (team : Nat) : Bool :=
  match s.twinNum? (s.ctxOf team) with
  | some w => w.state != .cutting
  | none => true

/-- TEAM_COPY_END (R191): the engine moves the slices; when all have ended, the transfer unit arrives on each named barrier. The team's earlier copies
have ended (log 96). -/
def execTeamCopyEnd (team n : Nat) (s : State) : Outcome State Fault Refusal :=
  match s.teamCopy? team n with
  | none => nothing
  | some c =>
    if !c.started || !(s.engineRuns team) || s.copies.any (fun k => k.team == team && decide (k.n < n)) then nothing else
    match s.runSlices team n (sortBy (fun (x : Slice) => x.grp) c.slices) with
    | (s', true) =>
      let bars := c.slices.foldl (fun acc x => addOnce x.bar acc) []
      let s' := bars.foldl (fun s b => s.unitArrive team b) s'
      .next { s' with copies := s'.copies.filter (fun k => !(k.team == team && k.n == n)) }
    | (s', false) => if s' = s then nothing else .next (if (s'.teamCopy? team n).isSome then s'.owe (.teamCopyEnd team n) else s')

/-- COPY_FAULT (R191): the slice of a group, once its turn has come, stops at a fault. -/
def execCopyFault (team n grp : Nat) (s : State) : Outcome State Fault Refusal :=
  match s.teamCopy? team n with
  | none => nothing
  | some c =>
    if !c.started || !(s.engineRuns team) then nothing else
    match (sortBy (fun (x : Slice) => x.grp) c.slices).find? (fun x => !x.ended) with
    | some sl =>
      if sl.grp ≠ grp || s.compWaits team sl.comp then nothing else
      match s.moveFrom team sl (sl.sectors - sl.landed) sl.landed with
      | (k, .fault cs d v s') => .next (s'.endSlice team n { sl with landed := k } true cs d v)
      | _ => nothing
    | none => nothing

/-! ### PUBLISH (R193-R195) -/

/-- The registered region of a context whose base is an address. -/
def State.region? (s : State) (ctx va : Nat) : Option PubRegion := s.pubs.find? (fun p => p.ctx == ctx && p.va == va)

/-- A twin's publishable regions are its original's. -/
def State.pubCtx (s : State) (ctx : Nat) : Nat := ((s.ctx? ctx).bind (fun c => c.twinOf)).getD ctx

/-- A word of a collective's descriptor (R215). -/
def CollOp.w (c : CollOp) (k : Nat) : Nat := (getAt c.words k 0).toNat

/-- DST of a collective. -/
def CollOp.dst (c : CollOp) : Nat := c.w 2 + 2 ^ 32 * c.w 3

/-- The bytes that each participant supplies. -/
def CollOp.sourceBytes (c : CollOp) : Nat := if c.kind = 3 then c.w 6 * c.w 4 else c.w 4

/-- The bytes that each participant receives. -/
def CollOp.destBytes (c : CollOp) : Nat := if c.kind = 4 then c.w 6 * c.w 4 else c.w 4

/-- The engine writes of a team to a region's shadow that have been issued and have not landed (R193, R194): slices, by team copy and
group, and collectives, by their number. -/
def State.shadowWrites (s : State) (team : Nat) (p : PubRegion) : List (Nat × Nat) × List Nat :=
  let hits := fun (va : Nat) => decide (p.va ≤ va ∧ va < p.va + p.bytes)
  (((s.copies.filter (fun c => c.team == team)).map (fun c => (c.slices.filter (fun sl => !sl.ended && sl.pub && sl.w 3 != 0 &&
      (List.range sl.sectors).any (fun k => hits (sl.gaddr k)))).map (fun sl => (c.n, sl.grp)))).flatten,
   (s.colls.filter (fun o => o.team == team && o.landed.isNone && decide (o.dst < p.va + p.bytes ∧ p.va < o.dst + o.destBytes))).map (fun o => o.id))

/-- PUBLISH (R194): a release at system scope that commits the team; the group waits for the exchange. -/
def execPublish (g : Guard) (a : RegField) (s : State) : Outcome State Fault Refusal :=
  issued s true (fun _ => [.srcStrict a 2]) true (fun i =>
    if i.effect g = 0 then i.skip s else
    let va := i.pair a (i.first g)
    match s.region? (s.pubCtx i.team.ctx) va.toNat with
    | none => i.raise (Trap.access 0x08 va.toNat) s
    | some p =>
      if i.image.strict && !i.team.committed then i.raise ⟨0x13, 0x01, va⟩ s else
      i.after (s.releaseWait i 6) (fun s =>
        match s.commit i.cur.team with
        | none => i.stall 6 s
        | some s =>
          let before := s.shadowWrites i.cur.team p
          i.retire (fun gr => { gr with wait := .publish p.va before.1 before.2 }) (s.owe (.publishExchange i.cur.team i.cur.grp))))

/-- PUBLISH in flight at the cut completes in both views, once: an exchange made before the cut of the region's home is in the twin's view
already, so the twin's copy of the group waits no more (R344). -/
def State.endTwinPublish (s : State) (t : Team) (grp : Nat) (p : PubRegion) : State :=
  match s.twinOf? t.ctx with
  | some w =>
    match w.teams.find? (fun x => x.1 == t.uid) with
    | some x => if w.cutHomes.contains (homeDie p.pa) then s else
        s.onGroup x.2 grp (fun g => match g.wait with | .publish base _ _ => if base = p.va then { g with wait := .none } else g | _ => g)
    | none => s
  | none => s

/-- PUBLISH_EXCHANGE (R194): with the shadow complete and no background copy running, the copies exchange in one step, in the view of the
team's context (R346). The exchange of a group that carries the cut mark cuts the region's home first (R341). -/
def execPublishExchange (team grp : Nat) (s : State) : Outcome State Fault Refusal :=
  match s.team? team, s.group? team grp with
  | some t, some g =>
    match g.wait with
    | .publish base slices colls =>
      match s.region? (s.pubCtx t.ctx) base with
      | some p =>
        let now := s.shadowWrites team p
        if (s.selOf t.ctx p).2 || now.1.any slices.contains || now.2.any colls.contains || !(s.runs t.ctx) then nothing else
        let s := match s.twinOf? t.ctx with
          | some w => if s.marksCut t.ctx g.core then s.cutHome w.num (homeDie p.pa) else s
          | none => s
        let s := (s.endTwinPublish t grp p).setSel t.ctx p (!(s.selOf t.ctx p).1) true
        .next ((s.onGroup team grp (fun g => { g with wait := .none })).owe (.publishBackgroundCopy t.ctx base))
      | none => nothing
    | _ => nothing
  | _, _ => nothing

/-- The cells of a range of memory in a context's view (R342, R346). -/
def State.viewCells (s : State) (ctx lo n : Nat) : List Cell :=
  let inside := fun (c : Cell) => decide (lo ≤ c.1 ∧ c.1 < lo + n)
  match s.twinNum? ctx with
  | none => s.mem.filter inside
  | some w => s.mem.filter (fun c => inside c && !(w.overlay.any (fun o => o.line == c.1 / 256))) ++
      (w.overlay.map (fun o => o.cells.filter inside)).flatten

/-- PUBLISH_BACKGROUND_COPY (R195): the new visible copy is copied into the new shadow. -/
def execPublishBackgroundCopy (ctx base : Nat) (s : State) : Outcome State Fault Refusal :=
  match s.region? (s.pubCtx ctx) base with
  | some p =>
    let (sel, copying) := s.selOf ctx p
    if !copying then nothing else
    let cells := ((List.range (p.bytes / 65536)).map (fun k =>
      let vis := s.moved (p.half sel (k * 65536))
      let sh := s.moved (p.half (!sel) (k * 65536))
      (s.viewCells ctx sh 65536).map (fun c => (c.1, Config.emptyByte)) ++
        (s.viewCells ctx vis 65536).map (fun c => (c.1 - vis + sh, c.2)))).flatten
    match s.putHome ctx cells with
    | none => nothing
    | some s => .next (s.setSel ctx p sel false)
  | none => nothing

/-! ### MCAST (R196-R199) -/

/-- The team of the sender's gang that a gang-relative index names, as a linear index (R197). -/
def Issue.gangTeam (i : Issue) (n : Nat) : Option Nat :=
  ((i.launch.order i.image)[i.team.gang]?).bind (fun g => g[n]?)

/-- The fields of a send record are as R196 says. -/
def sendOk (r : List Word) : Bool :=
  let w := fun k => (getAt r k (0 : Word)).toNat
  decide (w 0 % 32 = 0 ∧ w 1 % 32 = 0 ∧ 32 ≤ w 2 ∧ w 2 ≤ 65536 ∧ w 2 % 32 = 0 ∧ w 3 % 32 = 0 ∧ w 4 < 16 ∧ w 5 = 0 ∧ w 6 = 0 ∧ w 7 = 0)

/-- The bits of a mask, ascending. -/
def maskBits (w : Word) : List Nat := (List.range 32).filter (fun n => w.getLsbD n)

/-- Rows 3 to 5 of R198. -/
def Issue.sendStop (i : Issue) (mask : Word) (r : List Word) : Option Stop :=
  let w := fun k => (getAt r k (0 : Word)).toNat
  let bits := maskBits mask
  ((bits.find? (fun n => (i.gangTeam (w 3 + n)).isNone)).map (fun n => Stop.trap ⟨0x09, n, 0⟩)).orElse (fun _ =>
  (if i.image.det && bits.any (fun n => i.gangTeam (w 3 + n) != some i.team.tlin) then some (Stop.trap ⟨0x0A, 0, 0⟩) else none).orElse (fun _ =>
  if i.image.scratch < w 0 + w 2 then some (.trap (Trap.access 0x03 (w 0))) else
    ((linesOf (w 0) (w 2)).find? i.team.isUnfilled).map (fun l => .trap (Trap.unfilled (l * 256)))))

/-- A send waits for the slices that read or write its source, or its bytes in its own team (R191). -/
def Issue.sendWaits (i : Issue) (s : State) (mask : Word) (r : List Word) : Bool :=
  let w := fun k => (getAt r k (0 : Word)).toNat
  s.sliceMeets i.cur.team (w 0) (w 2) ||
    ((maskBits mask).any (fun n => i.gangTeam (w 3 + n) == some i.team.tlin) && s.sliceMeets i.cur.team (w 1) (w 2))

/-- MCAST (R196-R199). -/
def execMcast (g : Guard) (d a : RegField) (b : BitVec 4) (s : State) : Outcome State Fault Refusal :=
  issued s true (fun _ => [.rw d 1, .srcStrict a 2]) true (fun i =>
    if i.effect g = 0 then i.skip s else
    let l := i.first g
    let off := (i.regAt a 0 l).toNat
    let comp := compOf (i.regAt a 1 l)
    let mask := i.regAt d 0 l
    i.unless s (i.recordStop s (engineRecords off 32 32 comp)) (i.unless s (i.barStop b.toNat)
      (i.reading s off 32 (fun r =>
       let w := fun k => (getAt r k (0 : Word)).toNat
       if !(sendOk r) then i.raise (Trap.illegal 0x18) s else
       i.unless s (i.sendStop mask r)
         (if i.sendWaits s mask r then i.stall 6 s else
          let x : Send := ⟨s.nextId, i.cur.team, i.cur.grp, b.toNat, comp, w 0, w 1, w 2, w 3, w 4, maskBits mask, 0, 0⟩
          i.retire id { s with nextId := s.nextId + 1, sends := s.sends ++ [x],
                               due := s.due ++ (maskBits mask).map (fun n => Instr.mcastReceipt x.id n) ++ [Instr.mcastSendEnd x.id] })))))

/-- The receiver of a bit of a send, when its team is running (R197, R199). -/
def State.receiver? (s : State) (t : Team) (n : Nat) : Option Team :=
  match s.launch? t.launch, s.imageOf t with
  | some l, some m =>
    match ((l.order m)[t.gang]?).bind (fun g => g[n]?) with
    | some tlin => s.teams.find? (fun u => u.launch == t.launch && u.tlin == tlin && !u.ended)
    | none => none
  | _, _ => none

/-- A receiver refuses the whole send (R199). -/
def State.refuses (s : State) (x : Send) (r : Team) : Bool :=
  (linesOf x.doff x.bytes).any r.isPending || (r.bar x.rbar).expected == 0 ||
    ((s.imageOf r).map (fun m => decide (m.scratch < x.doff + x.bytes))).getD true

/-- The twin's copy of a receiver that has been captured, where the sender has not: the send was issued before the cut, so it reaches both
(R344). -/
def State.cutReceiver (s : State) (t r : Team) : List Nat :=
  if s.marksCut t.ctx t.core then [] else
  match s.twinOf? t.ctx with
  | some w => if w.state = .cutting then (w.teams.filter (fun p => p.1 == r.uid)).map (fun p => p.2) else []
  | none => []

/-- MCAST_RECEIPT (R199, R209, R341, R344): the lowest bit left reaches its receiver, which takes the whole send or refuses it. -/
def execMcastReceipt (send bit : Nat) (s : State) : Outcome State Fault Refusal :=
  match s.sends.find? (fun x => x.id == send) with
  | none => nothing
  | some x =>
    match s.team? x.team with
    | none => nothing
    | some t =>
      let src := linesOf x.soff x.bytes
      if x.left.head? ≠ some bit ∨ !(s.engineRuns x.team) ∨ src.any t.isPending ∨ src.any t.isUnfilled then nothing else
      let onSend := fun (s : State) (f : Send → Send) => { s with sends := s.sends.map (fun y => if y.id = send then f y else y) }
      let word : Word := BitVec.ofNat 32 (2 ^ bit)
      match s.receiver? t (x.base + bit) with
      | none => .next (onSend s (fun y => { y with left := y.left.drop 1, refused := y.refused ||| word }))
      | some r =>
        if s.refuses x r then .next (onSend s (fun y => { y with left := y.left.drop 1, refused := y.refused ||| word })) else
        if s.accessionMeets r.uid x.doff x.bytes then nothing else
        match src.find? t.bad.contains with
        | some k => .next (s.deliverE t.uid 0 (BitVec.ofNat 64 k))
        | none =>
          let bs := Memory.read t.scratch x.soff x.bytes
          -- what a core that has cut sends makes the receiver's core cut first, and is the original's alone (R341)
          match (if s.marksCut t.ctx t.core then s.cutFirst t.ctx r.core else some s) with
          | none => nothing
          | some s =>
            let s := (r.uid :: s.cutReceiver t r).foldl (fun s u => (s.onTeam u (fun r => r.landBytes x.doff bs)).unitArrive u x.rbar) s
            .next (onSend s (fun y => { y with left := y.left.drop 1, delivered := y.delivered ||| word }))

/-- Bits set in a word. -/
def bitCount (w : Word) : Nat := (maskBits w).length

/-- MCAST_SEND_END (R199): the completion record, then the arrival on the sender's barrier; a source line left unfilled stops the send with LAPSE.
DONE_BYTES counts the bytes once for each receiver (log 97). -/
def execMcastSendEnd (send : Nat) (s : State) : Outcome State Fault Refusal :=
  match s.sends.find? (fun x => x.id == send) with
  | none => nothing
  | some x =>
    match s.team? x.team with
    | none => nothing
    | some t =>
      let lapsed := (linesOf x.soff x.bytes).find? t.isUnfilled
      let fault := !x.left.isEmpty && lapsed.isSome
      if !x.left.isEmpty && !fault || !(s.engineRuns x.team) || s.compWaits x.team x.comp then nothing else
      let left : Word := BitVec.ofNat 32 (sumOf (x.left.map (fun n => 2 ^ n)))
      let s := s.writeComp x.team x.comp fault (if fault then 0x0B else 0) (x.bytes * bitCount x.delivered) (x.refused ||| left).toNat x.delivered.toNat
      let s := if fault then
          let l := lapsed.getD 0
          let why := ((t.absentLine? l).map (fun a => a.why)).getD 0
          s.pend x.team x.grp ⟨0x0B, why, 0, false, none, if why = 2 then 0 else ((t.absentLine? l).map (fun a => a.name)).getD 0, none, none⟩
        else s
      .next { (s.unitArrive x.team x.bar) with sends := s.sends.filter (fun y => y.id != send) }

end Sys2Proof.Machine
end

