-- ==== Sys2Proof/Machine/Routers.lean ====
section
/-!
DEFINITION. The routers of named tiles (hubs, leaf and spine switches): catalogues, pending interests, holdings, tile data and
lapse notices (R359, R373-R376, R391, R409).
-/
namespace Sys2Proof.Machine

open Host (Outcome)

/-! ### Names and routers -/

/-- KEY of a named packet (R358). -/
def TileName.key (n : TileName) : Nat := n.tensor.toNat + 2 ^ 32 * n.tile.toNat

/-- The 80-bit name as the key of a path (R359). -/
def TileName.pathKey (n : TileName) : Nat := n.key + 2 ^ 64 * n.iter.toNat

/-- The tensor id and tile index as sr.tval holds them (R208). -/
def TileName.tval (n : TileName) : Dword := n.tile ++ n.tensor

/-- The name that a packet carries (R358). -/
def packetName (p : Packet) : TileName :=
  ⟨BitVec.ofNat 32 p.key, BitVec.ofNat 32 (p.key / 2 ^ 32), BitVec.ofNat 16 p.aux⟩

/-- A router; one that nothing has reached yet is empty. -/
def State.router (s : State) (r : Router) : RouterSt := (s.routers.find? (fun x => x.router == r)).getD ⟨r, [], [], [], []⟩

/-- Update one router. -/
def State.onRouter (s : State) (r : Router) (f : RouterSt → RouterSt) : State :=
  if s.routers.any (fun x => x.router == r) then
    { s with routers := s.routers.map (fun x => if x.router = r then f x else x) }
  else { s with routers := f ⟨r, [], [], [], []⟩ :: s.routers }

/-- The router is a hub. -/
def isHub : Router → Bool
  | .hub _ => true
  | _ => false

/-- The die of a hub. -/
def routerDie : Router → Nat
  | .hub d => d
  | _ => 0

/-- The plane of a switch. -/
def routerPlane : Router → Nat
  | .hub _ => 0
  | .leaf p _ => p
  | .spine p _ => p

/-- A router that a domain has (R356), a hub by its die. -/
def routerOk : Router → Bool
  | .hub d => decide (d < 8)
  | .leaf p n => decide (p < 36 ∧ n < 64)
  | .spine p n => decide (p < 36 ∧ n < 32)

/-- A face that a router has: a port of a part or of a switch (R356). -/
def faceOk (r : Router) : Face → Bool
  | .port p => decide (p < if isHub r then 36 else 128)
  | _ => isHub r

/-- The port by which a packet to a part leaves a router (R356, R359), `h` being the hash of its destination and key: a part's port of its plane; at a
leaf the part's down port, or one of the two links up to the spine that the hash gives; at a spine one of the two links down to the part's leaf. The
order of those links is the model's (log 111). -/
def portTo (r : Router) (plane part h : Nat) : Nat :=
  match r with
  | .hub _ => plane
  | .leaf _ n => if part / 64 = n then part % 64 else 64 + 2 * (h / 64 % 32) + h / 2048 % 2
  | .spine _ _ => 2 * (part / 64) + h / 2048 % 2

/-- PLEN of a catalogue entry (R373). -/
def planLen (v : BitVec 128) : Nat := (v.extractLsb' 26 6).toNat

/-- The entry matches a tensor id (R373). -/
def entryMatches (v : BitVec 128) (tensor : Word) : Bool :=
  v.getLsbD 8 && decide (planLen v ≤ 32) && (v.extractLsb' 24 2) != 3#2 &&
    decide (tensor.toNat / 2 ^ (32 - planLen v) = (v.extractLsb' 32 32).toNat / 2 ^ (32 - planLen v))

/-- The longest matching entry (R373). -/
def longestOf : List (Nat × BitVec 128) → Option (BitVec 128)
  | [] => none
  | (_, v) :: es =>
    match longestOf es with
    | some w => some (if planLen w ≤ planLen v then v else w)
    | none => some v

/-- A catalogue lookup (R373). -/
def RouterSt.lookup (r : RouterSt) (tensor : Word) : Option (BitVec 128) :=
  longestOf (r.catalogue.filter (fun e => entryMatches e.2 tensor))

/-- Pending entries of a router (R374). -/
def maxPending (r : Router) : Nat := if isHub r then 16384 else 65536

/-- Tiles that a router's holdings hold (R375). -/
def maxHoldings (r : Router) : Nat := if isHub r then 1024 else 32768

/-! ### Slips that end, and tiles that reach them -/

/-- A slip's lines that are still pending under it. -/
def Team.slipLines (t : Team) (id : Nat) : List Nat :=
  (t.absent.filter (fun a => a.pending && a.owner == .slip id)).map (fun a => a.line)

/-- End a slip (R208, R210): its lines become absent and not pending, and the groups parked on them take a trap. -/
def State.endSlip (s : State) (x : Slip) (cause detail why : Nat) : State :=
  let s := s.onTeam x.team (fun t =>
    let ls := t.slipLines x.id
    { t with
      absent := t.absent.map (fun a => if a.pending ∧ a.owner = .slip x.id then { a with pending := false, why := why } else a)
      groups := t.groups.map (fun g => if g.lineWait.any (fun l => ls.contains l) then
        { g with lapse := some (cause, detail, x.name.tval, g.lastExec) } else g) })
  { s with slips := s.slips.filter (fun y => y.id != x.id) }

/-- The measurement of the launch whose slip this is (R374). -/
def State.slipMeas (s : State) (x : Slip) : List Byte :=
  (((s.team? x.team).bind s.imageOf).map (fun m => m.meas)).getD []

/-- A lapse notice at the issuing hub ends the slips of its name; one with REFUSED those of the measurement it carries (R376). -/
def State.endSlips (s : State) (die : Nat) (name : TileName) (refused : Option (List Byte)) : State :=
  let mine := s.slips.filter (fun x => x.die == die && x.name == name && x.data.isNone &&
    (match refused with | some m => s.slipMeas x == m | none => true))
  mine.foldl (fun s x => match refused with
    | some _ => s.endSlip x 0x05 0x0C 3
    | none => s.endSlip x 0x0B 0 0) s

/-- A tile has reached a slip, and a twin's copy of it (R344): its delivery is owed. -/
def State.giveTile (s : State) (id : Nat) (data : List Byte) : State :=
  let ids := id :: (s.twins.map (fun w => (w.pairs.filter (fun p => p.1 == id)).map (fun p => p.2))).flatten
  { s with slips := s.slips.map (fun x => if ids.contains x.id ∧ x.data = none then { x with data := some data } else x)
           due := s.due ++ ((s.slips.filter (fun x => ids.contains x.id && x.data.isNone)).map (fun x => Instr.tileDelivery x.id)) }

/-! ### Tile data and holdings (R280, R375) -/

/-- Tiles that the part of a router's holdings holds which a slice owns: a hub's are divided as the ways of its die are (R280). -/
def State.holdShare (s : State) (r : Router) (slice : Nat) : Nat :=
  if isHub r then maxHoldings r * s.sliceWays slice (routerDie r) / 16 else maxHoldings r

/-- Put a tile in a slice's part of a router's holdings, its least recently used one going when that is full (R280, R375). -/
def State.holdTile (s : State) (r : Router) (slice : Nat) (name : TileName) (data : List Byte) : State :=
  let slice := if isHub r then slice else 0
  let room := s.holdShare r slice
  if room = 0 then s else
  let s := if isHub r then s.countUse 6 (routerDie r) 16 else s
  s.onRouter r (fun x =>
    let top := maxOf (x.holdings.map (fun (h : Holding) => h.used))
    let mine := sortBy (fun (h : Holding) => h.used) (x.holdings.filter (fun (h : Holding) => h.slice == slice))
    let kept := if mine.length < room then x.holdings else x.holdings.filter (fun (h : Holding) => mine.head? != some h)
    { x with holdings := ⟨name, data, top + 1, slice⟩ :: kept })

/-- The slice on a die to whose part of the holdings a tile belongs that no slip of this part has asked for: the lowest there. -/
def State.lowestOwner (s : State) (die : Nat) : Nat := ((s.dieOwners die).head?).getD 0

/-- The holdings of the hubs once the slice table has changed from what it was in `old` (R281): a part that has changed owner is zeroed, and
of a slice's tiles those used last stay as far as the part that it keeps holds them (log 67). -/
def State.rehold (s old : State) : State :=
  { s with routers := s.routers.map (fun (q : RouterSt) => match q.router with
      | .hub d =>
        let left := fun (n : Nat) =>
          let lo := max (old.waysBelow n d) (s.waysBelow n d)
          let hi := min (old.waysBelow n d + old.sliceWays n d) (s.waysBelow n d + s.sliceWays n d)
          maxHoldings q.router * (hi - lo) / 16
        { q with holdings := ((List.range 8).map (fun n =>
          ((sortBy (fun (h : Holding) => h.used) (q.holdings.filter (fun h => h.slice == n))).reverse).take (left n))).flatten }
      | _ => q) }

/-- Whether R375 writes a tile that passes a router into its holdings. -/
def State.keepsTile (s : State) (r : Router) (noHold : Bool) : Bool := !noHold && !(isHub r && s.spent 6 (routerDie r))

/-- The pending entries of a name at a router that tile data answers: those of one measurement when the data answers one (log 15). -/
def answered (name : TileName) (meas : Option (List Byte)) (p : Pending) : Bool :=
  p.name == name && (match meas with | some m => p.meas == m | none => true)

/-- A named packet that leaves a router by a port (R358, R359): a part's hub sends it on the plane of that port, a switch on its own plane. -/
def State.sendNamed (s : State) (ctx kind : Nat) (r : Router) (port : Nat) (src : Nat × Nat) (name : TileName) (dst : Nat × Nat) (noHold : Bool)
    (rid : Nat) (refused : Bool) (payload : List Byte) : State :=
  let p : Packet := { kind := kind, noHold := noHold, srcPart := src.1, srcDie := src.2, dstPart := dst.1, dstDie := dst.2, ctx := ctx,
                      plane := if isHub r then port else routerPlane r, rid := rid, key := name.key,
                      aux := name.iter.toNat + (if refused then 65536 else 0), payload := payload }
  if isHub r then s.sendPacket ctx p else s.send (.relay r port p)

/-- A tile leaves a router by a port, as 16 packets of 256 bytes in ascending address order (R375), numbered in RID, each with the measurement that the
tile answers where there is one (log 15). -/
def State.sendTile (s : State) (r : Router) (port : Nat) (src : Nat × Nat) (name : TileName) (dst : Nat × Nat) (noHold : Bool)
    (data meas : List Byte) : State :=
  (List.range 16).foldl (fun s k => s.sendNamed 0 0x0A r port src name dst noHold k false ((data.drop (256 * k)).take 256 ++ meas)) s

/-- The part and die whose interest came by a port of an entry. -/
def Pending.asker (e : Pending) (port : Nat) : Nat × Nat := lookupD port (0, 0) e.askers

/-- The faces of some entries, each once with whom it leads to: slips, then dies and ports in ascending order (R372). -/
def facesOf (es : List Pending) : List (Face × Nat × Nat) :=
  let rank := fun (f : Face) => match f with | .slip _ => 0 | .die d => 1 + d | .port p => 16 + p
  let all := (es.map (fun e => e.faces.map (fun f => (f, match f with | .port p => e.asker p | _ => (0, 0))))).flatten
  sortBy (fun (x : Face × Nat × Nat) => rank x.1) (all.foldl (fun acc x => if acc.any (fun y => y.1 == x.1) then acc else acc ++ [x]) [])

/-- Tile data at a router (R375, R376): it is written into the holdings, in the part of the slice that first asked for it or else of `own`, and
goes out on every face of the entries it answers; `src` is the part and die that it comes from. -/
def State.tileAt (s : State) (src : Nat × Nat) (name : TileName) (data : List Byte) (noHold : Bool) (meas : Option (List Byte)) (keep : Bool) (own : Nat) :
    Nat → Router → State
  | 0, _ => s
  | n + 1, r =>
    let es := (s.router r).pending.filter (answered name meas)
    let s := if keep && s.keepsTile r noHold then s.holdTile r ((es.findSome? (fun e => e.slice)).getD own) name data else s
    let s := s.onRouter r (fun x => { x with pending := x.pending.filter (fun e => !(answered name meas e)) })
    (facesOf es).foldl (fun s f => match f.1 with
      | .slip id => s.giveTile id data
      | .port p => s.sendTile r p src name f.2 noHold data (meas.getD [])
      | .die d => s.tileAt src name data noHold meas true own n (.hub d)) s

/-! ### Lapse notices (R374, R376) -/

/-- A lapse notice reaches a router (R376): a hub ends its slips of the name, and the entries that it ends send it on. -/
def State.lapseAt (s : State) (name : TileName) (refused : Option (List Byte)) : Nat → Router → State
  | 0, _ => s
  | n + 1, r =>
    let es := (s.router r).pending.filter (answered name refused)
    let s := s.onRouter r (fun x => { x with pending := x.pending.filter (fun e => !(answered name refused e)) })
    let s := if isHub r then s.endSlips (routerDie r) name refused else s
    (facesOf es).foldl (fun s f => match f.1 with
      | .slip _ => s
      | .port p => s.sendNamed 0 0x0B r p (s.part, routerDie r) name f.2 false 0 refused.isSome (refused.getD [])
      | .die d => s.lapseAt name refused n (.hub d)) s

/-- A lapse notice on one face of a router, which leads to a part and die. -/
def State.lapseFace (s : State) (r : Router) (f : Face) (dst : Nat × Nat) (name : TileName) (refused : Option (List Byte)) : State :=
  match f with
  | .slip _ => s.endSlips (routerDie r) name refused
  | .port p => s.sendNamed 0 0x0B r p (s.part, routerDie r) name dst false 0 refused.isSome (refused.getD [])
  | .die d => s.lapseAt name refused 16 (.hub d)

/-! ### Interests (R374, R409) -/

/-- An interest on its way: the name, the measurement, the remaining lifetime, the context of its slip, the slice of that context where
the slip is of this part, and the part and die that it comes from. -/
structure Interest where
  name : TileName
  meas : List Byte
  life : Nat
  ctx : Nat
  slice : Option Nat
  src : Nat × Nat
deriving DecidableEq, Repr

/-- The entry that an interest on a face makes. -/
def Interest.entry (x : Interest) (id : Nat) (f : Face) (dst : Option (Nat × Nat)) : Pending :=
  ⟨id, x.name, x.meas, [f], (match f with | .port p => [(p, x.src)] | _ => []), x.life, dst, x.slice⟩

/-- An interest on a face joins an entry of its name and measurement (R374). -/
def Pending.join (e : Pending) (x : Interest) (f : Face) : Pending :=
  { e with faces := if f ∈ e.faces then e.faces else e.faces ++ [f], expiry := max e.expiry x.life
           askers := match f with | .port p => if f ∈ e.faces then e.askers else e.askers ++ [(p, x.src)] | _ => e.askers }

/-- The slice that owns the stack of a physical address (R280). -/
def State.stackOwner (s : State) (pa : Nat) : Nat :=
  ((s.slices.find? (fun (r : Nat × SliceRow) => r.2.stackSet.getLsbD (pa / 2 ^ 36))).map (fun (r : Nat × SliceRow) => r.1)).getD 0

/-- A memory home answers an entry that it has just made (R374, R409): the allowlist first, then one read of 16 lines. A tile with
a poisoned byte is not read, and lapses (log 21). -/
def State.serveHome (s : State) (r : Router) (x : Interest) (f : Face) (v : BitVec 128) : State :=
  let ntile := (v.extractLsb' 64 12).toNat
  let tiles := (if ntile = 0 then 4096 else ntile) * 256
  if tiles ≤ x.name.tile.toNat then s.lapseFace r f x.src x.name none else
  let pa := (v.extractLsb' 76 40).toNat * 4096 + 4096 * x.name.tile.toNat
  match s.meter? pa with
  | some m =>
    if m.allow.contains x.meas then
      let data := Memory.read s.mem (s.place pa) 4096
      if s.poisoned (s.place pa) 4096 then s.lapseFace r f x.src x.name none else
      let s := s.tap ((List.range 16).map (fun k => ⟨s.part, pa + 256 * k, false, true, none, false⟩))
      let s := s.onRouter r (fun q => { q with pending := x.entry s.nextId f none :: q.pending })
      { s with nextId := s.nextId + 1 }.tileAt (s.part, routerDie r) x.name data true (some x.meas) true (s.stackOwner pa) 16 r
    else s.lapseFace r f x.src x.name (some x.meas)
  | none =>
    if s.poisoned (s.place pa) 4096 then s.lapseFace r f x.src x.name none else
    let data := Memory.read s.mem (s.place pa) 4096
    let s := s.onRouter r (fun q => { q with pending := x.entry s.nextId f none :: q.pending })
    { s with nextId := s.nextId + 1 }.tileAt (s.part, routerDie r) x.name data false (some x.meas) true (s.stackOwner pa) 16 r

/-- A router receives an interest on a face, with a destination when one has been set (R374). A slip of this part is answered from the part of a hub's
holdings that its own slice owns (R280; log 110). -/
def State.interest (s : State) (x : Interest) : Nat → Router → Face → Option (Nat × Nat) → State
  | 0, _, _, _ => s
  | n + 1, r, f, dst =>
    let q := s.router r
    let held := q.holdings.filter (fun h => h.name == x.name && (!(isHub r) || (match x.slice with | some k => h.slice == k | none => true)))
    match held[Config.freePick s.freeTick % max held.length 1]? with
    | some h =>
      let top := maxOf (q.holdings.map (fun k => k.used))
      let s := s.onRouter r (fun q => { q with holdings := q.holdings.map (fun k => if k = h then { k with used := top + 1 } else k) })
      let s := { s with freeTick := s.freeTick + 1 }
      (match f with
       | .slip id => s.giveTile id h.data
       | .port p => s.sendTile r p (s.part, routerDie r) x.name x.src false h.data []
       | .die d => s.tileAt (s.part, routerDie r) x.name h.data false none true h.slice 16 (.hub d))
    | none =>
      if q.pending.any (fun e => e.name == x.name && e.meas == x.meas) then
        s.onRouter r (fun q => { q with pending := q.pending.map (fun e => if e.name = x.name ∧ e.meas = x.meas then e.join x f else e) })
      else
        let ent : Option (BitVec 128) := q.lookup x.name.tensor
        let act : Nat := (ent.map (fun v => (v.extractLsb' 24 2).toNat)).getD 0
        if act == 2 || (ent.isNone && dst.isNone) || decide (maxPending r ≤ q.pending.length) then s.lapseFace r f x.src x.name none else
        match ent, act with
        | some v, 1 => if isHub r then s.serveHome r x f v else s.lapseFace r f x.src x.name none
        | _, _ =>
          let dst : Nat × Nat := match ent with
            | some v => ((v.extractLsb' 12 12).toNat, (v.extractLsb' 9 3).toNat)
            | none => dst.getD (0, 0)
          let s := s.onRouter r (fun q => { q with pending := x.entry s.nextId f (some dst) :: q.pending })
          let s := { s with nextId := s.nextId + 1 }
          if isHub r ∧ dst.1 = s.part then
            if dst.2 = (routerDie r) then s else s.interest x n (.hub dst.2) (.die (routerDie r)) (some dst)
          else
            s.sendNamed x.ctx 0x09 r (portTo r (s.planeOf dst.1 x.name.pathKey) dst.1 (Config.pathHash dst.1 x.name.pathKey)) x.src x.name dst
              false x.life false x.meas

/-! ### A twin's interests (R348) -/

/-- The pending entry of an interest that a twin's slip sends out of the part: the face joins an entry of its name and measurement. -/
def State.twinEntry (s : State) (x : Interest) (die : Nat) (dst : Nat × Nat) (id : Nat) : State :=
  let r := Router.hub die
  if (s.router r).pending.any (fun e => e.name == x.name && e.meas == x.meas) then
    s.onRouter r (fun q => { q with pending := q.pending.map (fun e => if e.name = x.name ∧ e.meas = x.meas then e.join x (.slip id) else e) })
  else { s with nextId := s.nextId + 1 }.onRouter r (fun q => { q with pending := x.entry s.nextId (.slip id) (some dst) :: q.pending })

/-- A memory home serves a twin's slip through the twin's view (R346, R348): the allowlist and the tap apply. -/
def State.serveTwin (s : State) (x : Interest) (slip : Slip) (v : BitVec 128) : State :=
  let ntile := (v.extractLsb' 64 12).toNat
  let pa := (v.extractLsb' 76 40).toNat * 4096 + 4096 * x.name.tile.toNat
  if (if ntile = 0 then 4096 else ntile) * 256 ≤ x.name.tile.toNat ∨ s.poisoned (s.place pa) 4096 then s.endSlip slip 0x0B 0 0 else
  match s.meter? pa with
  | some m =>
    if m.allow.contains x.meas then
      (s.tap ((List.range 16).map (fun k => ⟨s.part, pa + 256 * k, false, true, none, false⟩))).giveTile slip.id (s.viewRead x.ctx pa 4096)
    else s.endSlip slip 0x05 0x0C 3
  | none => s.giveTile slip.id (s.viewRead x.ctx pa 4096)

/-- A twin's slip (R348): only a memory home of the part serves it, without holdings or entries; at the hub of its destination it waits for
its own twin's ACCESSION; an interest that leaves the part waits for RELEASE. -/
def State.twinInterest (s : State) (x : Interest) (slip : Slip) : Nat → Nat → Option (Nat × Nat) → State
  | 0, _, _ => s
  | n + 1, die, dst =>
    let ent : Option (BitVec 128) := (s.router (.hub die)).lookup x.name.tensor
    let act : Nat := (ent.map (fun v => (v.extractLsb' 24 2).toNat)).getD 0
    match ent, act with
    | some v, 1 => s.serveTwin x slip v
    | _, _ =>
      if act = 2 ∨ (ent.isNone ∧ dst.isNone) then s.endSlip slip 0x0B 0 0 else
      let dest : Nat × Nat := match ent with
        | some v => ((v.extractLsb' 12 12).toNat, (v.extractLsb' 9 3).toNat)
        | none => dst.getD (0, 0)
      if dest.1 = s.part then (if dest.2 = die then s else s.twinInterest x slip n dest.2 (some dest)) else
      let s := if s.quarantined x.ctx then s else s.twinEntry x slip.die dest slip.id
      s.sendNamed x.ctx 0x09 (.hub slip.die) (s.planeOf dest.1 x.name.pathKey) x.src x.name dest false x.life false x.meas

/-- A quarantined interest leaves (R348): the slips that still wait for it stand in an entry of their hub. -/
def State.interestLeaves (s : State) (p : Packet) : State :=
  let x : Interest := ⟨packetName p, p.payload, p.rid, p.ctx, some (s.sliceOf p.ctx), (p.srcPart, p.srcDie)⟩
  let waiting := s.slips.filter (fun k => k.die == p.srcDie && k.name == x.name && k.data.isNone &&
    ((s.team? k.team).map (fun t => t.ctx == p.ctx)).getD false)
  (waiting.foldl (fun s k => s.twinEntry x p.srcDie (p.dstPart, p.dstDie) k.id) s).sendPacket 64 p

/-! ### Changing the list of planes (R361) -/

/-- Send a request again with its own id (R363), during a change on its old path; a sprayed one on the plane of the moment (R360). -/
def State.resend (s : State) (r : Req) (count : Bool) : State :=
  let p := { r.pkt with plane := if r.pkt.spray then s.sprayPlane else if s.nextPlanes.isSome then r.pkt.plane else s.planeOf r.part (r.pkt.key / 256 % 2 ^ 44)
                        ackLo := min (s.ackLo r.part r.die) (if r.pkt.spray then s.ackLo r.part r.die else r.pkt.rid) }
  { s with freeTick := if r.pkt.spray then s.freeTick + 1 else s.freeTick
           reqs := s.reqs.map (fun (x : Req) => if x.id = r.id then
      { x with pkt := p, sends := if count then x.sends + 1 else x.sends, busy := false, failed := 0, custody := false } else x) }.send (.packet { p with ctx := p.ctx % 64 })

/-- An entry of a hub whose interest has left the part and is still to be answered. -/
def State.interestOut (s : State) (q : RouterSt) (e : Pending) : Bool :=
  isHub q.router && ((e.dst.map (fun d => d.1 != s.part)).getD false) && !(s.kept.any (fun p => packetName p == e.name && p.payload == e.meas))

/-- Every ordered packet under the old list has been answered, busily or not, or by an error notice: requests by their replies, interests by their
tile or lapse notice. -/
def State.oldAnswered (s : State) : Bool :=
  s.reqs.all (fun r => r.host || r.pkt.spray || r.busy || r.failed != 0) && s.routers.all (fun q => q.pending.all (fun e => !(s.interestOut q e)))

/-- Complete a change of the list once the old packets are answered (R361): what has waited leaves, and requests that met an error notice are sent
again (R363). -/
def State.settlePlanes (s : State) : State :=
  match s.nextPlanes with
  | some l =>
    if s.oldAnswered then
      let waiting := s.kept
      let s := { s with planes := l, nextPlanes := none, kept := [] }
      let s := waiting.foldl (fun s p => s.sendPacket 64 { p with plane := s.planeOf p.dstPart (packetName p).pathKey }) s
      (s.reqs.filter (fun r => r.failed != 0 && decide (r.sends < 4))).foldl (fun s r => s.resend r true) s
    else s
  | none => s

/-! ### Events -/

/-- A packet as the fabric carries it (R357, R358): at most 4,064 bytes follow its header, and its numbers fit their fields. -/
def fabricOk (p : Packet) : Bool :=
  decide (p.payload.length ≤ 4064 ∧ p.srcPart < 4096 ∧ p.srcDie < 8 ∧ p.dstPart < 4096 ∧ p.dstDie < 8 ∧ p.ctx < 64 ∧ p.plane < 36 ∧ p.rid < 2 ^ 32 ∧
    p.key < 2 ^ 64 ∧ p.ackLo < 2 ^ 32 ∧ p.aux < 2 ^ 32)

/-- INTEREST_PACKET (R374): an interest reaches a router on a face; its remaining lifetime is in RID (log 15). -/
def execInterestPacket (router : Router) (face : Face) (p : Packet) (s : State) : Outcome State Fault Refusal :=
  if p.kind ≠ 0x09 || !(fabricOk p) || !(routerOk router) || !(faceOk router face) || (isHub router && !s.up) then nothing else
    .next (s.interest ⟨packetName p, p.payload, p.rid, p.ctx, none, (p.srcPart, p.srcDie)⟩ 16 router face (some (p.dstPart, p.dstDie)))

/-- TILE_DATA_PACKET (R375): the next 256 bytes of a tile reach a router (log 15); with the last of its 16 packets the tile is there. -/
def execTileDataPacket (router : Router) (p : Packet) (s : State) : Outcome State Fault Refusal :=
  if p.kind ≠ 0x0A || !(fabricOk p) || !(routerOk router) || decide (p.payload.length < 256) || decide (16 ≤ p.rid) || (isHub router && !s.up) then nothing else
  let name := packetName p
  let mine := fun (a : Arriving) => a.name == name && a.src == (p.srcPart, p.srcDie)
  let old := if p.rid = 0 then [] else (((s.router router).arriving.find? mine).map (fun a => a.data)).getD []
  let s := s.onRouter router (fun q => { q with arriving := q.arriving.filter (fun a => !(mine a)) })
  if old.length ≠ 256 * p.rid then .next s else
  let data := old ++ p.payload.take 256
  if p.rid < 15 then .next (s.onRouter router (fun q => { q with arriving := ⟨name, (p.srcPart, p.srcDie), data⟩ :: q.arriving })) else
  .next (s.tileAt (p.srcPart, p.srcDie) name data p.noHold (if p.payload.length = 256 then none else some (p.payload.drop 256)) true
    (s.lowestOwner (routerDie router)) 16 router).settlePlanes

/-- LAPSE_NOTICE (R376): a lapse notice reaches the hub of its destination die. -/
def execLapseNotice (p : Packet) (s : State) : Outcome State Fault Refusal :=
  if p.kind ≠ 0x0B || !(fabricOk p) || !s.up then nothing else
    .next (s.lapseAt (packetName p) (if p.aux / 65536 % 2 = 1 then some p.payload else none) 16 (.hub p.dstDie)).settlePlanes

/-- PENDING_ENTRY_EXPIRY (R376): lapse notices go to the entry's faces, and it is freed. -/
def execPendingEntryExpiry (router : Router) (entry : Nat) (s : State) : Outcome State Fault Refusal :=
  match (s.router router).pending.find? (fun e => e.id == entry) with
  | none => nothing
  | some e =>
    let s := s.onRouter router (fun q => { q with pending := q.pending.filter (fun k => k.id != entry) })
    .next ((facesOf [e]).foldl (fun s f => s.lapseFace router f.1 f.2 e.name none) s).settlePlanes

/-- CATALOGUE_LOAD (R373): reserved bits read as 0. -/
def execCatalogueLoad (router : Router) (index : Nat) (v : BitVec 128) (s : State) : Outcome State Fault Refusal :=
  if decide ((if isHub router then 4096 else 16384) ≤ index) || !(routerOk router) || (isHub router && !s.up) then nothing else
    let v := v &&& 0x000FFFFFFFFFFFFFFFFFFFFFFFFFFF00#128
    .next (s.onRouter router (fun q => { q with catalogue := putKey index v q.catalogue }))

end Sys2Proof.Machine
end

