-- ==== Sys2Proof/Machine/Facsim.lean ====
section
/-!
DEFINITION. Facsimiles: FACSIM, the cut and its copies, the drain with its manifest, and the parity of a group of parts (R227, R228,
R371, R386-R389).
-/
namespace Sys2Proof.Machine

open Host (Outcome)

/-! ### FACSIM (R227) -/

/-- The 64-byte pieces of a region list that the context may read. -/
def Issue.listPieces (i : Issue) (s : State) (va : Nat) : List LaneAcc :=
  (List.range 5).filterMap (fun k => match i.xlate s (BitVec.ofNat 64 (va + 64 * k)) .read with
    | .ok l => some ⟨k, va + 64 * k, l, []⟩
    | _ => none)

/-- The regions of a list: base and bytes. -/
def listRegions (bs : List Byte) : List (Nat × Nat) :=
  (List.range (bytesAt bs 0 4)).map (fun n => (bytesAt bs (0x10 + 16 * n) 8, bytesAt bs (0x18 + 16 * n) 8))

/-- The fields of a list are within the table of R227. -/
def listOk (bs : List Byte) : Bool :=
  let n := bytesAt bs 0 4
  decide (1 ≤ n ∧ n ≤ 16) && bytesAt bs 0x08 8 == 0 &&
    (listRegions bs).all (fun r => r.1 % 65536 == 0 && r.2 % 65536 == 0 && r.2 != 0)

/-- The page addresses of a region. -/
def regionPages (r : Nat × Nat) : List Nat := (List.range (r.2 / 65536)).map (fun k => r.1 + 65536 * k)

/-- Check 5 of R227 and the check of R386 over the pages of every region: a page the host can still supply parks the group, one that
the context cannot write raises ACCESS 0x04, and then one with MET set raises ACCESS 0x0C. -/
def Issue.regionStop (i : Issue) (s : State) (l : Nat) (pages : List Nat) : Option Stop :=
  let xs := pages.map (fun p => (l, BitVec.ofNat 64 p))
  (i.parkStop s xs .write).orElse (fun _ =>
  (firstTrap xs (fun x => match i.xlate s x.2 .write with | .ok _ => false | _ => true) (fun a => Trap.access 0x04 a.toNat)).orElse (fun _ =>
    firstTrap xs (fun x => match i.xlate s x.2 .write with | .ok k => k.met | _ => false) (fun a => Trap.access 0x0C a.toNat)))

/-- The translation rows of R135 for the pieces of a list. -/
def Issue.pieceStop (i : Issue) (s : State) (l : Nat) (va : Dword) (n : Nat) : Option Stop :=
  let xs := (List.range n).map (fun k => (l, va + BitVec.ofNat 64 (64 * k)))
  (i.pageStop s xs .read).orElse (fun _ => (i.parkStop s xs .read).orElse (fun _ => i.denyStop s xs .read 64))

/-- FACSIM (R227, R228): a release at system scope that commits the team, then a wait for the launch's cut. -/
def execFacsim (g : Guard) (a : RegField) (s : State) : Outcome State Fault Refusal :=
  issued s true (fun _ => [.srcStrict a 2]) true (fun i =>
    if i.effect g = 0 then i.skip s else
    let l := i.first g
    let va := i.pair a l
    i.unless s ((misStop [(l, va)] 64).orElse (fun _ => i.pieceStop s l va 1))
      (match s.readPieces i (i.listPieces s va.toNat) with
       | .error (.trap t) => i.raise t s
       | .error (.wait r s) => i.stall r s
       | .ok (s, got) =>
         match s.piecesBytes i got ((i.listPieces s va.toNat).take 1) with
         | .error t => i.raise t s
         | .ok head =>
         let pieces := (16 + 16 * bytesAt head.flatten 0 4 + 63) / 64
         if 5 < pieces then i.raise (Trap.illegal 0x1A) s else
         let ls := (i.listPieces s va.toNat).take pieces
         i.unless s (i.pieceStop s l va pieces)
           (match s.piecesBytes i got ls with
            | .error t => i.raise t s
            | .ok bytes =>
            let bs := bytes.flatten
            if !(listOk bs) then i.raise (Trap.illegal 0x1A) s else
            if i.image.boosted then i.raise (Trap.illegal 0x1F) s else
            i.unless s (i.regionStop s l ((listRegions bs).map regionPages).flatten)
              (if i.image.strict && !i.team.committed then i.raise ⟨0x13, 0x01, va⟩ s else
               i.after (s.releaseWait i 6) (fun s =>
                match s.commit i.cur.team with
                | none => i.stall 6 s
                | some s =>
                  let s := (s.tap (ls.map (fun x => x.loc))).onTeam i.cur.team (fun t => { t with facsim := true })
                  let s := s.onLaunch i.team.launch (fun k => { k with facWait :=
                    match k.facWait with
                    | some (t, rs) => if i.team.tlin < t then some (i.team.tlin, listRegions bs) else some (t, rs)
                    | none => some (i.team.tlin, listRegions bs) })
                  i.retire (fun gr => { gr with wait := .facsim va.toNat false }) (s.oweOnce (.facsimCut i.team.launch)))))))

/-! ### The cut (R228, R386) -/

/-- The bytes of a region's pages at their homes; none when a page is not in this part's HBM. -/
def State.regionBytes (s : State) (ctx : Nat) : List Nat → Option (List Byte)
  | [] => some []
  | p :: ps =>
    match s.vaLoc ctx p .read with
    | some l =>
      if l.part = s.part ∧ l.pa < Config.hostBase then (s.regionBytes ctx ps).map (fun bs => s.viewRead ctx l.pa 65536 ++ bs) else none
    | none => none

/-- The logical stack of a virtual address of a context. -/
def State.stackOf (s : State) (ctx va : Nat) : Nat := ((s.vaLoc ctx va .read).map (fun l => l.pa / 2 ^ 36)).getD 16

/-- The area of a stack that has room for some bytes. -/
def FacReg.areaOf (f : FacReg) (stack need : Nat) : Option (Nat × Nat) := f.areas.find? (fun a => a.1 / 2 ^ 36 == stack && decide (need ≤ a.2))

/-- Every stack's area holds the copies of its pages, and of the template (R386). -/
def State.areasHold (s : State) (ctx : Nat) (f : FacReg) (pages : List Nat) : Bool :=
  (List.range 16).all (fun st =>
    let need := 65536 * (pages.filter (fun p => s.stackOf ctx p == st)).length + (if s.stackOf ctx f.template = st then 4096 else 0)
    need == 0 || (f.areaOf st need).isSome)

/-- The parts of a launch's REPSET in a common order, ascending, since every part's own list begins with itself (R284, R389; log 117). -/
def State.repset (s : State) (l : Launch) : List Nat := sortBy id (((s.queue? l.queue).map (fun q => q.repset)).getD [s.part])

/-- The facsimile of a cut (R386, R387, R389); none takes NOROOM. -/
def State.facsimileOf (s : State) (l : Launch) (regions : List (Nat × Nat)) : Option Facsimile :=
  match (s.ctx? l.ctx).bind (fun c => c.fac) with
  | none => none
  | some f =>
    let pages := (regions.map regionPages).flatten
    if !(s.areasHold l.ctx f pages) then none else
    match s.vaRead l.ctx f.template 4096,
          regions.foldr (fun r o => o.bind (fun rs => (s.regionBytes l.ctx (regionPages r)).map (fun bs => (r.1, bs) :: rs))) (some []) with
    | some tm, some rs =>
      let set := s.repset l
      let at_ := indexIn s.part set
      some { ctx := l.ctx, gen := l.gen + 1, step := BitVec.ofNat 64 (bytesAt tm 0 8), regions := rs, roles := (tm.drop 8).take 16,
             soft := (tm.drop 0x800).take 0x800, template := tm, part := s.part, member := at_ % 8, ngrp := min 8 (set.length - at_ / 8 * 8),
             done := false, pdone := false, parity := [], chunk := 0, drained := 0 }
    | _, _ => none

/-- Take the facsimile cut of a launch on this part (R228): its pages are copied unless the barrier failed (log 37); the teams
that wait take part in it. -/
def State.facsimCut (s : State) (l : Launch) (regions : List (Nat × Nat)) (ok : Bool) : State :=
  let f := if ok then s.facsimileOf l regions else none
  let s := match f with
    | some f => { s with facs := f :: s.facs.filter (fun (x : Facsimile) => x.ctx != l.ctx) }
    | none => s
  let s := { s with teams := s.teams.map (fun (t : Team) => if t.launch = l.uid then
      { t with facsim := false, groups := t.groups.map (fun (g : Group) => match g.wait with | .facsim a _ => { g with wait := .facsim a true } | _ => g) } else t) }
  ((s.onLaunch l.uid (fun k => { k with facWait := none, facSent := false, facCut := if f.isSome then 1 else 2 })).oweOnce
    (.facsimCopyComplete l.uid)).oweOnce (.dispatchDecision (s.sliceOf l.ctx))

/-- Every started team of a launch waits at a FACSIM (R228). -/
def State.facsimReady (s : State) (l : Launch) : Bool :=
  l.facCut == 0 && s.runs l.ctx && (decide (l.repl ≤ 1) || !(s.quarantined l.ctx)) && (s.teams.filter (fun t => t.launch == l.uid && !t.ended)).all (fun t => t.facsim)

/-- FACSIM_CUT (R228): with every started team at its FACSIM or ended, the cut is taken; a launch on several parts first meets the
others at the spine's barrier, which fails when the copy has no room on this part (R371). -/
def execFacsimCut (launch : Nat) (s : State) : Outcome State Fault Refusal :=
  match s.launch? launch with
  | none => nothing
  | some l =>
    match l.facWait with
    | none => nothing
    | some (_, regions) =>
      if !(s.facsimReady l) || l.facSent then nothing else
      if l.repl ≤ 1 then .next (s.facsimCut l regions true) else
        .next ((s.onLaunch launch (fun k => { k with facSent := true })).sendPacket l.ctx (s.barrierPacket l.ctx 1 (s.replicas l) (s.facsimileOf l regions).isSome 0))

/-- Write STATUS to the list of every group that took part in a cut, and let the groups go on (R227, R228). None waits. -/
def State.facsimStatus (s : State) (ctx : Nat) (word : Nat) : List (Nat × Nat × Nat) → Option State
  | [] => some s
  | (team, grp, list) :: xs =>
    match s.vaWrite ctx (list + 4) (leBytes 4 word) with
    | none => none
    | some s => (s.onGroup team grp (fun g => { g with wait := .none })).facsimStatus ctx word xs

/-- The copies of a facsimile in the areas (R386): those of a stack's pages one after another in list order, then that of the template where it is of
that stack. The order within an area is the model's (log 117). -/
def State.areaCells (s : State) (f : Facsimile) (r : FacReg) : List Host.Cell :=
  let pages := f.regions.map (fun x => (regionPages (x.1, x.2.length)).map (fun p => (p, (x.2.drop (p - x.1)).take 65536)))
  ((List.range 16).map (fun st =>
    let mine := ((pages.flatten.filter (fun x => s.stackOf f.ctx x.1 == st)).map (fun x => x.2)).flatten ++ (if s.stackOf f.ctx r.template = st then f.template else [])
    match r.areaOf st mine.length with
    | some a => cellsAt a.1 mine
    | none => [])).flatten

/-- Put the copies of a context's facsimile into its areas, at the homes of their stacks. None waits. -/
def State.fillAreas (s : State) (ctx : Nat) : Option State :=
  match s.facs.find? (fun (f : Facsimile) => f.ctx == ctx), (s.ctx? ctx).bind (fun c => c.fac) with
  | some f, some r => s.putHome 64 (s.areaCells f r)
  | _, _ => some s

/-- FACSIM_COPY_COMPLETE (R228, R386): every copy is in its area, and with room the generation number advances by 1; STATUS is written and the groups
go on. -/
def execFacsimCopyComplete (launch : Nat) (s : State) : Outcome State Fault Refusal :=
  match s.launch? launch with
  | none => nothing
  | some l =>
    if l.facCut = 0 then nothing else
    let gen := if l.facCut = 1 then l.gen + 1 else l.gen
    let word := 2 ^ 31 + (if l.facCut = 2 then 2 ^ 30 else 0) + gen.toNat % 65536
    let waiting := ((s.teams.filter (fun t => t.launch == launch)).map (fun (t : Team) => t.groups.filterMap (fun (g : Group) =>
      match g.wait with | .facsim a true => some (t.uid, g.idx, a) | _ => none))).flatten
    match (if l.facCut = 1 then s.fillAreas l.ctx else some s).bind (fun s => s.facsimStatus l.ctx word waiting) with
    | none => nothing
    | some s =>
      let s := s.onLaunch launch (fun k => { k with gen := gen, facCut := 0 })
      .next (if l.facCut = 1 then s.oweOnce (.facsimileDrain l.ctx) else s)

/-! ### Manifest, drain and parity (R387-R389) -/

/-- The manifest of a facsimile (R387). -/
def Facsimile.manifest (f : Facsimile) : List Byte :=
  let flags := (if f.done then 2 ^ 31 else 0) + (if f.pdone then 2 ^ 30 else 0)
  let head := leBytes 4 0x46534D31 ++ leBytes 4 flags ++ leBytes 8 f.step.toNat ++ leBytes 4 f.gen.toNat ++ leBytes 2 f.part ++
    leBytes 1 f.member ++ leBytes 1 f.ngrp ++ leBytes 8 f.chunk ++ leBytes 4 f.regions.length ++ List.replicate 28 0
  let region := fun (n : Nat) (r : Nat × List Byte) =>
    leBytes 8 r.1 ++ leBytes 8 r.2.length ++ leBytes 4 (getAt f.roles n (0 : Byte)).toNat ++ List.replicate 12 0 ++ sha384 r.2
  let body := padTo 0x540 (head ++ (mapFrom region 0 f.regions).flatten)
  padTo 0x800 (body ++ (if f.pdone then sha384 f.parity else List.replicate 48 0)) ++ padTo 0x800 f.soft

/-- The bytes of a facsimile, its regions in list order. -/
def Facsimile.bytes (f : Facsimile) : List Byte := (f.regions.map (fun r => r.2)).flatten

/-- The addresses of a facsimile's pages, in list order. -/
def Facsimile.pages (f : Facsimile) : List Nat := (f.regions.map (fun r => regionPages (r.1, r.2.length))).flatten

/-- The lines of 256 bytes of a facsimile: 16 of the manifest, then those of its regions (R388). -/
def Facsimile.lines (f : Facsimile) : Nat := 16 + f.bytes.length / 256

/-- Line `k` as it drains (R388): the manifest with FLAGS 0, the regions, then the parity chunk (log 32). -/
def Facsimile.drainLine (f : Facsimile) (k : Nat) : List Byte :=
  if k < 16 then ({ f with done := false, pdone := false }.manifest.drop (256 * k)).take 256
  else if k < f.lines then (f.bytes.drop (256 * (k - 16))).take 256
  else (f.parity.drop (256 * (k - f.lines))).take 256

/-- What goes to the target as line `k` (R387, R388): after the parity chunk CHUNK and PDIGEST, which are known then, take their places in the
manifest (log 32). -/
def Facsimile.drainCells (f : Facsimile) (target k : Nat) : List Host.Cell :=
  let tail := f.lines + f.chunk / 256
  if k < f.lines ∨ k < tail then cellsAt (target + 256 * k) (f.drainLine k)
  else if k = tail then cellsAt (target + 0x18) (leBytes 8 f.chunk)
  else cellsAt (target + 0x540) (sha384 f.parity)

/-- The stack whose copier drains line `k`: that of the page, and for the manifest and the parity that of the template. -/
def State.drainStack (s : State) (f : Facsimile) (r : FacReg) (k : Nat) : Nat :=
  if k < 16 ∨ f.lines ≤ k then s.stackOf f.ctx r.template else s.stackOf f.ctx (getAt f.pages ((k - 16) / 256) 0)

/-- Lines of a facsimile that can drain by now: its parity chunk follows DONE, once it is built, and CHUNK and PDIGEST follow that (R388). -/
def Facsimile.ready (f : Facsimile) : Nat := f.lines + (if f.done && f.chunk != 0 && f.parity.length == f.chunk then f.chunk / 256 + 2 else 0)

/-- Put a context's facsimile. -/
def State.setFac (s : State) (f : Facsimile) : State := { s with facs := s.facs.map (fun (x : Facsimile) => if x.ctx = f.ctx then f else x) }

/-- A facsimile's flags have reached the target (R388): DONE or PDONE, one 4-byte write each. None waits. -/
def State.drainFlags (s : State) (f : Facsimile) (r : FacReg) : Option State :=
  (s.putHome f.ctx (cellsAt (r.target + 4) ((f.manifest.drop 4).take 4))).map (fun s => s.setFac f)

/-- FACSIMILE_DRAIN (R298, R388): the next line reaches the target, under budget 1 of its base die; DONE comes after the last line of the
regions, and PDONE after the last of the parity chunk. -/
def execFacsimileDrain (ctx : Nat) (s : State) : Outcome State Fault Refusal :=
  match s.facs.find? (fun f => f.ctx == ctx && !f.pdone), (s.ctx? ctx).bind (fun c => c.fac) with
  | some f, some r =>
    if f.drained < f.ready then
      let st := s.drainStack f r f.drained
      if s.spent 1 st then nothing else
      match s.putHome ctx (f.drainCells r.target f.drained) with
      | some s => .next { (s.setFac { f with drained := f.drained + 1 }).countUse 1 st 1 with begun := true }
      | none => nothing
    else if f.done && f.chunk == 0 then nothing
    else if f.done && f.parity.length != f.chunk then nothing
    else
      match s.drainFlags { f with done := true, pdone := f.done } r with
      | some s => .next s
      | none => nothing
  | _, _ => nothing

/-- Exclusive or of two byte strings, the shorter one read as padded with zeros. -/
def xorBytes : List Byte → List Byte → List Byte
  | [], ys => ys
  | xs, [] => xs
  | x :: xs, y :: ys => (x ^^^ y) :: xorBytes xs ys

/-- The parity chunk size C of a group of `n` parts whose largest facsimile has `big` bytes (R389). -/
def chunkSize (big n : Nat) : Nat := (big + 65536 * (n - 1) - 1) / (65536 * (n - 1)) * 65536

/-- Chunk `c` of a facsimile for chunks of `C` bytes (R389). -/
def chunkOf (C c : Nat) (bs : List Byte) : List Byte := padTo C ((bs.drop (c * C)).take C)

/-- Q[j] of a group of `n` whose members' facsimiles are given by index (R389). -/
def parityOf (C n j : Nat) (members : List (Nat × List Byte)) : List Byte :=
  (members.filter (fun p => p.1 != j)).foldl (fun q p => xorBytes q (chunkOf C ((j + 2 * n - p.1 - 1) % n) p.2)) (List.replicate C 0)

/-- PARITY_BUILD (R298, R389): from the other members' facsimiles the collective engine builds the next line of this member's parity chunk, under
budget 2 of IO1; the whole chunk then drains. -/
def execParityBuild (ctx : Nat) (others : List (Nat × List Byte)) (s : State) : Outcome State Fault Refusal :=
  match s.facs.find? (fun f => f.ctx == ctx && f.done && !f.pdone) with
  | none => nothing
  | some f =>
    let members := others.filter (fun o => decide (o.1 < f.ngrp ∧ o.1 ≠ f.member))
    let C := chunkSize (maxOf (f.bytes.length :: members.map (fun o => o.2.length))) f.ngrp
    if f.ngrp < 2 ∨ s.spent 2 0 ∨ !((List.range f.ngrp).all (fun p => p == f.member || others.any (fun o => o.1 == p))) ∨ C ≤ f.parity.length then nothing else
    let f := { f with chunk := C, parity := f.parity ++ ((parityOf C f.ngrp f.member members).drop f.parity.length).take 256 }
    let s := (s.setFac f).countUse 2 0 1
    .next (if f.parity.length = C then s.oweOnce (.facsimileDrain ctx) else { s with begun := true })

end Sys2Proof.Machine
end

