-- ==== Sys2Proof/Machine/Spec.lean ====
section
/-!
DEFINITION. Speculative tasks: the kind table, the concordance, OPDO with the object table and the errata stack, aborts with their
undo runs, and commits (R229-R232, R379).
-/
namespace Sys2Proof.Machine

open Host (Outcome)

/-- DETAIL 0x1E of R229: a SPEC function outside a boosted launch or by an undo group, whatever the guard. -/
def Issue.specStop (i : Issue) : Option Stop :=
  if !i.image.boosted || i.grp.undo then some (.trap (Trap.illegal 0x1E)) else none

/-- The offset registered for a kind (R229). -/
def Launch.kindOf (l : Launch) (k : Nat) : Option Word := (l.kinds.find? (fun x => x.1 == k)).map (fun x => x.2)

/-- OPREG (R230): the offset in A of the lowest lane. -/
def execOpreg (g : Guard) (k : BitVec 7) (a : RegField) (s : State) : Outcome State Fault Refusal :=
  issued s (decide (k.toNat < 64)) (fun _ => [.srcNoLatch a 1]) true (fun i =>
    i.unless s i.specStop
      (if i.effect g = 0 then i.skip s else
       let off := i.regAt a 0 (i.first g)
       if off.toNat % 4 ≠ 0 then i.raise (Trap.misaligned off.toNat) s else
       if i.image.code.length * 4 ≤ off.toNat then i.raise (Trap.access 0x01 off.toNat) s else
       match i.launch.kindOf k.toNat with
       | some o => if o = off then i.retire id s else i.raise (Trap.illegal 0x1C) s
       | none => i.retire id (s.onLaunch i.team.launch (fun l => { l with kinds := l.kinds ++ [(k.toNat, off)] }))))

/-- CONLD (R230): each lane's image in turn, so that of the last lane governs the OPDOs that follow. -/
def execConld (g : Guard) (a : RegField) (s : State) : Outcome State Fault Refusal :=
  issued s true (fun _ => [.srcStrict a 2]) true (fun i =>
    i.unless s i.specStop
      (let xs := i.pairAddrs g a
       if xs.isEmpty then i.skip s else
         let pieces := fun (x : Nat × Dword) => (List.range 16).map (fun k => (x.1, x.2 + BitVec.ofNat 64 (64 * k)))
         let all := (xs.map pieces).flatten
         i.unless s ((misStop xs 64).orElse (fun _ => (i.pageStop s all .read).orElse (fun _ => (i.parkStop s all .read).orElse (fun _ =>
             i.denyStop s all .read 64))))
           (let ls := mapFrom (fun k (x : Nat × Dword) => (⟨k, x.2.toNat, i.locOf s x.2 .read, []⟩ : LaneAcc)) 0 all
            match s.readPieces i ls with
            | .error (.trap t) => i.raise t s
            | .error (.wait r s) => i.stall r s
            | .ok (s, got) =>
              match s.piecesBytes i got ls with
              | .error t => i.raise t s
              | .ok bytes =>
                i.retire id ((s.tap (ls.map (fun x => x.loc))).onLaunch i.team.launch (fun l => { l with concord := (bytes.drop (bytes.length - 16)).flatten })))))

/-! ### Aborts (R232) -/

/-- Abort a task (R232): its groups stop at their next issue decision and its held LAUNCHes are discarded; a task that had ended
runs again. `after` is the task whose commit the relaunch waits for. -/
def State.abortTask (s : State) (team : Nat) (after : Option Nat) : State :=
  match s.team? team with
  | none => s
  | some t =>
    if t.aborting.isSome then s else
    ((s.onTeam team (fun t => { t with aborting := some 0, afterTask := after, heldLaunches := [], ended := false })).onLaunch t.launch
      (fun l => { l with ended := l.ended.filter (fun x => x != t.tlin) })).oweOnce (.undoRunEnd team)

/-- The undo group of an errata record (R39, R232), in the task's first slot: only lane 0 is live. -/
def undoGroup (m : Image) (core slot stamp age : Nat) (e : Errata) : Group :=
  let g := Group.start 0 m.width m.regs core slot 0 stamp age
  { g with undo := true
           lanes := mapFrom (fun l (ln : Lane) =>
             if l = 0 then
               { ln with pcv := e.offset, regs := setAt (setAt (setAt (setAt ln.regs 0 (e.id.setWidth 32)) 1 ((e.id >>> 32).setWidth 32)) 2 e.arg) 3 (BitVec.ofNat 32 e.kind) }
             else { ln with exited := true }) 0 g.lanes }

/-- Start the run of the record on top of the errata stack, or, with the stack empty, remove the task's entries and let it wait for
its relaunch (R232). None while an outstanding store carries the run's identifier (R33). -/
def State.nextUndo (s : State) (t : Team) (m : Image) : Option State :=
  match t.errata, t.slots with
  | e :: _, (core, slot) :: _ =>
    let g := undoGroup m core slot ((s.stampOf core slot 0 + 1) % 4096) s.issues e
    if s.stampHeld t.ctx g then none else
    some (((s.takeStamps [g]).onTeam t.uid (fun t => { t with aborting := some 1, groups := [g] })).oweOnce (.undoRunEnd t.uid))
  | _, _ =>
    some <| ({ s with objects := s.objects.filter (fun o => o.team != t.uid) }.onTeam t.uid (fun t => { t with
      aborting := some 2, errata := [], scratch := [], absent := [], bad := [], shelf := [] })).oweOnce (.undoRunEnd t.uid)

/-- Relaunch an aborted task with the same order number (R232): in its own slots, or placed again away from the core where an error
was taken (R379); a fourth error ends its launch. None while an outstanding store carries a new group's identifier (R33). -/
def State.relaunchTask (s : State) (t : Team) (m : Image) : Option State :=
  if t.errCores.contains t.core then some (s.rejoin t ⟨t.tlin, t.errs, t.errCores⟩) else
  let gs := s.newGroups m t.slots
  if gs.any (s.stampHeld t.ctx) then none else
  some <| (s.takeStamps gs).onTeam t.uid (fun t => Team.start t.uid t.ctx t.launch t.tlin t.hidx t.gang t.core m t.slots gs ⟨t.tlin, t.errs, t.errCores⟩)

/-- UNDO_RUN_END (R232): the groups of an aborted task have stopped with their accesses complete, or an undo run has ended with its
stores performed at device scope: the next run starts; with none left the task is cleared and relaunched. -/
def execUndoRunEnd (team : Nat) (s : State) : Outcome State Fault Refusal :=
  match s.team? team with
  | none => nothing
  | some t =>
    match s.imageOf t, s.launch? t.launch with
    | some m, some l =>
      if t.killed || !(s.runs t.ctx) then nothing else
      let go := fun (o : Option State) => match o with | some s => Outcome.next s | none => nothing
      let quiet := t.groups.all (fun g => s.quiet team g.idx)
      match t.aborting with
      | none => nothing
      | some 0 =>
        let s := { s with copies := s.copies.filter (fun c => !(c.team == team && !c.started)) }
        if !quiet || s.engineBusy team then nothing else go (s.nextUndo t m)
      | some 1 =>
        if !quiet || t.groups.any (fun g => g.live != 0) then nothing else
        match s.drainAll (s.wc.filter (fun e => e.team == team && e.part == s.part)) with
        | none => nothing
        | some s1 =>
          if s1.reqs.any (fun r => r.host && r.team == team) then (if s1 = s then nothing else .next (s1.oweOnce (.undoRunEnd team))) else
          let t := { t with errata := t.errata.drop 1 }
          go ((s1.onTeam team (fun x => { x with errata := t.errata })).nextUndo t m)
      | some _ =>
        match t.afterTask with
        | some k => if l.oldest ≤ k then nothing else go (s.relaunchTask t m)
        | none => go (s.relaunchTask t m)
    | _, _ => nothing

/-! ### OPDO (R231) -/

/-- The concordance entry of a pair of kinds (R230). -/
def Launch.conflictCode (l : Launch) (a b : Nat) : Nat := (getAt l.concord ((64 * a + b) / 4) (0 : Byte)).toNat / 4 ^ ((64 * a + b) % 4) % 4

/-- The die whose object table holds an object. -/
def objectDie (id : Dword) : Nat := id.toNat % 8

/-- What one lane's declaration meets. -/
inductive Declared
  /-- it is in the table (and on the errata stack unless the task is the oldest) -/
  | ok (s : State)
  /-- it waits for the undo of a younger task, for room, or for older tasks -/
  | wait (s : State)
  /-- this task has been aborted -/
  | aborted (s : State)
  | overflow

/-- The order number of the task that made an entry, in the issuing launch; an entry of another launch has none (log 34). -/
def State.entryTask (s : State) (launch : Nat) (e : ObjEntry) : Option Nat :=
  match s.team? e.team with
  | some t => if t.launch = launch then some t.tlin else none
  | none => none

/-- Declare one operation (R231): conflicts in the order of the table, then room, then the entry and its errata record. -/
def State.declare (s : State) (i : Issue) (k : Nat) (id : Dword) (arg off : Word) : Declared :=
  match s.launch? i.team.launch, s.team? i.cur.team with
  | some l, some t =>
    let hit := s.objects.find? (fun e =>
      e.team != t.uid && e.id == id && (s.entryTask l.uid e).isSome &&
        (let c := l.conflictCode k e.kind; c == 2 || c == 3 || (c == 1 && e.arg == arg)))
    match hit with
    | some e =>
      let other := (s.entryTask l.uid e).getD 0
      if t.tlin < other then .wait (s.abortTask e.team none)
      else .aborted (s.abortTask t.uid (some other))
    | none =>
      let oldest := t.tlin == l.oldest
      let full := decide (4096 ≤ (s.objects.filter (fun e => objectDie e.id == objectDie id)).length)
      if full then
        if oldest then
          let holders := (s.objects.filterMap (fun e => if e.team = t.uid ∨ objectDie e.id ≠ objectDie id then none else (s.entryTask l.uid e).map (fun n => (n, e.team))))
          match (sortBy (fun (x : Nat × Nat) => x.1) holders).getLast? with
          | some x => .wait (s.abortTask x.2 none)
          | none => .wait s
        else .wait s
      else
        let s := { s with objects := s.objects ++ [ObjEntry.mk t.uid k id arg] }
        if oldest then .ok s else
        if 256 ≤ t.errata.length then .overflow else
          .ok (s.onTeam t.uid (fun t => { t with errata := ⟨k, id, arg, off⟩ :: t.errata }))
  | _, _ => .wait s

/-- Declare the operations of some lanes in ascending order. -/
def State.declareAll (s : State) (i : Issue) (k : Nat) (off : Word) : List (Dword × Word) → Declared
  | [] => .ok s
  | (id, arg) :: xs =>
    match s.declare i k id arg off with
    | .ok s => s.declareAll i k off xs
    | r => r

/-- Take back what the lanes before the one that waits have declared. -/
def State.undeclare (s before : State) (i : Issue) : State :=
  { s with objects := before.objects }.onTeam i.cur.team (fun t => { t with errata := i.team.errata })

/-- OPDO (R231): the lanes' operations are declared together, once none of them has to wait; an abort that one causes starts at
once, and a trap or a wait declares none (R72; log 34). -/
def execOpdo (g : Guard) (k : BitVec 7) (a : RegField) (s : State) : Outcome State Fault Refusal :=
  issued s (decide (k.toNat < 64)) (fun _ => [.srcStrict a 3]) true (fun i =>
    i.unless s i.specStop
      (if i.effect g = 0 then i.skip s else
       match i.launch.kindOf k.toNat with
       | none => i.raise (Trap.illegal 0x1D) s
       | some off =>
         match s.declareAll i k.toNat off ((i.taking g).map (fun l => (i.pair a l, i.regAt a 2 l))) with
         | .ok s => i.retire id s
         | .overflow => i.raise ⟨0x0C, 0, 256⟩ s
         | .aborted s' => .next (s'.undeclare s i)
         | .wait s' => i.stall 15 (s'.undeclare s i)))

/-! ### Commit (R229) -/

/-- TASK_COMMIT (R229): a task that has ended commits once every lower task has; its entries and errata go, and its held LAUNCHes
are made. -/
def execTaskCommit (team : Nat) (s : State) : Outcome State Fault Refusal :=
  match s.team? team with
  | none => nothing
  | some t =>
    match s.launch? t.launch with
    | none => nothing
    | some l =>
      if !t.ended || t.aborting.isSome || l.oldest != t.tlin || l.stopped then nothing else
      match s.launchAll t false t.heldLaunches with
      | none => nothing
      | some s =>
        let s := { s with objects := s.objects.filter (fun o => o.team != team) }
        let s := (((s.freeTeam t).dropTeam team).onLaunch t.launch (fun l => { l with oldest := l.oldest + 1 }))
        .next ((s.oweCompletion t.launch).oweDispatch t.ctx)

end Sys2Proof.Machine
end

