-- ==== Sys2Proof/Machine/Banks.lean ====
section
/-!
DEFINITION. The banks of a core: its run list, restores, swaps and spills, the park rule, the escalation ladder with its timers, the
kill, the watchdog, and recalls (R304, R312-R330, R335).
-/
namespace Sys2Proof.Machine

open Host (Outcome)

/-! ### Run list (R312, R326) -/

/-- A recalled context stays on a core's run list while it has teams there whose queues are to RUN (R322, R326). -/
def State.recallKeeps (s : State) (ctx core : Nat) : Bool :=
  match s.recallOf ctx with
  | none => true
  | some r => !(s.placedOn ctx core).isEmpty && (s.placedOn ctx core).all (fun t =>
      ((s.launch? t.launch).map (fun l => r.action l.queue == 0)).getD true)

/-- A twin is on the run list while it is stepped or is a rival (R350, R351). -/
def State.twinListed (s : State) (ctx : Nat) : Bool :=
  match s.twinNum? ctx with
  | some w => w.state == .stepping || w.state == .rival
  | none => true

/-- A context has an admitted launch with unplaced teams. -/
def State.unplaced (s : State) (ctx : Nat) : Bool :=
  s.launches.any (fun l => l.ctx == ctx && !l.stopped && decide (l.placed.length < l.teamCount))

/-- A context is on the run list of a core (R312). -/
def State.listed (s : State) (c : Ctx) (core : Nat) : Bool :=
  (s.sliceClusters c.slice).contains (core / 8) && (!(s.placedOn c.num core).isEmpty || s.unplaced c.num) &&
    s.recallKeeps c.num core && s.twinListed c.num

/-- The next context of the run list, in ascending number after the active one, wrapping round (R314); with no active
context the lowest (R335; log 106). One that is still leaving the core is not taken. -/
def State.nextContext (s : State) (core : Nat) : Option Nat :=
  let active := (s.core core).active
  let xs := sortBy id ((s.ctxs.filter (fun c => s.listed c core && some c.num != active &&
    (let l := (s.coreCtx core c.num).ladder; l == .run || l == .out))).map (fun c => c.num))
  match active with
  | some a => (xs.find? (fun x => decide (a < x))).orElse (fun _ => xs.head?)
  | none => xs.head?

/-! ### The ladder (R319, R322) -/

/-- The cores that hold a team of a cooperative launch of a context which has a team on one of some cores. -/
def State.coopStep (s : State) (ctx : Nat) (cores : List Nat) : List Nat :=
  let ls := (s.launches.filter (fun l => l.ctx == ctx && ((s.image? l.image).map (fun m => m.coop)).getD false &&
    s.teams.any (fun t => t.launch == l.uid && t.cores.any cores.contains))).map (fun l => l.uid)
  (s.teams.filter (fun t => ls.contains t.launch)).foldl (fun acc t => t.cores.foldl (fun acc c => addOnce c acc) acc) cores

/-- The cores that are swapped together with one core (R319). -/
def State.coopCores (s : State) (ctx : Nat) : Nat → List Nat → List Nat
  | 0, cs => cs
  | n + 1, cs => s.coopCores ctx n (s.coopStep ctx cs)

/-- Enter HALT (R322) on a core, and on every core that a cooperative launch joins to it: the swap follows. -/
def State.enterHalt (s : State) (core ctx : Nat) : State :=
  (s.coopCores ctx (s.launches.length + 1) [core]).foldl (fun s c =>
    if (s.core c).active = some ctx then
      let s := (s.onCoreCtx c ctx (fun x => { x with ladder := .halt })).oweOnce (.swap c)
      if (s.core c).shadow.isNone then s.oweOnce (.restoreComplete c) else s
    else if (s.core c).shadow = some ctx then
      ((s.onCoreCtx c ctx (fun x => { x with ladder := .out })).onCore c (fun x => { x with shadow := none })).oweOnce (.restoreComplete c)
    else s) s

/-- GRACE of CXTIME (R323). -/
def Ctx.grace (c : Ctx) : Nat := (c.cxtime.extractLsb' 40 16).toNat
/-- QUANTUM of CXTIME (R323). -/
def Ctx.quantum (c : Ctx) : Nat := (c.cxtime.extractLsb' 16 8).toNat

/-- Enter SOFT (R322, R323): GRACE 0 goes to HALT at once, and a context with no team left goes OUT. -/
def State.enterSoft (s : State) (core ctx : Nat) : State :=
  if ((s.ctx? ctx).map (fun c => c.grace)).getD 0 = 0 then s.enterHalt core ctx
  else (s.onCoreCtx core ctx (fun x => { x with ladder := .soft })).softEnd ctx core

/-- Ask a core for a context (R322). -/
def State.requestCore (s : State) (ctx core : Nat) : State :=
  match (s.coreCtx core ctx).ladder with
  | .run =>
    if (s.core core).active = some ctx then s.enterSoft core ctx
    else if (s.core core).shadow = some ctx then
      ((s.onCoreCtx core ctx (fun x => { x with ladder := .out })).onCore core (fun x => { x with shadow := none })).oweOnce (.restoreComplete core)
    else s
  | _ => s

/-- QUANTUM_EXPIRY (R322, R323): another context is ready. -/
def execQuantumExpiry (core ctx : Nat) (s : State) : Outcome State Fault Refusal :=
  if ((s.ctx? ctx).map (fun c => c.quantum)).getD 0 = 0 || (s.core core).active != some ctx || (s.core core).shadow.isNone ||
     (s.coreCtx core ctx).ladder != .run then nothing
  else .next (s.enterSoft core ctx)

/-- PREEMPT_REQUEST (R322, R399): a host command, not marked V, that names a context and cores. -/
def execPreemptRequest (fn ctx : Nat) (cores : List Nat) (s : State) : Outcome State Fault Refusal :=
  let opc := (s.mailbox fn).ctl.toNat % 65536
  hostCmd s fn opc false false
    (if (s.ctx? ctx).isNone then s.refused fn opc else (cores.foldl (fun s c => s.requestCore ctx c) s).done fn opc [])

/-- GRACE_TIMER_EXPIRY (R322). -/
def execGraceTimerExpiry (core ctx : Nat) (s : State) : Outcome State Fault Refusal :=
  if (s.coreCtx core ctx).ladder = .soft then .next (s.enterHalt core ctx) else nothing

/-- KILL_TIMER_EXPIRY (R322, R324). -/
def execKillTimerExpiry (core ctx : Nat) (s : State) : Outcome State Fault Refusal :=
  if (s.coreCtx core ctx).ladder = .halt then .next (s.killCore core ctx false 0x00 0x01 0) else nothing

/-- WATCHDOG (R304, R325): the count of the active context has reached its limit. A count below it first advances by the cycles that have
passed without an issue, a free value (log 61). -/
def execWatchdog (core ctx : Nat) (s : State) : Outcome State Fault Refusal :=
  let limit := ((s.ctx? ctx).map (fun c => c.wdogLimit)).getD 0
  let stepping := s.twins.any (fun w => w.num == ctx && w.state == .stepping)
  let count := (s.coreCtx core ctx).wdog
  if limit = 0 || (s.core core).active != some ctx || stepping then nothing
  else if s.dogBites core ctx then .next (s.bite core ctx)
  else
    let now := tickDog limit count (BitVec.ofNat 64 (Config.freeCycles s.freeTick))
    .next { s.onCoreCtx core ctx (fun c => { c with wdog := now }) with begun := now == limit, freeTick := s.freeTick + 1 }

/-! ### The swap (R315-R319, R335) -/

/-- A group of a context on a core is within a chain. -/
def State.chainOn (s : State) (ctx core : Nat) : Bool :=
  s.teams.any (fun t => t.ctx == ctx && t.groups.any (fun g => g.core == core && g.chain.isSome && !g.ended))

/-- The context of a shadow bank may become active (R319): each core that holds a team of a cooperative launch joined to this one has
it restored. -/
def State.shadowReady (s : State) (ctx core : Nat) : Bool :=
  (s.coopStep ctx [core]).all (fun c => (s.core c).shadow == some ctx || (s.core c).active == some ctx)

/-- A group as a swap leaves it (R316): its latches are invalid and its AWAIT is abandoned. -/
def Group.swapped (g : Group) : Group :=
  { g with latches := noLatches, wait := match g.wait with | .await _ => .none | w => w, stall := 0 }

/-- Take a context out of the active bank (R315, R316); its write-combining entries on the core drain (R368). -/
def State.swapOut (s : State) (core ctx : Nat) : State :=
  let mine := fun (u i : Nat) => s.teams.any (fun t => t.ctx == ctx && t.uid == u && t.groups.any (fun g => g.core == core && g.idx == i))
  let s := s.drainSome (s.wc.filter (fun e => e.ctx == ctx && e.core == core))
  let s := { s with
    accesses := s.accesses.filter (fun a => !(mine a.team a.grp && (match a.kind with | .await _ => true | _ => false)))
    teams := s.teams.map (fun (t : Team) => if t.ctx = ctx then { t with groups := t.groups.map (fun (g : Group) => if g.core = core then g.swapped else g) } else t) }
  ((s.onCoreCtx core ctx (fun c => { c with saved := true, spill := 0 })).onCore core (fun c => { c with active := none })).oweOnce
    (.spillComplete core ctx)

/-- The scratchpad lines of a team that lie on a core (R133, R264): a pair's odd core holds those from 8,388,608 on. -/
def Team.linesOn (t : Team) (m : Image) (core : Nat) : List Nat :=
  let lines := List.range (m.windowBytes / 256)
  if !m.paired then lines else
    let half := Config.scratchPerCore / 256
    lines.filter (fun l => if core = t.core then decide (l < half) else decide (half ≤ l))

/-- The lines of a team that a swap brings to a core, checksum lines last (R159, R317). -/
def State.swapLines (s : State) (t : Team) (core : Nat) : List Nat :=
  match s.imageOf t with
  | some m => t.linesOn m core ++ ((List.range m.accum).filter (fun n => t.tileCore n == core)).map checksumLine
  | none => []

/-- Set the scratchpad lines of an incoming team, checksum lines among them, absent and pending (R159, R316, R317): each becomes present when its restore completes. A
line that was absent stays as it was. -/
def State.restoreLines (s : State) (t : Team) (core : Nat) : State :=
  let ls := (s.swapLines t core).filter (fun l => !(t.absent.any (fun a => a.line == l)))
  { s.onTeam t.uid (fun t => { t with absent := t.absent ++ ls.map (fun l => AbsentLine.mk l true .free 0 0) }) with
    due := s.due ++ ls.map (fun l => Instr.lineArrival t.uid l) }

/-- Make a context active (R315): the lines of its saved teams lag behind, and its saved held copies return to free ways (R313). -/
def State.swapIn (s : State) (core ctx : Nat) : State :=
  let s := if (s.coreCtx core ctx).saved then
      (s.placedOn ctx core).foldl (fun s t => s.restoreLines t core) s
    else s
  let i := Instr.dispatchDecision (s.sliceOf ctx)
  ((((s.onCoreCtx core ctx (fun c => { c with saved := false, park := false, ladder := .run })).onCore core (fun c =>
    { c with active := some ctx, shadow := none })).fillWays.oweOnce (.restoreComplete core)).unowe i).owe i

/-- The context that a swap takes out of a core, gone from it: its ladder is in HALT and no chain of it is in progress. Without an active
context the outgoing role is empty. -/
def State.outgoing (s : State) (core : Nat) : Option State :=
  match (s.core core).active with
  | none => some s
  | some a => if (s.coreCtx core a).ladder = .halt ∧ !(s.chainOn a core) then some (s.swapOut core a) else none

/-- A cut of the active context that falls due with a swap is taken first (R315, R340). -/
def State.cutOf (s : State) (core : Nat) : Option State :=
  match (s.core core).active with
  | some a => s.cutFirst a core
  | none => some s

/-- SWAP (R314-R319, R335): the active context leaves, and the restored one in the shadow bank becomes active. While the run list has another context,
the swap begins only when that one has been restored; without one the core runs none (log 102). -/
def execSwap (core : Nat) (s : State) : Outcome State Fault Refusal :=
  match (s.outgoing core).bind (fun _ => s.cutOf core) with
  | none => nothing
  | some s =>
    match s.outgoing core, (s.core core).shadow with
    | none, _ => nothing
    | some s1, some x =>
      if s.shadowReady x core then .next (s1.swapIn core x)
      else if (s.core core).active.isSome then .next (s1.oweOnce (.swap core)) else nothing
    | some s1, none =>
      if (s.core core).active.isSome && (s.nextContext core).isNone then .next (s1.oweOnce (.restoreComplete core)) else nothing

/-- RESTORE_COMPLETE (R314): the empty shadow bank holds the next context of the run list; with nothing active a swap makes it active
(R335). A twin that is stepped needs its lines only (R350). -/
def execRestoreComplete (core : Nat) (s : State) : Outcome State Fault Refusal :=
  if (s.core core).shadow.isSome then nothing else
  match s.nextContext core with
  | none => nothing
  | some x =>
    let s1 := (s.onCoreCtx core x (fun c => { c with ladder := .run })).onCore core (fun c => { c with shadow := some x })
    .next (if (s.core core).active.isNone then s1.oweOnce (.swap core) else s1)

/-! ### The spill (R298, R313, R317, R322) -/

/-- Lines of 256 bytes of the register banks and accumulators of a context on a core: a slot of 256 lanes has REGS KiB, a tile 1 KiB (R313). -/
def State.bankLines (s : State) (ctx core : Nat) : Nat :=
  sumOf ((s.placedOn ctx core).map (fun t => match s.imageOf t with
    | some m => 4 * m.regs * (t.slots.filter (fun x => x.1 == core)).length + 4 * (m.share (decide (core ≠ t.core))).tiles
    | none => 0))

/-- Scratchpad lines of a context on a core, checksum lines and eight bytes for each shelf-list entry among them (R313, R317). -/
def State.padLines (s : State) (ctx core : Nat) : Nat :=
  sumOf ((s.placedOn ctx core).map (fun t => match s.imageOf t with
    | some m => ((m.share (decide (core ≠ t.core))).bytes + (if core = t.core then 8 * t.shelf.length else 0) + 255) / 256
    | none => 0))

/-- The lines of a context that a swap brings to a core, by team and in ascending window order (R317). -/
def State.lineSeq (s : State) (ctx core : Nat) : List (Nat × Nat) :=
  ((s.placedOn ctx core).map (fun t => (s.swapLines t core).map (fun l => (t.uid, l)))).flatten

/-- A line waits for its restore (R317). -/
def State.restoring (s : State) (x : Nat × Nat) : Bool :=
  (((s.team? x.1).bind (fun t => t.absentLine? x.2)).map (fun a => a.pending && a.owner == .free)).getD false

/-- The lines of a core's active context that claim a physical line where an outgoing context has one, in order (R317). Which ones do is a free value: how
windows lie in a core's scratchpad is not given. -/
def State.claims (s : State) (core out : Nat) : List (Nat × Nat) :=
  match (s.core core).active with
  | some x => ((s.lineSeq x core).filter (fun x => Config.freeClaim x.1 x.2)).take (s.padLines out core)
  | none => []

/-- A transfer is writing scratchpad lines of a context on a core, a send to one of its teams among them (R192). -/
def State.transferring (s : State) (core ctx : Nat) : Bool :=
  let ts := s.placedOn ctx core
  ts.any (fun t => s.copies.any (fun c => c.team == t.uid && c.started) || s.sends.any (fun c => c.team == t.uid) || s.colls.any (fun c => c.team == t.uid)) ||
    s.sends.any (fun x => ((s.team? x.team).map (fun t => x.left.any (fun n =>
      ((s.receiver? t (x.base + n)).map (fun r => ts.any (fun u => u.uid == r.uid))).getD false))).getD false)

/-- What a spill waits for (R192, R316, R317): an outstanding access or matrix work of a group on the core, or a transfer. A TILEOP has paused
(R168). -/
def State.spillHeld (s : State) (core ctx : Nat) : Bool :=
  s.teams.any (fun t => t.ctx == ctx && t.groups.any (fun g => g.core == core &&
    (s.outstanding t.uid g.idx || s.works.any (fun w => w.team == t.uid && w.grp == g.idx)))) || s.transferring core ctx

/-- A context is being spilled from a core (R317, R322). -/
def State.spilling (s : State) (core ctx : Nat) : Bool :=
  (s.coreCtx core ctx).ladder == .halt && (s.coreCtx core ctx).saved && (s.core core).active != some ctx

/-- Lines of a spill are left to move (R317). -/
def State.spillLeft (s : State) (core ctx : Nat) : Bool :=
  decide ((s.coreCtx core ctx).spill < s.bankLines ctx core + s.padLines ctx core)

/-- The next line of a spill may move (R192, R317): one that the incoming context claims once the incoming line before it has been restored, and no transfer
writes; then, once nothing holds the spill, the banks and the other lines. -/
def State.spillOpen (s : State) (core ctx : Nat) : Bool :=
  let k := (s.coreCtx core ctx).spill
  let cs := s.claims core ctx
  if k < cs.length then !(s.transferring core ctx) && (cs.take k).all (fun x => !(s.restoring x)) else !(s.spillHeld core ctx)

/-- Move the next line of a spill to the save area (R298, R317). The ladder and a recall force it whatever budget 5 is; the park rule does not; it counts. -/
def State.spillOne (s : State) (core ctx : Nat) : Option State :=
  let forced := !((s.coreCtx core ctx).park) || s.isRecalled ctx
  if s.spilling core ctx && s.spillLeft core ctx && s.spillOpen core ctx && (forced || !(s.spent 5 (dieOfCore core))) then
    some ((s.countUse 5 (dieOfCore core) 1).onCoreCtx core ctx (fun c => { c with spill := c.spill + 1 }))
  else none

/-- The restore of a line may complete (R317): its context is active on the core, the lines before it have been restored, and the outgoing line in its place
has been spilled. -/
def State.arrives? (s : State) (t : Team) (core line : Nat) : Bool :=
  let before := (s.lineSeq t.ctx core).takeWhile (fun x => x != (t.uid, line))
  (s.core core).active == some t.ctx && before.all (fun x => !(s.restoring x)) &&
    s.coreCtxs.all (fun c => c.core != core || !(s.spilling core c.ctx) ||
      !((s.claims core c.ctx).contains (t.uid, line)) || decide (((s.claims core c.ctx).takeWhile (fun x => x != (t.uid, line))).length < c.spill))

/-- LINE_ARRIVAL (R135, R317): a line that a restore fills becomes present; lines under a slip or a copy arrive with their data. -/
def execLineArrival (team line : Nat) (s : State) : Outcome State Fault Refusal :=
  match s.team? team with
  | some t =>
    if s.restoring (team, line) && t.cores.any (fun c => (s.swapLines t c).contains line && s.arrives? t c line) then
      .next (s.onTeam team (fun t => { t with absent := t.absent.filter (fun b => b.line != line) }))
    else nothing
  | none => nothing

/-- SPILL_LINE (R298, R317): one line moves to the save area. -/
def execSpillLine (core ctx : Nat) (s : State) : Outcome State Fault Refusal :=
  match s.spillOne core ctx with
  | some s => .next s
  | none => nothing

/-- A line or a tile of a context on a core that the spill engine finds bad (R270): the team, DETAIL and sr.tval. -/
def State.spillBad (s : State) (core ctx : Nat) : Option (Nat × Nat × Nat) :=
  (s.placedOn ctx core).findSome? (fun t =>
    ((t.bad.find? (s.swapLines t core).contains).map (fun l => (t.uid, 0, l))).orElse (fun _ =>
      (t.badTiles.find? (fun n => t.tileCore n == core)).map (fun n => (t.uid, 1, n))))

/-- The held copies that leave with a context that a recall checkpoints, at the end of its spill (R313). None waits for a piece of an area. -/
def State.spillCopies (s : State) (core ctx : Nat) : Option State :=
  if s.isRecalled ctx then s.saveCopies ctx (fun u => ((s.team? u).map (fun t => t.cores.isEmpty || t.cores.contains core)).getD true)
  else some s

/-- SPILL_COMPLETE (R313, R317, R322): every line of the outgoing context is saved, each moved as SPILL_LINE moves it, a team of which a line or
tile is found bad ends (R270), and with a recall its held copies are saved too (log 62). -/
def execSpillComplete (core ctx : Nat) (s : State) : Outcome State Fault Refusal :=
  if s.spilling core ctx then
    match s.spillOne core ctx with
    | some s => .next { s with begun := true }
    | none =>
      if s.spillLeft core ctx || s.spillHeld core ctx then nothing else
      match s.spillBad core ctx with
      | some (u, det, v) => .next { s.deliverE u det (BitVec.ofNat 64 v) with begun := true }
      | none =>
      match s.spillCopies core ctx with
      | some s => .next ((s.onCoreCtx core ctx (fun c => { c with ladder := .out })).oweOnce (.restoreComplete core))
      | none => nothing
  else nothing

/-! ### The park rule (R320, R321) -/

/-- A group is parked when its sample reason would be 4, 6 or 12 (R303, R320), as its last decision found it. -/
def State.isParked (s : State) (t : Team) (g : Group) : Bool :=
  !g.parked.isEmpty || (if g.wait ≠ .none ∧ !(s.waitMet t g) then s.waitReason t g == 6 else g.stall == 4 || g.stall == 6)

/-- The park rule takes a context out (R317, R319, R320): as HALT does, but its spill draws on budget 5. -/
def State.parkOut (s : State) (core ctx : Nat) : State :=
  (s.coopCores ctx (s.launches.length + 1) [core]).foldl (fun s c =>
    if (s.coreCtx c ctx).ladder == .halt then s.onCoreCtx c ctx (fun x => { x with park := true }) else s) (s.enterHalt core ctx)

/-- PARK_RULE (R320): enough groups have been parked for the window and another context is ready, so the core swaps at once. -/
def execParkRule (core : Nat) (s : State) : Outcome State Fault Refusal :=
  match (s.core core).active with
  | none => nothing
  | some x =>
    match s.ctx? x with
    | none => nothing
    | some c =>
      let gs := ((s.teams.filter (fun t => t.ctx == x && !t.ended)).map (fun t =>
        (t.groups.filter (fun g => g.core == core && !g.ended)).map (fun g => (t, g)))).flatten
      let thr := (fld c.cxpark 16 8).toNat
      if c.cxpark.getLsbD 31 && thr != 0 && (fld c.cxpark 0 16) != 0#16 && !gs.isEmpty && (s.core core).shadow.isSome &&
         (s.coreCtx core x).ladder == .run && decide (thr * gs.length ≤ 256 * (gs.filter (fun x => s.isParked x.1 x.2)).length) then
        .next (s.parkOut core x)
      else nothing

/-! ### Recall (R326-R330) -/

/-- The running launches of a queue; a twin's copies are not the queue's. -/
def State.running (s : State) (q : Queue) : List Launch := s.launches.filter (fun l => l.queue == q.num && l.ctx == q.ctx)

/-- The running teams of a launch. -/
def State.teamsOf (s : State) (l : Launch) : List Team := s.teams.filter (fun t => t.launch == l.uid && !t.ended)

/-- The sum of the times that some teams have run, a free value for each (R327). -/
def State.elapsed (s : State) (ts : List Team) : Nat := sumOf (ts.map (fun t => Config.freeElapsed (s.freeTick + t.uid)))

/-- The bytes of a context to save on a core (R327): its allocation, with as many scratchpad lines as are tracked as dirty, which the spec
does not define, so a free value, and its teams' held copies. -/
def State.spillBytes (s : State) (ctx core : Nat) : Nat :=
  256 * (s.bankLines ctx core + Config.freeSpill (s.freeTick + core) % (s.padLines ctx core + 1) +
    (s.held.filter (fun h => h.ctx == ctx && h.place == .way && (s.placedOn ctx core).any (fun t => t.uid == h.team))).length)

/-- Spill(q) in µs (R327): of the core with most bytes to save. -/
def State.spillTime (s : State) (q : Queue) : Nat :=
  (maxOf ((List.range Config.numCores).map (s.spillBytes q.ctx)) + 217599) / 217600

/-- Fin(L) ≤ D − 2 × Spill(q) − 50 (R327, R328), compared exactly; with no running team the estimate is a free value. -/
def State.finishesBy (s : State) (q : Queue) (l : Launch) (due : Nat) : Bool :=
  let ts := s.teamsOf l
  let r := ts.length
  let u := l.teamCount - l.ended.length - r
  let bound : Int := (due : Int) - 2 * (s.spillTime q : Int) - 50
  if r = 0 then decide ((Config.freeElapsed (s.freeTick + l.uid) : Int) ≤ bound) else
  let n := max l.ended.length 1
  let total := if l.ended.isEmpty then q.deft.toNat else l.sumTime
  let rest : Int := max 0 ((total * (u + r) : Nat) - (n * s.elapsed ts : Nat) : Int)
  decide (rest ≤ (n * r : Nat) * bound)

/-- Every running team of a queue may be run again. -/
def State.allRelaunchable (s : State) (q : Queue) : Bool :=
  (s.running q).all (fun l => (s.teamsOf l).all (fun t => ((s.image? l.image).map (fun m => relaunchable m t)).getD false))

/-- Rows 2 and 3 of R328. -/
def State.stopAction (s : State) (q : Queue) (noDiscard : Bool) : Nat :=
  let ts := ((s.running q).map s.teamsOf).flatten
  if !noDiscard && s.allRelaunchable q && decide (s.elapsed ts ≤ s.spillTime q * ts.length) then 2 else 1

/-- The action of a queue (R328). -/
def State.recallAction (s : State) (q : Queue) (due : Nat) (noDiscard : Bool) : Nat :=
  if (s.running q).all (fun l => s.finishesBy q l due) then 0 else s.stopAction q noDiscard

/-- Checkpoint a queue (R326): the cores that hold a team of it go to HALT. -/
def State.checkpoint (s : State) (q : Queue) : State :=
  let ts := ((s.running q).map s.teamsOf).flatten
  let cores := ts.foldl (fun acc t => t.cores.foldl (fun acc c => addOnce c acc) acc) []
  cores.foldl (fun s c => s.enterHalt c q.ctx) s

/-- A context that has no team left on a core releases it (R326, R328). -/
def State.releaseCores (s : State) (ctx : Nat) : State :=
  s.cores.foldl (fun s c =>
    if (c.active = some ctx ∨ c.shadow = some ctx) ∧ (s.placedOn ctx c.core).isEmpty then s.leaveBanks ctx c.core else s) s

/-- Discard a queue (R324, R326): its relaunchable running teams rejoin their launch, its other teams are checkpointed. -/
def State.discard (s : State) (q : Queue) : State :=
  let s := (s.running q).foldl (fun s l => (s.teamsOf l).foldl (fun s t =>
    if ((s.image? l.image).map (fun m => relaunchable m t)).getD false then s.rejoin t ⟨t.tlin, t.errs, t.errCores⟩ else s) s) s
  (s.checkpoint q).releaseCores q.ctx

/-- Apply an action to a queue and report it (R326). -/
def State.act (s : State) (q : Queue) (a : Nat) : State :=
  let mine := fun (t : Team) => ((s.launch? t.launch).map (fun l => l.queue == q.num)).getD false
  let s := s.send (.recall q.num a)
  match a with
  | 1 => ((s.checkpoint q).releaseCores q.ctx).saveStray q.ctx mine
  | 2 => (s.discard q).saveStray q.ctx mine
  | _ => s.releaseCores q.ctx

/-- RECALL (R326-R328, R349): admission of the contexts' queues stops, their twins are discarded, and each queue gets its action. -/
def execRecall (fn : Nat) (mask : Dword) (due : Nat) (noDiscard : Bool) (s : State) : Outcome State Fault Refusal :=
  hostCmd s fn 0x000B true ((maskCtxs mask).all (s.ownCtx fn))
    (let qs := s.queues.filter (fun q => mask.getLsbD q.ctx)
     let acts : List (Nat × Nat) := qs.map (fun q => (q.num, s.recallAction q due noDiscard))
     let tick := s.freeTick + s.nextId + 256
     let s := (s.twins.filter (fun w => mask.getLsbD w.orig)).foldl (fun s w => s.discardTwin w.num) s
     let s := { s with
       ctxs := s.ctxs.map (fun (c : Ctx) => if mask.getLsbD c.num then { c with recalled := true } else c)
       recalls := s.recalls.filter (fun (r : RecallSt) => r.mask != mask) ++ [RecallSt.mk mask due noDiscard acts false] }
     let s := qs.foldl (fun s q => s.act q (lookupD q.num 0 acts)) s
     ({ s with freeTick := tick } : State).done fn 0x000B ((acts.map (fun (a : Nat × Nat) => [BitVec.ofNat 8 a.1, BitVec.ofNat 8 a.2])).flatten))

/-- Give a queue another action in the recall that names its context. -/
def State.setAction (s : State) (queue ctx a : Nat) : State :=
  { s with recalls := s.recalls.map (fun r => if r.mask.getLsbD ctx then { r with actions := putKey queue a r.actions } else r) }

/-- RECALL_SWITCH_TIME (R329): a RUN queue that still has a team resident takes action 2 or 3 of R328. -/
def execRecallSwitchTime (queue : Nat) (s : State) : Outcome State Fault Refusal :=
  match s.queue? queue with
  | none => nothing
  | some q =>
    match s.recallOf q.ctx with
    | none => nothing
    | some r =>
      if r.action queue ≠ 0 ∨ ((s.running q).map s.teamsOf).flatten.isEmpty then nothing else
      let a := s.stopAction q r.noDiscard
      .next { (s.setAction queue q.ctx a).act q a with freeTick := s.freeTick + s.nextId + 256 }

/-- Something of a context is still resident on a core (R329): it is in a bank, or its spill has not completed. -/
def State.residentOn (s : State) (ctx core : Nat) : Bool :=
  (s.core core).active == some ctx || (s.core core).shadow == some ctx ||
    (!(s.placedOn ctx core).isEmpty && !((s.coreCtx core ctx).saved && (s.coreCtx core ctx).ladder == .out))

/-- Kill what is left of a context at the due date of its recall (R329): its lines and tiles have been zeroed by then, the copies left in ways are saved, and
teams whose copies the areas cannot take are killed too. -/
def State.recallKill (s : State) (ctx : Nat) : State :=
  let s := (List.range Config.numCores).foldl (fun s core =>
    if s.residentOn ctx core then
      let hit := s.queues.filter (fun q => (s.running q).any (fun l => (s.placedOn ctx core).any (fun t => t.launch == l.uid)))
      hit.foldl (fun s q => (s.setAction q.num ctx 3).send (.recall q.num 3)) (s.killCore core ctx false 0x00 0x02 0)
    else s) s
  let s := s.saveStray ctx (fun _ => true)
  let left := s.teams.filter (fun t => t.ctx == ctx && s.held.any (fun h => h.team == t.uid && h.place == .way))
  let hit := s.queues.filter (fun q => (s.running q).any (fun l => left.any (fun t => t.launch == l.uid)))
  let s := hit.foldl (fun s q => (s.setAction q.num ctx 3).send (.recall q.num 3)) (s.killTeams left false 0x00 0x02 0)
  { s with scrubs := s.scrubs.filter (fun x => x.ctx != ctx) }

/-- RECALL_DUE (R329). -/
def execRecallDue (mask : Dword) (s : State) : Outcome State Fault Refusal :=
  if s.recalls.any (fun r => r.mask == mask) then .next ((maskCtxs mask).foldl State.recallKill s)
  else nothing

/-- RECALL_LIFT (R330): the contexts take launches again, discarded teams are placed again, and saved contexts are restored on the
same cores. -/
def execRecallLift (fn : Nat) (mask : Dword) (s : State) : Outcome State Fault Refusal :=
  hostCmd s fn 0x000B true ((maskCtxs mask).all (s.ownCtx fn))
    (if !(s.recalls.any (fun r => r.mask == mask)) then s.refused fn 0x000B else
     let s := { s with recalls := s.recalls.filter (fun (r : RecallSt) => r.mask != mask) }
     let s := { s with ctxs := s.ctxs.map (fun (c : Ctx) => { c with recalled := (s.recallOf c.num).isSome }) }
     let free := s.ctxs.filter (fun c => mask.getLsbD c.num && !c.recalled)
     let s := (s.queues.filter (fun q => free.any (fun c => c.num == q.ctx))).foldl State.startLifted s
     let s := free.foldl (fun s c => ((s.oweRestores c.num).oweOnce (.launchAdmission c.slice)).oweOnce (.dispatchDecision c.slice)) s.fillWays
     let cores := (s.teams.filter (fun t => free.any (fun c => c.num == t.ctx))).foldl (fun acc t => t.cores.foldl (fun acc c => addOnce c acc) acc) []
     (cores.foldl (fun s c => s.oweOnce (.restoreComplete c)) s).done fn 0x000B [])

end Sys2Proof.Machine
end

