-- ==== Sys2Proof/Machine/Sampling.lean ====
section
/-!
DEFINITION. The sampling unit of a core, the host's writes of special registers and of its mailbox, and the period of the background
budgets (R28, R298, R300-R304, R306, R336, R337, R398).
-/
namespace Sys2Proof.Machine

open Host (Outcome)

/-! ### Stall samples (R301-R303, R306) -/

/-- The resident groups of a context on a core, by slot and position. -/
def State.residents (s : State) (core ctx : Nat) : List (Nat × Team × Group) :=
  sortBy (fun (x : Nat × Team × Group) => x.1) ((s.teams.filter (fun t => t.ctx == ctx && !t.ended)).map (fun t =>
    (t.groups.filter (fun g => g.core == core && !g.ended)).map (fun g => (g.slot * 16 + g.pos, t, g)))).flatten

/-- The group that a sample goes to: the first after the one sampled last, wrapping round (R301). -/
def State.sampled (s : State) (core : Nat) : Option (Nat × Team × Group) :=
  match (s.core core).active with
  | none => none
  | some ctx =>
    let gs := s.residents core ctx
    match (s.core core).smpKept with
    | some (sl, p) => (gs.find? (fun x => decide (sl * 16 + p < x.1))).orElse (fun _ => gs.head?)
    | none => gs.head?

/-- Every live lane is blocked at a WAITM (R303). -/
def Group.blocked (g : Group) : Bool := (lanesOf g.live g.lanes.length).all (fun l => (g.lane l).waitm.isSome)

/-- The instruction word at a group's issue address. -/
def State.issueWord (s : State) (t : Team) (g : Group) : Word :=
  match g.fragment, s.imageOf t with
  | some (ia, _), some m => getAt m.code (ia.toNat / 4) 0
  | _, _ => 0

/-- What makes the instructions of two groups conflict in one cycle (R296): 9 a port, 10 a register bank. -/
def conflict (w v : Word) (slot slot' : Nat) : Option Nat :=
  if portConflict w v then some 9 else if slot % 4 = slot' % 4 then some 10 else none

/-- A group that nothing it met at its last decision holds has an instruction to issue: a fragment, and no trap that it would take instead. -/
def State.offers (s : State) (t : Team) (g : Group) : Bool :=
  s.unstalled t g && (match g.fragment with | some (_, e) => g.chain.isSome || (g.dueTrap e).isNone | none => false)

/-- What timing holds a group in the sampled cycle, a free value (R100, R132): 1 the latency of a result, 2 a busy divider or function unit. -/
def State.holdOf (s : State) (g : Group) : Nat := (Config.freeHold (s.freeTick * 4096 + g.slot * 16 + g.pos)).val

/-- A group's next issue is a whole chain, of which it has issued none (R17). -/
def State.headsChain (s : State) (t : Team) (g : Group) : Bool :=
  match g.fragment, s.imageOf t with
  | some (ia, _), some m => g.chain.isNone && (chainFrom m.code (ia.toNat / 4)).isSome
  | _, _ => false

/-- A group's next issue needs a divider or function unit of its port: its instruction, or the last member of the chain that it heads (R17). A
chain in progress has it. -/
def State.wantsUnit (s : State) (t : Team) (g : Group) : Bool :=
  match g.fragment, s.imageOf t with
  | some (ia, _), some m => g.chain.isNone && unitWord (getAt m.code ((chainFrom m.code (ia.toNat / 4)).getD (ia.toNat / 4)) 0)
  | _, _ => false

/-- A busy divider or function unit holds a group. -/
def State.unitHeld (s : State) (x : Team × Group) : Bool := s.holdOf x.2 == 2 && s.wantsUnit x.1 x.2

/-- The groups of a core's active context that offer an instruction which no latency holds, by age, but for those within a chain. -/
def State.upOn (s : State) (core ctx : Nat) : List (Team × Group) :=
  (sortBy (fun (x : Nat × Team × Group) => x.1) ((s.teams.filter (fun t => t.ctx == ctx)).map (fun t =>
    (t.groups.filter (fun g => g.core == core && s.offers t g && g.chain.isNone && s.holdOf g != 1)).map (fun g => (g.age, t, g)))).flatten).map
      (fun x => x.2)

/-- A group of a list is the one that is sampled. -/
def isGroup (t : Team) (g : Group) (x : Team × Group) : Bool := x.1.uid == t.uid && x.2.idx == g.idx

/-- The reason of a group after those that port 0 takes, of which `w` and `slot` are one's instruction and slot (R295, R296, R306): the first that
nothing keeps from port 1 goes out on it; the oldest says what keeps it from there, and the others were not selected. -/
def State.afterFirst (s : State) (w : Word) (slot : Nat) (rest : List (Team × Group)) (t : Team) (g : Group) : Nat :=
  let clash := fun (x : Team × Group) => if s.unitHeld x then some 9 else conflict w (s.issueWord x.1 x.2) slot x.2.slot
  if ((rest.find? (fun x => (clash x).isNone)).map (isGroup t g)).getD false then 0 else
  match rest.head? with
  | some x => if isGroup t g x then (clash x).getD 1 else 1
  | none => 1

/-- In normal mode (R295, R296, R306): port 0 takes the oldest group that its unit does not hold, with its bundle, and port 1 its second fragment or
another group. A chain in progress keeps its port, and two both. -/
def State.normalReason (s : State) (t : Team) (g : Group) : Nat :=
  let rest := s.upOn g.core t.ctx
  let chains := (s.teams.filter (fun u => u.ctx == t.ctx)).map (fun u => (u.groups.filter (fun h => h.core == g.core && h.chain.isSome && !h.ended)).map (fun h => (u, h)))
  match chains.flatten with
  | [x] => s.afterFirst (s.issueWord x.1 x.2) x.2.slot rest t g
  | _ :: _ :: _ => 1
  | [] =>
    let first := fun (xs : List (Team × Group)) => if (xs.head?.map (fun x => isGroup t g x && s.unitHeld x)).getD false then 9 else 1
    match rest.find? (fun x => !(s.unitHeld x)) with
    | none => first rest
    | some (v, h) =>
      let mates := if s.headsChain v h then [h.idx] else s.bundle v.uid h.idx
      let inBundle := fun (x : Team × Group) => x.1.uid == v.uid && (x.2.idx == h.idx || mates.contains x.2.idx)
      let others := rest.filter (fun x => !(inBundle x))
      if inBundle (t, g) then 0 else
      if (s.mate v h).isSome then first others
      else s.afterFirst (s.issueWord v h) h.slot others t g

/-- In deterministic mode (R297, R332): port 0 takes the group whose turn it is, if it is ready, with those of its slot that follow it in the rotation,
ready and at its address; port 1 takes the rotation's next, if it is ready and does not conflict, and nothing beside a chain. -/
def State.detReason (s : State) (t : Team) (g : Group) : Nat :=
  let rot := (s.rotation g.core t.ctx).filterMap (fun x => match s.team? x.2.1, s.group? x.2.1 x.2.2 with
    | some v, some h => some (v, h)
    | _, _ => none)
  let ready := fun (x : Team × Group) => s.offers x.1 x.2 && s.holdOf x.2 != 1 && !(s.unitHeld x)
  match s.turnOf g.core t.ctx with
  | none => 13
  | some (u, k) =>
    let turn := fun (x : Team × Group) => x.1.uid == u && x.2.idx == k
    let after := rot.dropWhile (fun x => !(turn x))
    match after with
    | [] => 13
    | (v, h) :: _ =>
      if !(ready (v, h)) then 13 else
      if h.chain.isSome || s.headsChain v h then (if turn (t, g) then 0 else 1) else
      let run := after.takeWhile (fun x => ready x && x.2.slot == h.slot && !(s.headsChain x.1 x.2) &&
        x.2.fragment.map (fun f => f.1) == h.fragment.map (fun f => f.1))
      if run.any (isGroup t g) then 0 else
      match (after.drop run.length ++ rot.takeWhile (fun x => !(turn x))).head? with
      | some x => if isGroup t g x && !(s.headsChain t g) then (conflict (s.issueWord v h) (s.issueWord t g) h.slot g.slot).getD 0 else 1
      | none => 1

/-- The in-field test holds the ports of a core's cluster in the sampled cycle (R380): when is a free value, within budget 3 of its die. -/
def State.testHolds (s : State) (core : Nat) : Bool := !(s.spent 3 (dieOfCore core)) && Config.freeTest (s.freeTick * 64 + core / 8)

/-- The reason of a group that nothing but the issue unit and timing hold back in the sampled cycle (R295-R297, R303, R306, R380): 0 where it issues in
that cycle, on either port. -/
def State.readyReason (s : State) (t : Team) (g : Group) : Nat :=
  if s.holdOf g = 1 then 2
  else if s.testHolds g.core then 15
  else if s.isDet t then (if s.unitHeld (t, g) then 9 else s.detReason t g)
  else if g.chain.isSome then 0
  else s.normalReason t g

/-- REASON of a group as the issue decision of the sampled cycle finds it (R303, R306). -/
def State.sampleReason (s : State) (t : Team) (g : Group) : Nat :=
  if !g.parked.isEmpty then 12 else
  if g.wait ≠ .none ∧ !(s.waitMet t g) then s.waitReason t g else
  if g.stall ≠ 0 then g.stall else
  if g.fragment.isNone then (if g.blocked then 7 else if g.yielded then 14 else 15)
  else if s.offers t g then s.readyReason t g else 15

/-- PC of a record (R302). -/
def Group.samplePc (g : Group) : Word :=
  match g.fragment with
  | some (ia, _) => ia
  | none => (leastPc ((lanesOf g.live g.lanes.length).map (fun l => (g.lane l).pcv))).getD 0

/-- A sampling record (R302). -/
def sampleRecord (pc : Word) (tlin : Nat) (seq : Word) (reason slot grp ctx : Nat) : List Byte :=
  leBytes 4 pc.toNat ++ leBytes 4 tlin ++ leBytes 4 seq.toNat ++
    leBytes 4 (reason % 16 * 2 ^ 28 + slot % 128 * 2 ^ 21 + grp % 512 * 2 ^ 12 + ctx % 64 * 64)

/-- WIDX of sr.smpctl (R300). -/
def widx (w : Word) : Nat := (fld w 16 12).toNat

/-- STALL_SAMPLE (R301, R302): a sample finds no group, or one that is suspended, and does nothing; else it is dropped, or written to
the next record. -/
def execStallSample (core : Nat) (s : State) : Outcome State Fault Refusal :=
  let c := s.core core
  if !s.up || !(c.smpctl.getLsbD 31) || decide ((fld c.smpctl 0 16).toNat < 16) then .fault .eventCannotOccur else
  let s1 := s.onCore core (fun c => { c with smpK := c.smpK + 1 })
  match s.sampled core with
  | none => .next s1
  | some (_, t, g) =>
    let s1 := s1.onCore core (fun c => { c with smpKept := some (g.slot, g.pos) })
    let len := (c.smpbuf.extractLsb' 0 12).toNat
    if g.susp then .next s1 else
    if c.smpctl.getLsbD 30 || len = 0 then
      .next (s1.onCore core (fun c => { c with smpdrop := if c.smpdrop = 0xFFFFFFFF#32 then c.smpdrop else c.smpdrop + 1 }))
    else
      let base := (c.smpbuf.extractLsb' 12 40).toNat * 4096
      let rec_ := sampleRecord g.samplePc t.tlin c.smpK (s.sampleReason t g) g.slot g.idx t.ctx
      let next := widx c.smpctl + 1
      match s1.putHome 64 (cellsAt (base + 16 * widx c.smpctl) rec_) with
      | none => .fault .eventCannotOccur
      | some s2 =>
        let ctl : Word := (c.smpctl &&& 0x8000FFFF#32) ||| BitVec.ofNat 32 (next % 4096 * 65536) ||| (if next = len then 0x40000000#32 else 0)
        .next ({ s2 with freeTick := s2.freeTick + 1 }.onCore core (fun c => { c with smpctl := ctl }))

/-! ### Host writes of registers (R28, R300, R304, R336, R337) -/

/-- SMPCTL_WRITE (R300, R301): setting EN clears FULL, WIDX and sr.smpdrop and starts the count of samples again. -/
def execSmpctlWrite (core : Nat) (v : Word) (s : State) : Outcome State Fault Refusal :=
  if Config.numCores ≤ core then .fault .eventCannotOccur else
  if v.getLsbD 31 then
    .next (s.onCore core (fun c => { c with smpctl := v &&& 0x8000FFFF#32, smpdrop := 0, smpK := 0, smpKept := none }))
  else .next (s.onCore core (fun c => { c with smpctl := v &&& 0x4FFFFFFF#32 }))

/-- The host writes its mailbox without starting a command (R398): number 0x80 is MBCTL with GO 0, and 0x81 to 0xA0 the doublewords of
MBARG; a busy mailbox stays busy. -/
def State.writeMailbox (s : State) (fn num : Nat) (v : Dword) : State :=
  if num = 0x80 then
    s.onMailbox fn (fun m => { m with ctl := (m.ctl &&& 0x40FF0000#32) ||| (v.setWidth 32 &&& 0x2000FFFF#32) })
  else
    let k := 8 * (num - 0x81)
    s.onMailbox fn (fun m => { m with arg := m.arg.take k ++ leBytes 8 v.toNat ++ m.arg.drop (k + 8) })

/-- HOST_REGISTER_WRITE (R28): the host writes sr.smpbuf or sr.smpdrop of a core, sr.wdog of core `unit / 64` and context
`unit mod 64`, or sr.bp or sr.wp of a context; or a mailbox of a function. -/
def execHostRegisterWrite (unit num : Nat) (v : Dword) (s : State) : Outcome State Fault Refusal :=
  let w : Word := v.setWidth 32
  if num = 0x32 ∧ unit < Config.numCores then
    .next (s.onCore unit (fun c => { c with smpbuf := v &&& 0x000FFFFFFFFFFFFF#64 }))
  else if num = 0x34 ∧ unit < Config.numCores then .next (s.onCore unit (fun c => { c with smpdrop := w }))
  else if num = 0x38 ∧ unit / 64 < Config.numCores ∧ (s.ctx? (unit % 64)).isSome then
    .next (s.onCoreCtx (unit / 64) (unit % 64) (fun c => { c with wdog := v }))
  else if 0x40 ≤ num ∧ num ≤ 0x47 ∧ (s.ctx? unit).isSome then
    .next (s.onCtx unit (fun c => { c with bp := setAt c.bp (num - 0x40) w }))
  else if (num = 0x48 ∨ num = 0x4A ∨ num = 0x4C ∨ num = 0x4E) ∧ (s.ctx? unit).isSome then
    .next (s.onCtx unit (fun c => { c with wp := setAt c.wp ((num - 0x48) / 2) v }))
  else if 0x80 ≤ num ∧ num ≤ 0xA0 ∧ unit ≤ 8 then .next (s.writeMailbox unit num v)
  else .fault .eventCannotOccur

/-! ### Budgets (R298) -/

/-- The corrected errors of a die and the corrected tiles of its cores so far (R384). -/
def State.corrections (s : State) (die : Nat) : Nat :=
  lookupD die 0 s.errors + sumOf ((s.cores.filter (fun c => dieOfCore c.core == die)).map (fun c => c.corrected))

/-- BUDGET_PERIOD (R298, R384): the use of the activities of a die starts again: dies 0 to 7 are compute dies (3, 5 and 6), which also note
their corrections at the start of the period, 8 to 23 the base dies of stacks 0 to 15 (0, 1 and 4), and 24 is IO1 (2). -/
def execBudgetPeriod (die : Nat) (s : State) : Outcome State Fault Refusal :=
  let (ns, key) : List Nat × Nat := if die < 8 then ([3, 5, 6], die) else if die < 24 then ([0, 1, 4], die - 8) else ([2], 0)
  if 24 < die then .fault .eventCannotOccur
  else .next { s with
    bguse := s.bguse.filter (fun u => !(ns.contains u.1 && u.2.1 == key))
    errHist := if die < 8 then putKey die ((s.corrections die :: lookupD die [] s.errHist).take 127) s.errHist else s.errHist }

end Sys2Proof.Machine
end

