-- ==== Sys2Proof/Machine/HostMem.lean ====
section
/-!
DEFINITION. What the host does to memory: fills and refusals of faults, invalidations, page migration, CXL.mem accesses, windows,
frames and their scrubbing, publishable regions and the slice table (R193, R274-R282, R391, R397, R399).
-/
namespace Sys2Proof.Machine

open Host (Outcome Cell)

/-! ### Table entries (R272) -/

/-- The address of the entry at which a walk ends, and the bytes that a leaf there maps. -/
def walkEntry (mem : List Cell) (va : Nat) : Nat → List (Nat × Nat × Nat) → Option (Nat × Nat)
  | _, [] => none
  | base, (sh, n, page) :: rest =>
    let a := base + 8 * (va / 2 ^ sh % n)
    let e : Dword := BitVec.ofNat 64 (leNat (Memory.read mem a 8))
    if e.getLsbD 0 && !(e.getLsbD 1) && !rest.isEmpty then walkEntry mem va (entryAddr e) rest else some (a, page)

/-- The host, or the part for itself, writes physical memory at its home (R397): outside every twin's view, and in its turn on a page that
migrates (R278). -/
def State.hostPut (s : State) (pa : Nat) (bs : List Byte) : Option State := s.putQueued 64 (cellsAt pa bs)

/-- The line of another part that a command of the controller has asked for or written. -/
def State.far? (s : State) (part addr : Nat) (write : Bool) : Option FarLine :=
  s.far.find? (fun x => x.part == part && x.addr == addr && x.write == write)

/-- The controller sends a request of die 0 to another part for a command, if it may, and keeps its line (R403; log 24). -/
def State.askFar (s : State) (ctx kind part addr : Nat) (payload : List Byte) : State :=
  if !(s.mayRequest kind 0 part addr) then s else
  let s := s.request kind 0 s.nextId ctx part addr 0 payload none none false
  { s with reqs := s.reqs.map (fun r => if r.id + 1 = s.nextId then { r with monitor := some (256, kind, addr) } else r)
           far := s.far ++ [⟨part, addr, kind == 2, none, true⟩] }

/-- The controller writes bytes at another part, a store packet for each line that it has not yet written; whether all are performed, once they
are answered. -/
def State.putFar (s : State) (ctx part : Nat) : Nat → Nat → List Byte → State × Option Bool
  | 0, _, _ => (s, some true)
  | k + 1, addr, bs =>
    if bs.isEmpty then (s, some true) else
    let n := 256 - addr % 256
    let (s, r) := (if (s.far? part addr true).isSome then s else s.askFar ctx 2 part addr (storePayload (addr / 256) (cellsAt addr (bs.take n)))).putFar ctx part k
      (addr + n) (bs.drop n)
    match s.far? part addr true, r with
    | some x, some ok => if x.data.isSome then (s, some (x.ok && ok)) else (s, none)
    | _, _ => (s, none)

/-- The controller writes bytes into a context's memory, page by page: false where the context has no such page, or another part refuses a line of it, and
none while another part has not answered. None waits. -/
def State.placeBytes (s : State) (ctx : Nat) (u : Use) : Nat → Nat → List Byte → Option (State × Option Bool)
  | 0, _, bs => some (s, some bs.isEmpty)
  | k + 1, va, bs =>
    if bs.isEmpty then some (s, some true) else
    let n := 65536 - va % 65536
    match s.vaLoc ctx va u with
    | some l =>
      match (if l.part = s.part then (s.hostPut l.pa (bs.take n)).map (fun s => (s, some true)) else some (s.putFar ctx l.part 257 l.pa (bs.take n))) with
      | some (s, some true) => s.placeBytes ctx u k (va + n) (bs.drop n)
      | r => r
    | none => some (s, some false)

/-! ### Faults and invalidations (R274, R275) -/

/-- Update every group that has parked on a page of a context. -/
def State.onParked (s : State) (ctx page : Nat) (f : Group → Group) : State :=
  { s with teams := s.teams.map (fun (t : Team) => if t.ctx = ctx then
      { t with groups := t.groups.map (fun (g : Group) => if g.parked.contains page then f g else g) } else t) }

/-- Forget the record of a fault. -/
def State.answerFault (s : State) (ctx page : Nat) : State :=
  { s with faultq := s.faultq.filter (fun r => !(r.ctx == ctx && r.page == page)) }

/-- FAULT_FILL (R274): the host has written a leaf, and posts a fill: parked groups repeat their checks. -/
def execFaultFill (ctx va : Nat) (leaf : Dword) (s : State) : Outcome State Fault Refusal :=
  let page := pageOf (BitVec.ofNat 64 va)
  match s.ctx? ctx with
  | none => nothing
  | some c =>
    if !(s.faultq.any (fun r => r.ctx == ctx && r.page == page)) then nothing else
    match walkEntry s.mem va c.base walkLevels with
    | none => nothing
    | some (a, _) =>
      match s.hostPut a (leBytes 8 leaf.toNat) with
      | none => nothing
      | some s => .next ((s.answerFault ctx page).onParked ctx page (fun g => { g with parked := g.parked.filter (fun p => p != page) }))

/-- The slice of a team copy that the engine is at, when it waits for a page (R191, R274). -/
def State.sliceWaits (s : State) (c : TeamCopy) (page : Nat) : Option (Nat × Slice × State × Bool) :=
  match (sortBy (fun (x : Slice) => x.grp) c.slices).find? (fun x => !x.ended) with
  | none => none
  | some sl =>
    match s.moveFrom c.team sl (sl.sectors - sl.landed) sl.landed with
    | (k, .wait s') =>
      let write := sl.dir == 1
      let va : Dword := BitVec.ofNat 64 (sl.gaddr k)
      if sl.dir ≠ 2 ∧ pageOf va = page ∧ s'.translate (s'.ctxOf c.team) va (if write then .write else .read) = .replay
      then some (k, sl, s', write) else none
    | _ => none

/-- Stop the slices that wait for a page with PAGE_FAULT (R191, R274). -/
def State.refuseSlices (s : State) (ctx page : Nat) : State :=
  (s.copies.filter (fun c => c.started && s.ctxOf c.team == ctx)).foldl (fun s c =>
    match s.sliceWaits c page with
    | some (k, sl, s', write) =>
      s'.endSlice c.team c.n { sl with landed := k } true 0x04 (if write then 1 else 0) (BitVec.ofNat 64 (sl.gaddr k))
    | none => s) s

/-- FAULT_REFUSAL (R274): every group parked on the page raises PAGE_FAULT when it repeats its checks. -/
def execFaultRefusal (ctx va : Nat) (s : State) : Outcome State Fault Refusal :=
  let page := pageOf (BitVec.ofNat 64 va)
  if !(s.faultq.any (fun r => r.ctx == ctx && r.page == page)) then nothing else
  let s := (s.refuseSlices ctx page).answerFault ctx page
  .next (s.onParked ctx page (fun g => { g with parked := g.parked.filter (fun p => p != page), refused := addOnce page g.refused }))

/-- A context or a twin of it. -/
def State.sameTables (s : State) (ctx c : Nat) : Bool := c == ctx || ((s.twinNum? c).map (fun w => w.orig == ctx)).getD false

/-- Rows of other parts that the engines of a context have asked for and not yet received (R187, R275). -/
def State.rowsAsked (s : State) (ctx : Nat) : Bool :=
  s.copies.any (fun c => s.sameTables ctx (s.ctxOf c.team) && c.slices.any (fun sl => sl.asked && !sl.ended && decide (sl.arrived.length < 32 * sl.sectors))) ||
    s.colls.any (fun c => s.sameTables ctx (s.ctxOf c.team) && c.src.asked && !c.src.ended && decide (c.src.arrived.length < 32 * c.src.sectors))

/-- HOST_INVALIDATE (R275): acknowledged once every access of a core or engine that used an old translation near the address has been
performed, the context's write-combining entries having drained; those of a frozen twin stay as they were captured (R343). What an uncommitted team has
stored at another part counts as held there (log 88). -/
def execHostInvalidate (ctx va : Nat) (s : State) : Outcome State Fault Refusal :=
  if s.rowsAsked ctx || s.accesses.any (fun a => s.sameTables ctx (s.ctxOf a.team) && a.lanes.any (fun x => x.va / 2 ^ 30 == va / 2 ^ 30)) then nothing else
  match s.drainAll (s.wc.filter (fun e => s.sameTables ctx e.ctx && s.runs e.ctx)) with
  | none => nothing
  | some s' =>
    if !(s'.reqs.any (fun r => s'.sameTables ctx r.pkt.ctx && (r.wc.isSome || r.acc.isSome || r.pkt.spray))) then .next (s'.send (.invalidated ctx va))
    else if s' = s then nothing else .next { s' with begun := true }

/-! ### Page migration (R277, R278) -/

/-- An address of the old page at the new one. -/
def Migration.map (m : Migration) (a : Nat) : Nat := if m.oldPa ≤ a ∧ a < m.oldPa + m.bytes then a - m.oldPa + m.newPa else a

/-- PAGE_MIGRATE (R277, R399, R400): a host command, not marked V, moves a page of HBM of this part to another home in the context's slice; a page that
is migrating is a busy target (log 115). A page of a publishable region is the one of its first half (log 35). -/
def execPageMigrate (fn ctx va newPa : Nat) (s : State) : Outcome State Fault Refusal :=
  let opc := (s.mailbox fn).ctl.toNat % 65536
  hostCmd s fn opc false false
    (match s.ctx? ctx with
     | none => s.refused fn opc
     | some c =>
       match walk s.mem va c.base walkLevels with
       | .leaf e page =>
         let pa := entryAddr e
         let beyond := fun (m : Migration) (p : Nat) => decide (m.oldPa < p + page ∧ p < m.oldPa + m.bytes) || decide (m.newPa < p + page ∧ p < m.newPa + m.bytes)
         if (e.extractLsb' 52 12).toNat ≠ s.part ∨ Config.hostBase ≤ pa ∨ newPa % page ≠ 0 ∨ Config.hostBase ≤ newPa ∨
            !((s.sliceStacks ctx).getLsbD (newPa / 2 ^ 36)) then s.badArg fn opc
         else if pa = newPa then s.refused fn opc
         else if s.migrations.any (fun m => beyond m pa || beyond m newPa) then s.busyTarget fn opc
         else
           (({ s with nextId := s.nextId + 1
                      migrations := s.migrations ++ [Migration.mk s.nextId ctx va pa newPa page .copy [] 0 []] } : State).owe
             (.migrationCopyEnd s.nextId)).done fn opc []
       | _ => s.badArg fn opc)

/-- The migration with an identifier. -/
def State.mig? (s : State) (id : Nat) : Option Migration := s.migrations.find? (fun m => m.id == id)

/-- Update one migration. -/
def State.onMig (s : State) (id : Nat) (f : Migration → Migration) : State :=
  { s with migrations := s.migrations.map (fun m => if m.id = id then f m else m) }

/-- MIGRATION_COPY_END (R277): the copier has passed the last line; more than 2,048 dirty lines give another pass, four at most, else
FREEZE begins. -/
def execMigrationCopyEnd (mig : Nat) (s : State) : Outcome State Fault Refusal :=
  match s.mig? mig with
  | none => nothing
  | some m =>
    if m.state ≠ .copy then nothing else
    if 2048 < m.dirty.length ∧ m.passes + 1 < 4 then
      .next ((s.onMig mig (fun m => { m with dirty := [], passes := m.passes + 1 })).owe (.migrationCopyEnd mig))
    else .next ((s.onMig mig (fun m => { m with state := .freeze, passes := m.passes + 1 })).owe (.migrationFreezeEnd mig))

/-- Move what belongs to the old page to the new one: its bytes and poison, held copies, local-release marks and overlay entries. -/
def State.movePage (s : State) (m : Migration) : State :=
  let inOld := fun (a : Nat) => decide (m.oldPa ≤ a ∧ a < m.oldPa + m.bytes)
  let inNew := fun (a : Nat) => decide (m.newPa ≤ a ∧ a < m.newPa + m.bytes)
  let cells := (s.mem.filter (fun c => inOld c.1)).map (fun c => (m.map c.1, c.2))
  { s with
    pubs := s.pubs.map (fun (p : PubRegion) => { p with moves := regionMove p.pa p.bytes m.oldPa m.newPa m.bytes p.moves })
    meters := s.meters.map (fun (k : Meter) => if k.closed then k else { k with moves := regionMove k.base (k.pages * 65536) m.oldPa m.newPa m.bytes k.moves })
    mem := Memory.writeCells (s.mem.filter (fun c => !(inNew c.1))) cells
    poison := (s.poison.filter (fun p => !(inNew (p * 32)))) ++ (s.poison.filter (fun p => inOld (p * 32))).map (fun p => m.map (p * 32) / 32)
    held := s.held.map (fun (h : HeldLine) => if inOld (h.line * 256) then { h with line := m.map (h.line * 256) / 256, cells := h.cells.map (fun c => (m.map c.1, c.2)) } else h)
    marks := s.marks.map (fun (k : Mark) => { k with line := m.map (k.line * 256) / 256 })
    twins := s.twins.map (fun (w : Twin) => { w with
      snap := w.snap.map (fun (h : HeldLine) => if inOld (h.line * 256) then { h with line := m.map (h.line * 256) / 256, cells := h.cells.map (fun c => (m.map c.1, c.2)) } else h)
      overlay := w.overlay.map (fun (o : OvLine) =>
      if inOld (o.line * 256) then { line := m.map (o.line * 256) / 256, cells := o.cells.map (fun c => (m.map c.1, c.2)) } else o) }) }

/-- MIGRATION_FREEZE_END (R277): the dirty lines, held copies and marks are at the new home, where the copies have ways (R269), and the leaf names it. -/
def execMigrationFreezeEnd (mig : Nat) (s : State) : Outcome State Fault Refusal :=
  match s.mig? mig with
  | none => nothing
  | some m =>
    if m.state ≠ .freeze then nothing else
    match (s.ctx? m.ctx).bind (fun c => walkEntry s.mem m.va c.base walkLevels) with
    | none => nothing
    | some (a, _) =>
      let e : Dword := BitVec.ofNat 64 (leNat (Memory.read s.mem a 8))
      let e' : Dword := (e &&& 0xFFF0000000000FFF#64) ||| BitVec.ofNat 64 m.newPa
      let s1 := s.movePage m
      -- the page's held copies have ways at the new home (R269)
      if !(s1.held.all (fun h => h.place != .way || !(decide (m.newPa ≤ h.line * 256 ∧ h.line * 256 < m.newPa + m.bytes)) || s1.waysHold (s1.sliceOf h.ctx) h.line))
      then nothing else
      match s1.putHome 64 (cellsAt a (leBytes 8 e'.toNat)) with
      | none => nothing
      | some s => .next (((s.onMig mig (fun m => { m with state := .drain })).runPuts mig m.queued).owe (.migrationDrainEnd mig))

/-- MIGRATION_DRAIN_END (R277): the queue has been performed at the new home; what still names the old page goes there too. -/
def execMigrationDrainEnd (mig : Nat) (s : State) : Outcome State Fault Refusal :=
  match s.mig? mig with
  | none => nothing
  | some m =>
    if m.state ≠ .drain then nothing else
    let s1 := s.runPuts mig m.queued
    if ((s1.mig? mig).map (fun m => m.queued.isEmpty)).getD false then
      .next { s1 with
        migrations := s1.migrations.filter (fun k => k.id != mig)
        accesses := s1.accesses.map (fun (a : Access) => { a with lanes := a.lanes.map (fun (x : LaneAcc) =>
          if x.loc.part = s.part then { x with loc := { x.loc with pa := m.map x.loc.pa } } else x) })
        wc := s1.wc.map (fun (e : WcEntry) => if e.part = s.part then
          { e with line := m.map (e.line * 256) / 256, cells := e.cells.map (fun c => (m.map c.1, c.2)), die := homeDie (m.map (e.line * 256)) } else e) }
    else if s1 = s then nothing else .next { s1 with begun := true }

/-! ### CXL.mem (R397, R391) -/

/-- CXL_MEM_READ (R397): performed at the home at system scope, so that it meets local-release marks (R245); a read of a metered page is
refused (R391), and a poisoned one gives no data (log 36). On a page in FREEZE or DRAIN it takes its turn (R278). In minimal mode the model's choice is that
the host reads and writes stacks 2 to 15, which that mode does not present (R405), as ordinary memory (log 116). -/
def execCxlMemRead (pa n : Nat) (s : State) : Outcome State Fault Refusal :=
  if n = 0 ∨ 256 < pa % 256 + n ∨ Config.hostBase ≤ pa ∨ !s.up then nothing else
  match s.joinQueue (.read pa n) pa with
  | some (s, new) => if new then .next { s with begun := true } else nothing
  | none =>
  if (s.meter? pa).isSome then .next ((s.send (.hostRead pa none)).unqueued (.read pa n)) else
  match s.serveMarks none s.part Config.numCores 0 6 [s.moved pa / 256] with
  | some (s, true) =>
    .next ((s.send (.hostRead pa (if s.poisoned (s.moved pa) n then none else some (Memory.read s.mem (s.moved pa) n)))).unqueued (.read pa n))
  | some (s', false) => if s' = s then nothing else .next { s' with begun := true }
  | none => nothing

/-- CXL_MEM_WRITE (R397): performed at the home at system scope, in minimal mode on every stack as a read is (log 116). Bytes at and above 2^40 are the
host's store to its own memory, whether the part is up or not. -/
def execCxlMemWrite (pa : Nat) (bytes : List Byte) (s : State) : Outcome State Fault Refusal :=
  if bytes.isEmpty ∨ 256 < pa % 256 + bytes.length ∨ (!s.up ∧ pa < Config.hostBase) then nothing else
  match s.hostPut pa bytes with
  | some s => .next s
  | none => nothing

/-- MAPWIN (R397, R399): a host-memory window of whole units of 2 MiB, one of 16; size 0 removes it. -/
def execMapwin (fn index base size : Nat) (s : State) : Outcome State Fault Refusal :=
  hostCmd s fn 0x0005 true true
    (if 16 ≤ index ∨ size % 2097152 ≠ 0 ∨ base % 2097152 ≠ 0 ∨ base < Config.hostBase ∨ 2 ^ 52 < base + size then s.badArg fn 0x0005 else
     let others := s.windows.filter (fun (w : Nat × Nat × Nat) => w.1 != index)
     ({ s with windows := if size = 0 then others else (index, base, size) :: others } : State).done fn 0x0005 [])

/-! ### Frames (R282, R338) -/

/-- The first frame from a number on, round the stack, that is in the clean pool. -/
def State.cleanFrom (s : State) (stack : Nat) : Nat → Nat → Nat
  | 0, k => stack * framesPerStack + k % framesPerStack
  | n + 1, k =>
    let f := stack * framesPerStack + k % framesPerStack
    if s.frames.any (fun x => x.1 == f) then s.cleanFrom stack n (k + 1) else f

/-- Hand out a frame of a stack to a slice (R282); which one is a free value. -/
def State.handOut (s : State) (slice stack : Nat) : Nat × State :=
  let f := s.cleanFrom stack s.frames.length (Config.freeFrame s.freeTick)
  (f, { s with frames := (f, .taken slice) :: s.frames, freeTick := s.freeTick + 1 })

/-- A row of the slice table (R280). -/
def State.sliceRow (s : State) (n : Nat) : SliceRow :=
  ((s.slices.find? (fun (r : Nat × SliceRow) => r.1 == n)).map (fun (r : Nat × SliceRow) => r.2)).getD ⟨0, 0⟩

/-- FRAME alloc (R282, R399, R400): a frame of a stack of the slice, at its physical address; the command stalls on an empty pool. The stack is
numbered part-wide, as PA[39:36] is (log 89). -/
def execFrameAlloc (fn slice stack : Nat) (s : State) : Outcome State Fault Refusal :=
  hostCmd s fn 0x0006 true (sliceOfFn fn == some slice)
    (if 16 ≤ stack ∨ !((s.sliceRow slice).stackSet.getLsbD stack) then s.badArg fn 0x0006 else
     if s.cleanCount stack = 0 then .next (s.stallCommand fn 0x0006 (.frame fn slice stack)) else
     let (f, s) := s.handOut slice stack
     s.done fn 0x0006 (leBytes 8 (f * 65536)))

/-- FRAME free (R282): the frame joins the scrub queue of its stack. -/
def execFrameFree (fn frame : Nat) (s : State) : Outcome State Fault Refusal :=
  let owner := s.frames.findSome? (fun f => if f.1 = frame then (match f.2 with | .taken n => some n | .scrub => none) else none)
  hostCmd s fn 0x0006 true (owner == sliceOfFn fn)
    (match owner with
     | none => s.refused fn 0x0006
     | some _ => { s with frames := s.frames.filter (fun (f : Nat × FrameState) => f.1 != frame) ++ [(frame, FrameState.scrub)] }.done fn 0x0006 [])

/-- TWINCTL as written: bits [29:13] read 0 (R338). -/
def twinctlValue (v : Word) : Word := v &&& 0xC0001FFF#32

/-- Set TWINCTL (R338): clearing EN, or OVLSZ 0, discards the context's twin, and what the reservation no longer needs joins the scrub queues
of the slice's stacks. -/
def State.setTwinctl (s : State) (ctx : Nat) (v : Word) : State :=
  let res := fun (s : State) => ((s.ctx? ctx).map Ctx.reserves).getD 0
  let old := res s
  let s := s.onCtx ctx (fun c => { c with twinctl := twinctlValue v })
  let left := old - res s
  let s := s.unreserveOverlay ctx left
  if v.getLsbD 31 && fld v 0 13 != 0#13 then s else
  match s.twinOf? ctx with
  | some w => s.discardTwin w.num
  | none => s

/-- Every stack of a context's slice has the frames that a TWINCTL value reserves (R338). -/
def State.canReserve (s : State) (ctx : Nat) (v : Word) : Bool :=
  let s := s.onCtx ctx (fun c => { c with twinctl := 0 })
  !(v.getLsbD 31) || (List.range 16).all (fun st => !((s.sliceStacks ctx).getLsbD st) || decide (16 * (fld v 0 13).toNat ≤ s.cleanCount st))

/-- Complete the stalled commands that can go on, with STATUS 0x04 (R400). -/
def State.serveStalls (s : State) : List Stalled → State
  | [] => s
  | c :: cs =>
    let left := fun (s : State) => { s with stalls := s.stalls.filter (fun x => x != c) }
    match c with
    | .frame fn slice stack =>
      if s.cleanCount stack = 0 then s.serveStalls cs else
      let (f, s) := (left s).handOut slice stack
      (s.answer fn 0x0006 0x04 (leBytes 8 (f * 65536))).serveStalls cs
    | .twinctl fn ctx v =>
      if s.canReserve ctx v then (((left s).setTwinctl ctx v).answer fn 0x000A 0x04 []).serveStalls cs else s.serveStalls cs

/-- A frame of a stack's scrub queue has joined the clean pool, and stalled commands may go on. -/
def State.scrubbed (s : State) : State :=
  let s := s.serveStalls s.stalls
  (List.range 8).foldl (fun s n => if (s.sliceClusters n).isEmpty then s else s.oweOnce (.dispatchDecision n)) s

/-- An allocation stalls on a stack's empty clean pool (R282, R338). -/
def State.stallsOn (s : State) (stack : Nat) : Bool :=
  s.stalls.any (fun c => match c with
    | .frame _ _ k => k == stack
    | .twinctl _ ctx _ => (s.sliceStacks ctx).getLsbD stack)

/-- How many units of an activity its budget still gives in the period (R298). -/
def State.budgetLeft (s : State) (n die : Nat) : Nat :=
  if (s.bgbudOf n die).getLsbD 31 then (s.bgbudOf n die).toNat % 2 ^ 24 - s.bguseOf n die else 0

/-- The lines of a frame that are scrubbed next: those left as far as budget 0 goes, or all of them while an allocation stalls on the stack (R298). -/
def State.scrubLines (s : State) (stack at_ : Nat) : Nat :=
  if s.stallsOn stack then 256 - at_ else min (256 - at_) (s.budgetLeft 0 stack)

/-- FRAME_SCRUB (R282, R298, R313, R338): lines of the first frame of a stack's scrub queue are written with zeros and lose their poison, as many as the
budget gives, and the whole frame joins the clean pool; then the frames of areas that have been given back. -/
def execFrameScrub (stack : Nat) (s : State) : Outcome State Fault Refusal :=
  match s.frames.find? (fun f => f.1 / framesPerStack == stack && f.2 == .scrub), takeFirst (fun (a : Nat × Nat) => a.1 == stack) s.scrubAreas with
  | none, none => nothing
  | frame, area =>
    let key := match frame with | some (f, _) => f + 16 | none => stack
    let at_ := lookupD key 0 s.scrubAt
    let n := s.scrubLines stack at_
    if n = 0 then nothing else
    let lo := match frame with | some (f, _) => f * 256 + at_ | none => 0
    let hit := fun (a : Nat) => frame.isSome && decide (lo ≤ a / 256 ∧ a / 256 < lo + n)
    match s.putCells 64 ((s.mem.filter (fun c => hit c.1)).map (fun c => (c.1, (0 : Byte)))) with
    | none => nothing
    | some s =>
      let s := ({ s with poison := s.poison.filter (fun p => !(hit (p * 32))) } : State).countUse 0 stack n
      if at_ + n < 256 then .next { s with scrubAt := putKey key (at_ + n) s.scrubAt, begun := true } else
      let s := { s with scrubAt := s.scrubAt.filter (fun x => x.1 != key) }
      .next (match frame, area with
        | some (f, _), _ => { s with frames := s.frames.filter (fun x => x.1 != f) }
        | none, some ((_, k), rest) => { s with scrubAreas := if k ≤ 1 then rest else (stack, k - 1) :: rest }
        | none, none => s : State).scrubbed

/-! ### Regions and slices (R193, R276, R280, R281) -/

/-- PUBREG (R193, R276): a publishable region of a context, of 2 × BYTES contiguous bytes from `pa`, at most 64 a context; 0 bytes
removes it, but for one whose background copy runs, which is busy (R400; log 115). -/
def execPubreg (fn ctx va bytes pa : Nat) (s : State) : Outcome State Fault Refusal :=
  hostCmd s fn 0x0007 true (s.ownCtx fn ctx)
    (let mine := s.pubs.filter (fun p => p.ctx == ctx)
     if (s.ctx? ctx).isNone then s.refused fn 0x0007 else
     if bytes = 0 then
       (if mine.any (fun p => p.va == va && !p.copying) then
          { s with pubs := s.pubs.filter (fun p => !(p.ctx == ctx && p.va == va)) }.done fn 0x0007 []
        else if mine.any (fun p => p.va == va) then s.busyTarget fn 0x0007 else s.refused fn 0x0007) else
     if va % 65536 ≠ 0 ∨ bytes % 65536 ≠ 0 ∨ pa % 65536 ≠ 0 ∨ Config.hostBase < pa + 2 * bytes then s.badArg fn 0x0007 else
     if 64 ≤ mine.length ∨ mine.any (fun p => decide (p.va < va + bytes ∧ va < p.va + p.bytes)) ∨
        s.pubs.any (fun p => decide (p.pa < pa + 2 * bytes ∧ pa < p.pa + 2 * p.bytes)) then s.refused fn 0x0007
     else { s with pubs := s.pubs ++ [PubRegion.mk ctx va bytes pa false false []] }.done fn 0x0007 [])

/-- A page of this part whose first address and size meet a test is mapped below a table (R272). -/
def mapsWhere (mem : List Cell) (part : Nat) (test : Nat → Nat → Bool) : Nat → List (Nat × Nat × Nat) → Bool
  | _, [] => false
  | base, (_, n, page) :: rest =>
    (List.range n).any (fun i =>
      let e : Dword := BitVec.ofNat 64 (leNat (Memory.read mem (base + 8 * i) 8))
      e.getLsbD 0 &&
        (if e.getLsbD 1 then page != 0 && (e.extractLsb' 52 12).toNat == part && test (entryAddr e) page
         else mapsWhere mem part test (entryAddr e) rest))

/-- A context is resident on a cluster: it is in a bank or has a team there. -/
def State.clusterBusy (s : State) (cluster : Nat) : Bool :=
  (List.range 8).any (fun k =>
    let core := cluster * 8 + k
    (s.core core).active.isSome || (s.core core).shadow.isSome || s.teams.any (fun t => t.cores.contains core))

/-- SLICESET (R280, R281, R400): a slice gets other clusters and stacks; a cluster or stack that changes must be free, else it is a busy target (log 115),
and none may be in two slices. What changes owner of the hubs' holdings is zeroed; minimal mode has one slice, of one cluster and two stacks (R405). -/
def execSliceset (fn slice : Nat) (clusters : BitVec 40) (stackSet : BitVec 16) (s : State) : Outcome State Fault Refusal :=
  hostCmd s fn 0x0009 false false
    (if 8 ≤ slice then s.badArg fn 0x0009 else
     let old := s.sliceRow slice
     let others := s.slices.filter (fun (r : Nat × SliceRow) => r.1 != slice)
     let dc := (List.range 40).filter (fun c => old.clusters.getLsbD c != clusters.getLsbD c)
     let ds := (List.range 16).filter (fun k => old.stackSet.getLsbD k != stackSet.getLsbD k)
     if others.any (fun r => r.2.clusters &&& clusters != 0 || r.2.stackSet &&& stackSet != 0) || (s.startMode != 1 && dc.any s.retired.contains) ||
        (s.startMode == 1 && (slice != 0 || clusters.toNat ≥ 2 || stackSet.toNat ≥ 4)) then s.refused fn 0x0009
     else if dc.any s.clusterBusy || ds.any (fun k => s.ctxs.any (fun c => mapsWhere s.mem s.part (fun a _ => a / 2 ^ 36 == k) c.base walkLevels)) then
       s.busyTarget fn 0x0009
     else
       let s := ({ s with slices := (slice, ⟨clusters, stackSet⟩) :: others } : State).rehold s
       (s.oweOnce (.dispatchDecision slice)).done fn 0x0009 [])

end Sys2Proof.Machine
end

