-- ==== Sys2Proof/Machine/Commands.lean ====
section
/-!
DEFINITION. Host commands on contexts, queues, images, registers, export windows and power (R73-R78, R272, R284, R299, R304, R321, R323,
R336, R338, R369, R384, R399, R403, R405, R406).
-/
namespace Sys2Proof.Machine

open Host (Outcome)

/-! ### Contexts and queues -/

/-- CTXNEW (R272, R399, R405): a context of a slice with its table base; minimal mode has one context. -/
def execCtxnew (fn ctx slice base : Nat) (s : State) : Outcome State Fault Refusal :=
  hostCmd s fn 0x0001 true (sliceOfFn fn == some slice)
    (if 64 ≤ ctx ∨ 8 ≤ slice ∨ base % 4096 ≠ 0 ∨ 2 ^ 52 ≤ base then s.badArg fn 0x0001 else
     if (s.ctx? ctx).isSome || (s.startMode == 1 && !s.ctxs.isEmpty) then s.refused fn 0x0001
     else { s with ctxs := s.ctxs ++ [Ctx.fresh ctx slice base] }.done fn 0x0001 [])

/-- CTXFREE (R399): refused while the context has a team or queue; its twin goes with it, and its overlay reservation returns. -/
def execCtxfree (fn ctx : Nat) (s : State) : Outcome State Fault Refusal :=
  hostCmd s fn 0x0002 true (s.ownCtx fn ctx)
    (if (s.ctx? ctx).isNone || (s.twinNum? ctx).isSome || s.teams.any (fun t => t.ctx == ctx) || s.queues.any (fun q => q.ctx == ctx)
     then s.refused fn 0x0002 else
     let s := s.setTwinctl ctx 0
     let s := { s with
       ctxs := s.ctxs.filter (fun c => c.num != ctx)
       coreCtxs := s.coreCtxs.filter (fun c => c.ctx != ctx)
       cores := s.cores.map (fun (c : CoreSt) => { c with active := if c.active = some ctx then none else c.active, shadow := if c.shadow = some ctx then none else c.shadow })
       faultq := s.faultq.filter (fun r => r.ctx != ctx)
       pubs := s.pubs.filter (fun p => p.ctx != ctx)
       facs := s.facs.filter (fun f => f.ctx != ctx) }
     let s := s.freeAreas (fun a => a.ctx == ctx)
     (s.serveStalls s.stalls).done fn 0x0002 [])

/-- QCREATE (R284): a queue that exists or a misaligned anchor fails the command. -/
def execQcreate (fn queue ctx : Nat) (deviceFed : Bool) (anchor : Nat) (repset : List Nat) (deft : Word) (s : State) : Outcome State Fault Refusal :=
  hostCmd s fn 0x0003 true (s.ownCtx fn ctx)
    (if 256 ≤ queue ∨ anchor % 64 ≠ 0 ∨ 2 ^ 64 ≤ anchor ∨ repset.length = 0 ∨ 64 < repset.length ∨ repset.head? ≠ some s.part ∨
        !(repset.all (fun p => decide (p < 4096))) ∨ repset.eraseDups ≠ repset then s.badArg fn 0x0003 else
     if (s.queue? queue).isSome || (s.ctx? ctx).isNone || (s.twinNum? ctx).isSome then s.refused fn 0x0003
     else { s with queues := s.queues ++ [Queue.mk queue ctx deviceFed anchor repset (if deft = 0 then 1000 else deft) [] 0 [] none] }.done fn 0x0003 [])

/-! ### Images (R73-R78, R403) -/

/-- Bytes of other parts between two addresses of a page, in lines of 128 bytes (log 15). -/
def farLines (l : Loc) (n : Nat) : List (Nat × Nat) :=
  (List.range ((l.pa % 128 + n + 127) / 128)).map (fun k => (l.part, (l.pa / 128 + k) * 128))

/-- Bytes at a virtual address of a context, page after page, and the lines of other parts among them that have not been read; no bytes where a page
is not the context's to read, or a line is refused. -/
def State.vaBytes (s : State) (ctx : Nat) : Nat → Nat → Nat → Option (List Byte) × List (Nat × Nat)
  | 0, _, n => (if n = 0 then some [] else none, [])
  | k + 1, va, n =>
    if n = 0 then (some [], []) else
    let m := min n (65536 - va % 65536)
    let (cs, more) := s.vaBytes ctx k (va + m) (n - m)
    match s.vaLoc ctx va .read with
    | none => (none, [])
    | some l =>
      if l.part = s.part then (cs.map (fun c => s.viewRead ctx l.pa m ++ c), more) else
      let xs := (farLines l m).map (fun x => (x, s.far? x.1 x.2 false))
      if xs.any (fun x => (x.2.map (fun f => !f.ok)).getD false) then (none, []) else
      (cs.map (fun c => ((xs.map (fun x => (x.2.bind (fun f => f.data)).getD [])).flatten.drop (l.pa % 128)).take m ++ c),
        (xs.filter (fun x => ((x.2.bind (fun f => f.data)).isNone))).map (fun x => x.1) ++ more)

/-- Go on with the bytes at an address, once other parts have answered for their lines (R403). -/
def State.withBytes (s : State) (ctx va n : Nat) (refuse : Outcome State Fault Refusal) (k : List Byte → Outcome State Fault Refusal) : Outcome State Fault Refusal :=
  match s.vaBytes ctx (n / 65536 + 2) va n with
  | (none, _) => refuse
  | (some bs, []) => k bs
  | (some _, xs) =>
    let s' := xs.foldl (fun s x => if (s.far? x.1 x.2 false).isSome then s else s.askFar ctx 1 x.1 x.2 (leBytes 1 128)) s
    if s' = s then nothing else .next { s' with begun := true }

/-- V of a relocation record (R75): the data base and the sign-extended ADDEND. -/
def relocValue (dataBase : Nat) (r : Dword) : Dword := BitVec.ofNat 64 dataBase + (r.extractLsb' 0 32).signExtend 64

/-- lo(V) or hi(V) of a record (R75). -/
def relocWord (dataBase : Nat) (r : Dword) : Word :=
  let v := relocValue dataBase r
  if r.getLsbD 62 then v.extractLsb' 32 32 else v.extractLsb' 0 32

/-- TARGET of a record (R75). -/
def relocTarget (r : Dword) : Nat := (r.extractLsb' 32 30).toNat

/-- The pool as the loader resolves it (R75, R105). -/
def resolvePool (dataBase : Nat) (pool : List Word) (relocs : List Dword) : List Word :=
  relocs.foldl (fun p r => if r.getLsbD 63 then p else setAt p (relocTarget r) (relocWord dataBase r)) pool

/-- The data section as the loader resolves it (R75): a word that would end past the section is not written. -/
def resolveData (dataBase : Nat) (data : List Byte) (relocs : List Dword) : List Byte :=
  relocs.foldl (fun d r =>
    let o := 4 * relocTarget r
    if r.getLsbD 63 && decide (o + 4 ≤ d.length) then d.take o ++ leBytes 4 (relocWord dataBase r).toNat ++ d.drop (o + 4) else d) data

/-- An image from its bytes, before the data section is placed: sizes from the header (R73, R74). -/
def Image.parse (addr ctx dataBase : Nat) (bs : List Byte) : Image :=
  let n := fun (off : Nat) => bytesAt bs off 4
  let recs := (bs.drop (128 + 4 * n 0x44)).take (8 * n 0x48)
  let relocs : List Dword := (chunksOf 8 (n 0x48) recs).map (fun c => BitVec.ofNat 64 (leNat c))
  { addr := addr, ctx := ctx, header := bs.take 128, pool := resolvePool dataBase (bytesWords (n 0x44) (bs.drop 128)) relocs, relocs := relocs,
    code := bytesWords (n 0x4C) (bs.drop (128 + 4 * n 0x44 + 8 * n 0x48)), dataOk := true,
    meas := sha384 (bs.take (128 + 4 * n 0x44 + 8 * n 0x48 + 4 * n 0x4C)) }

/-- Bytes of an image whose header is given (R73). -/
def imageSize (header : List Byte) : Nat :=
  128 + 4 * bytesAt header 0x44 4 + 8 * bytesAt header 0x48 4 + 4 * bytesAt header 0x4C 4 + bytesAt header 0x50 4

/-- REGIMG (R403): the image at an address of a context is copied into the image store, its data section placed at `dataBase`
(log 40), and its measurement returned; lines of other parts are read and written by requests of the controller, and the command is busy
meanwhile. -/
def execRegimg (fn ctx addr dataBase : Nat) (s : State) : Outcome State Fault Refusal :=
  hostCmd s fn 0x0004 true (s.ownCtx fn ctx)
    (if addr % 64 ≠ 0 ∨ 2 ^ 64 ≤ addr ∨ dataBase % 65536 ≠ 0 ∨ 2 ^ 64 ≤ dataBase then s.badArg fn 0x0004 else
     if (s.ctx? ctx).isNone || s.launches.any (fun l => l.image == addr) then s.refused fn 0x0004 else
     let refuse := ({ s with far := [] } : State).refused fn 0x0004
     s.withBytes ctx addr 128 refuse (fun header =>
       let size := imageSize header
       let others := s.images.filter (fun m => m.addr != addr)
       if 4096 ≤ others.length ∨ 2 ^ 31 < sumOf (others.map (fun m => imageSize m.header)) + size then refuse else
       s.withBytes ctx addr size refuse (fun bs =>
         let m := Image.parse addr ctx dataBase bs
         let data := resolveData dataBase (bs.drop (size - bytesAt header 0x50 4)) m.relocs
         match s.placeBytes ctx .write (data.length / 65536 + 2) dataBase data with
         | none => nothing
         | some (s', none) => if s' = s then nothing else .next { s' with begun := true }
         | some (s, some ok) => { s with images := others ++ [{ m with dataOk := ok }], far := [] }.done fn 0x0004 m.meas)))

/-! ### SETREG (R399) -/

/-- Set a register of a context, when it exists. -/
def State.setCtx (s : State) (fn ctx : Nat) (f : Ctx → Ctx) : Outcome State Fault Refusal :=
  hostCmd s fn 0x000A true (s.ownCtx fn ctx)
    (if (s.ctx? ctx).isNone then s.refused fn 0x000A else (s.onCtx ctx f).done fn 0x000A [])

/-- SETREG of CXPARK (R321): bits [30:24] read as 0. -/
def execSetregCxpark (fn ctx : Nat) (v : Word) (s : State) : Outcome State Fault Refusal :=
  s.setCtx fn ctx (fun c => { c with cxpark := v &&& 0x80FFFFFF#32 })

/-- SETREG of CXTIME (R323): bits [63:56] and [15:0] read as 0. -/
def execSetregCxtime (fn ctx : Nat) (v : Dword) (s : State) : Outcome State Fault Refusal :=
  s.setCtx fn ctx (fun c => { c with cxtime := v &&& 0x00FFFFFFFFFF0000#64 })

/-- SETREG of the watchdog limit (R304). -/
def execSetregWatchdogLimit (fn ctx : Nat) (v : Dword) (s : State) : Outcome State Fault Refusal :=
  s.setCtx fn ctx (fun c => { c with wdogLimit := v })

/-- SETREG of BPIMGn (R336). -/
def execSetregBpimg (fn ctx n : Nat) (v : Dword) (s : State) : Outcome State Fault Refusal :=
  hostCmd s fn 0x000A true (s.ownCtx fn ctx)
    (if 8 ≤ n then s.badArg fn 0x000A else
     if (s.ctx? ctx).isNone then s.refused fn 0x000A else (s.onCtx ctx (fun c => { c with bpimg := setAt c.bpimg n v })).done fn 0x000A [])

/-- SETREG of TWINCTL (R338, R400): setting EN stalls until every stack of the slice has the frames; clearing it discards the twin. -/
def execSetregTwinctl (fn ctx : Nat) (v : Word) (s : State) : Outcome State Fault Refusal :=
  hostCmd s fn 0x000A true (s.ownCtx fn ctx)
    (if 4096 < (fld v 0 13).toNat then s.badArg fn 0x000A else
     if (s.ctx? ctx).isNone || ((s.twinNum? ctx).map (fun w => w.state != .rival)).getD false then s.refused fn 0x000A else
     if s.canReserve ctx v then
       let s := s.setTwinctl ctx v
       (s.serveStalls s.stalls).done fn 0x000A []
     else .next (s.stallCommand fn 0x000A (.twinctl fn ctx v)))

/-- SETREG of BGBUDn of a die (R298, R299): compute dies 0 to 7 run activities 3, 5 and 6, the base dies of stacks 0 to 15 run 0, 1 and 4,
and IO1, die 0 here, runs 2. Bits [30:24] read as 0. -/
def execSetregBgbud (fn n die : Nat) (v : Word) (s : State) : Outcome State Fault Refusal :=
  let dies := if n = 2 then 1 else if n = 3 ∨ n = 5 ∨ n = 6 then 8 else 16
  hostCmd s fn 0x000A false false
    (if 7 ≤ n ∨ dies ≤ die then s.badArg fn 0x000A
     else { s with bgbud := (n, die, v &&& 0x80FFFFFF#32) :: s.bgbud.filter (fun x => !(x.1 == n && x.2.1 == die)) }.done fn 0x000A [])

/-- SETREG of WARNCFG of a compute die (R384). -/
def execSetregWarncfg (fn die : Nat) (v : Word) (s : State) : Outcome State Fault Refusal :=
  hostCmd s fn 0x000A false false
    (if 8 ≤ die then s.badArg fn 0x000A else { s with warncfg := putKey die v s.warncfg }.done fn 0x000A [])

/-! ### Export windows, power and the start record -/

/-- The stacks that an export window reaches (R369). -/
def exportStacks (v : BitVec 128) : List Nat :=
  let base := (v.extractLsb' 16 36).toNat * 65536
  let top := base + (v.extractLsb' 64 40).toNat * 65536
  (List.range 16).filter (fun k => decide (k * 2 ^ 36 < top ∧ base < (k + 1) * 2 ^ 36))

/-- EXPORT (R369): an export window is written; a virtual function's lies in its slice's stacks (log 41). Reserved bits read as 0. -/
def execExport (fn index : Nat) (v : BitVec 128) (s : State) : Outcome State Fault Refusal :=
  let own := ((sliceOfFn fn).map (fun n => (exportStacks v).all (fun k => (s.sliceRow n).stackSet.getLsbD k))).getD true
  hostCmd s fn 0x000D true own
    (if 4096 ≤ index ∨ (v.getLsbD 104 ∧ (v.extractLsb' 64 40) = 0) ∨
        2 ^ 52 < ((v.extractLsb' 16 36).toNat + (v.extractLsb' 64 40).toNat) * 65536 then s.badArg fn 0x000D
     else { s with exports := putKey index (v &&& 0xFFFFC7FFFFFFFFFF000FFFFFFFFF0000#128) s.exports }.done fn 0x000D [])

/-- PWRLIM (R406): 1,200 W to 2,700 W in steps of 25 W. -/
def execPwrlim (fn watts : Nat) (s : State) : Outcome State Fault Refusal :=
  hostCmd s fn 0x000F false false
    (if watts < 1200 ∨ 2700 < watts ∨ watts % 25 ≠ 0 then s.badArg fn 0x000F else { s with pwrLimit := watts }.done fn 0x000F [])

/-- The start record (R405). -/
def State.startRecord (s : State) : List Byte :=
  leBytes 1 s.startMode ++ leBytes 1 s.startReason ++ leBytes 1 (min s.startFails 255) ++ leBytes 1 0 ++ leBytes 4 s.portsDown.toNat ++
    leBytes 1 (s.portsDown.toNat / 2 ^ 32) ++ List.replicate 7 0

/-- STARTINFO (R405). -/
def execStartinfo (fn : Nat) (s : State) : Outcome State Fault Refusal :=
  hostCmd s fn 0x0010 true true (s.done fn 0x0010 s.startRecord)

end Sys2Proof.Machine
end

