-- ==== Sys2Proof/Machine/Reliability.lean ====
section
/-!
DEFINITION. The in-field test and its failures, warnings of failure, metered regions and their chains, facsimile registration and
RESTORE (R279, R380-R395).
-/
namespace Sys2Proof.Machine

open Host (Outcome)

/-! ### In-field test (R380, R381) -/

/-- TEST_PASS_END (R380): the reference count at the end of a passing pass is the cluster's pass time. The cluster-cycles for which the pass held the ports, a
free value, count under budget 3 of the die and never pass it. -/
def execTestPassEnd (cluster time : Nat) (s : State) : Outcome State Fault Refusal :=
  if Config.numClusters ≤ cluster ∨ s.retired.contains cluster ∨ !s.up then nothing
  else
    let held := min (Config.freeTestHeld s.freeTick) (s.budgetLeft 3 (cluster / 5))
    .next (({ s with passTime := putKey cluster (time % 2 ^ 64) s.passTime, freeTick := s.freeTick + 1 } : State).countUse 3 (cluster / 5) held)

/-- A team's record of ending follows in the log, before a time. -/
def endsBefore (r : PlaceRec) (time : Nat) (rest : List PlaceRec) : Bool :=
  match rest.find? (fun e => e.ctx == r.ctx && e.launch == r.launch && e.tlin == r.tlin && e.core == r.core) with
  | some e => (e.event == 1 || e.event == 2) && decide (e.time.toNat < time)
  | none => false

/-- The records of teams placed on a cluster that had not ended before a time (R381). -/
def taintedRecs (cluster time : Nat) : List PlaceRec → List PlaceRec
  | [] => []
  | r :: rs =>
    if (r.event = 0 ∨ r.event = 3) ∧ r.core / 8 = cluster ∧ endsBefore r time rs = false then r :: taintedRecs cluster time rs
    else taintedRecs cluster time rs

/-- Distinct triples of records, each with the queue of its launch, in ascending order (R383). -/
def taintTriples (rs : List PlaceRec) : List (Nat × Word × Word) :=
  sortBy (fun (x : Nat × Word × Word) => (x.1 * 2 ^ 32 + x.2.1.toNat) * 2 ^ 32 + x.2.2.toNat)
    (rs.foldl (fun acc r => addOnce (r.ctx, r.launch, r.gen) acc) [])

/-- A taint notice (R383). -/
def taintNotice (part cluster pass fail : Nat) (xs : List (Nat × Word × Word)) : List Byte :=
  leBytes 2 part ++ leBytes 1 cluster ++ leBytes 1 xs.length ++ leBytes 4 0 ++ leBytes 8 pass ++ leBytes 8 fail ++
    (xs.map (fun x => leBytes 1 x.1 ++ leBytes 4 x.2.1.toNat ++ leBytes 4 x.2.2.toNat ++ leBytes 3 0)).flatten

/-- The parts that a taint notice goes to: this one, and the replica sets of the queues with an affected launch (R383). -/
def State.taintTargets (s : State) (rs : List PlaceRec) : List Nat :=
  ((s.queues.filter (fun q => rs.any (fun r => r.queue == q.num && r.ctx == q.ctx))).map (fun q => q.repset)).flatten.foldl
    (fun acc p => if acc.contains p then acc else acc ++ [p]) [s.part]

/-- Retire a cluster (R279): its die's spare, the sixth physical cluster, takes its place in the remap table, or it leaves its slice, and what changes
owner thereby is zeroed (R281) (log 104). -/
def State.retire (s : State) (cluster : Nat) : State :=
  let die := cluster / 5
  if s.spares.contains die then { s with spares := s.spares.filter (fun d => d != die), clusterMap := setAt s.clusterMap cluster (die, 5) } else
  State.rehold { s with
           retired := addOnce cluster s.retired
           slices := s.slices.map (fun (r : Nat × SliceRow) => (r.1, { r.2 with clusters := r.2.clusters &&& ~~~(BitVec.ofNat 40 (2 ^ cluster)) })) } s

/-- Rewrite the warning word of every context that has registered one (R385): one more warning, with the dies and bit 40 as given. None
when a write must wait. -/
def State.warn (s : State) (mask : Nat) : Option State :=
  (s.ctxs.filter (fun c => c.warnWord.isSome)).foldl (fun o c => o.bind (fun s =>
    let n := c.warnCount + 1
    (s.onCtx c.num (fun c => { c with warnCount := n })).vaWrite c.num (c.warnWord.getD 0) (leBytes 8 (n.toNat + mask * 2 ^ 32)))) (some s)

/-- TEST_PASS_FAIL (R381, R383, R385): every context's part on the cluster is killed, a twin's too, the cluster is retired, the taint notices go out and a warning is
raised. -/
def execTestPassFail (cluster time : Nat) (s : State) : Outcome State Fault Refusal :=
  if Config.numClusters ≤ cluster ∨ s.retired.contains cluster ∨ !s.up then nothing else
  let pass := lookupD cluster 0 s.passTime
  let rs := taintedRecs cluster pass s.plog
  let cores := (List.range 8).map (fun k => cluster * 8 + k)
  let all := s.ctxs.map (fun c => c.num)
  let s := cores.foldl (fun s core => all.foldl (fun s ctx =>
    if (s.core core).active = some ctx ∨ (s.core core).shadow = some ctx ∨ !(s.placedOn ctx core).isEmpty
    then s.killCore core ctx false 0x00 0x01 0 else s) s) s
  let s := s.retire cluster
  let triples := taintTriples rs
  let notices := (chunksOf 60 (max 1 ((triples.length + 59) / 60)) triples).map (taintNotice s.part cluster pass time)
  let s := (s.taintTargets rs).foldl (fun s part => notices.foldl (fun s n => s.send (.taint part n)) s) s
  match s.warn 256 with
  | some s => .next s
  | none => nothing

/-! ### Warnings (R384, R385) -/

/-- WARNCFG of a die (R384). -/
def State.warncfgOf (s : State) (die : Nat) : Word :=
  ((s.warncfg.find? (fun (x : Nat × Word) => x.1 == die)).map (fun (x : Nat × Word) => x.2)).getD 0x90000040#32

/-- The corrections of a die within its window of periods (R384): since the start of the period WINDOW - 1 before this one. -/
def State.growth (s : State) (die : Nat) : Nat :=
  s.corrections die - getAt (lookupD die [] s.errHist) ((fld (s.warncfgOf die) 24 7).toNat - 1) 0

/-- WARNING (R384, R385): corrected errors have grown by THRESH or more within WINDOW periods; the same corrections do not warn again. -/
def execWarning (die : Nat) (s : State) : Outcome State Fault Refusal :=
  let w := s.warncfgOf die
  let thresh := (fld w 0 24).toNat
  if Config.numDies ≤ die ∨ w.getLsbD 31 = false ∨ (fld w 24 7).toNat = 0 ∨ thresh = 0 ∨ s.growth die < thresh then nothing else
  match { s with errHist := putKey die (List.replicate 127 (s.corrections die)) s.errHist }.warn (2 ^ die) with
  | some s => .next s
  | none => nothing

/-- WARNING_WORD_REGISTRATION (R385, R399): the host registers a context's warning word, aligned to 8 bytes; the command is not marked V. -/
def execWarningWordRegistration (fn ctx va : Nat) (s : State) : Outcome State Fault Refusal :=
  let opc := (s.mailbox fn).ctl.toNat % 65536
  hostCmd s fn opc false false
    (if (s.ctx? ctx).isNone then s.refused fn opc else
     if va % 8 ≠ 0 ∨ 2 ^ 64 ≤ va then s.badArg fn opc
     else (s.onCtx ctx (fun c => { c with warnWord := some va })).done fn opc [])

/-! ### Metered regions (R391, R395) -/

/-- The region with an id. -/
def State.meterNamed? (s : State) (region : Word) : Option Meter := s.meters.find? (fun m => m.region == region)

/-- A region's pages, allowlist and place in this part's HBM are within their limits (R391). -/
def meterArgsOk (base pages : Nat) (allow : List (List Byte)) : Bool :=
  base % 65536 == 0 && pages != 0 && decide (base + pages * 65536 ≤ Config.hostBase) && decide (allow.length ≤ 16) && allow.all (fun a => a.length == 48)

/-- A region cannot be registered: its id is open, or its pages meet an open region's (log 38). -/
def State.meterTaken (s : State) (region : Word) (base pages : Nat) : Bool :=
  s.meters.any (fun m => !m.closed && (m.region == region || (List.range pages).any (fun k => m.holds (base + k * 65536))))

/-- METREG (R391, R395): a new id opens at 0 with SEQ 0; a closed id goes on at its closed value. -/
def execMetreg (fn : Nat) (region : Word) (base pages : Nat) (allow : List (List Byte)) (s : State) : Outcome State Fault Refusal :=
  hostCmd s fn 0x0008 false false
    (if !(meterArgsOk base pages allow) then s.badArg fn 0x0008 else
     if s.meterTaken region base pages then s.refused fn 0x0008 else
     match s.meterNamed? region with
     | none => (s.sign ⟨region, base, pages, allow, 0, 0, List.replicate 48 0, false, []⟩ 0 false 0).done fn 0x0008 []
     | some m => (s.sign { m with base := base, pages := pages, allow := allow, closed := false, moves := [] } 0 false (m.seq + 1)).done fn 0x0008 [])

/-- METDEREG (R395): the region closes with a statement of its sum. -/
def execMetdereg (fn : Nat) (region : Word) (s : State) : Outcome State Fault Refusal :=
  hostCmd s fn 0x0008 false false
    (match s.meterNamed? region with
     | some m => if m.closed then s.refused fn 0x0008 else (s.sign { m with closed := true } 2 false (m.seq + 1)).done fn 0x0008 []
     | none => s.refused fn 0x0008)

/-- A page of a region is homed on this part: some context's table maps it (R395). -/
def State.regionMapped (s : State) (m : Meter) : Bool :=
  s.ctxs.any (fun c => mapsWhere s.mem s.part (fun a page => (List.range m.pages).any (fun k =>
    let b := regionAt m.base m.moves (k * 65536)
    decide (a < b + 65536 ∧ b < a + page))) c.base walkLevels)

/-- MIGRATE_OUT (R395): once no page of the region is homed here, the final statement is signed and the region deregistered. -/
def execMigrateOut (fn : Nat) (region : Word) (s : State) : Outcome State Fault Refusal :=
  hostCmd s fn 0x000E false false
    (match s.meterNamed? region with
     | some m =>
       if m.closed || s.regionMapped m then s.refused fn 0x000E
       else (s.sign { m with closed := true } 3 false (m.seq + 1)).done fn 0x000E []
     | none => s.refused fn 0x000E)

/-- Continue a chain from a statement of another part (R395): it verifies, is about the region, and has not started a chain yet. -/
def State.continueChain (s : State) (fn kind : Nat) (gap : Bool) (region : Word) (base pages : Nat) (allow : List (List Byte))
    (stmt : List Byte) (only : Option Nat) : Outcome State Fault Refusal :=
  let body := stmt.take 0x60
  let hash := sha384 body
  if !(meterArgsOk base pages allow) then s.badArg fn 0x000E else
  if stmt.length ≠ 192 ∨ bytesAt stmt 0 4 ≠ 0x4D545243 ∨ bytesAt stmt 0x18 4 ≠ region.toNat ∨ only.getD (bytesAt stmt 4 2) ≠ bytesAt stmt 4 2 ∨
     Config.freeVerify stmt = false ∨ s.chained.contains hash ∨ s.meterTaken region base pages then s.refused fn 0x000E
  else
    (({ s with chained := hash :: s.chained } : State).sign
      ⟨region, base, pages, allow, BitVec.ofNat 64 (bytesAt stmt 0x28 8), 0, hash, false, []⟩ kind gap (BitVec.ofNat 64 (bytesAt stmt 0x20 8) + 1)).done fn 0x000E []

/-- MIGRATE_IN (R395): the chain goes on from the source's kind-3 statement. -/
def execMigrateIn (fn : Nat) (region : Word) (base pages : Nat) (allow : List (List Byte)) (stmt : List Byte) (s : State) : Outcome State Fault Refusal :=
  hostCmd s fn 0x000E false false (s.continueChain fn 4 false region base pages allow stmt (some 3))

/-- REPLACE (R395): the chain goes on from the lost part's last exported statement, with GAP set. -/
def execReplace (fn : Nat) (region : Word) (base pages : Nat) (allow : List (List Byte)) (stmt : List Byte) (s : State) : Outcome State Fault Refusal :=
  hostCmd s fn 0x000E false false (s.continueChain fn 5 true region base pages allow stmt none)

/-! ### Facsimile registration and RESTORE (R386, R390) -/

/-- FACSIMILE_REGISTRATION (R386, R399): areas, each of one stack of the context's slice, the template, and a target in a mapped window of host memory; the
command is not marked V. -/
def execFacsimileRegistration (fn ctx : Nat) (areas : List (Nat × Nat)) (template target bytes : Nat) (s : State) : Outcome State Fault Refusal :=
  let opc := (s.mailbox fn).ctl.toNat % 65536
  hostCmd s fn opc false false
    (if (s.ctx? ctx).isNone then s.refused fn opc else
     if areas.any (fun a => a.1 % 65536 != 0 || a.2 % 65536 != 0 || decide (2 ^ 36 < a.1 % 2 ^ 36 + a.2) || !((s.sliceStacks ctx).getLsbD (a.1 / 2 ^ 36))) || decide (target < Config.hostBase) || decide (2 ^ 64 ≤ template) ||
        !(s.windows.any (fun w => decide (w.2.1 ≤ target ∧ target + bytes ≤ w.2.1 + w.2.2))) then s.badArg fn opc
     else (s.onCtx ctx (fun c => { c with fac := some ⟨areas, template, target, bytes⟩ })).done fn opc [])

/-- Place several regions. -/
def State.placeRegions (s : State) (ctx : Nat) : List (Nat × List Byte) → Option (State × Option Bool)
  | [] => some (s, some true)
  | r :: rs =>
    match s.placeBytes ctx .read (r.2.length / 65536 + 2) r.1 r.2 with
    | some (s, some true) => s.placeRegions ctx rs
    | x => x

/-- The parity group of a part in a set (R389). -/
def parityGroup (set : List Nat) (part : Nat) : List Nat := (set.drop (indexIn part set / 8 * 8)).take 8

/-- A manifest with DONE whose origin and digests verify (R390), and whose place in its parity group is its part's in a set (R389). -/
def goodManifest (set : List Nat) (m : Manifest) : Bool :=
  m.member == indexIn m.part set % 8 && m.ngrp == (parityGroup set m.part).length && m.done && m.signedOk && m.digests == m.regions.map (fun r => sha384 r.2) && (!m.pdone || m.parityDigest == sha384 m.parity)

/-- The good manifest of a part of a set at a step. -/
def manifestOf (ms : List Manifest) (set : List Nat) (part step : Nat) : Option Manifest :=
  ms.find? (fun m => goodManifest set m && m.part == part && m.step == step)

/-- A step is usable (R390): nothing missing, or the part that is to be rebuilt. -/
def usable (ms : List Manifest) (set : List Nat) (step : Nat) : Option (Option Nat) :=
  match set.filter (fun p => (manifestOf ms set p step).isNone) with
  | [] => some none
  | [x] =>
    let g := parityGroup set x
    if 2 ≤ g.length ∧ g.all (fun p => p == x || ((manifestOf ms set p step).map (fun m => m.pdone)).getD false) then some (some x) else none
  | _ => none

/-- The highest usable step of a list (R390). -/
def bestStep (ms : List Manifest) (set : List Nat) : List Nat → Option (Nat × Option Nat)
  | [] => none
  | t :: ts =>
    match usable ms set t, bestStep ms set ts with
    | some x, some (b, y) => if b < t then some (t, x) else some (b, y)
    | some x, none => some (t, x)
    | none, r => r

/-- Cut bytes into regions of given bases and lengths. -/
def splitRegions : List (Nat × Nat) → List Byte → List (Nat × List Byte)
  | [], _ => []
  | (b, n) :: rs, bs => (b, bs.take n) :: splitRegions rs (bs.drop n)

/-- The facsimile of a lost part, rebuilt from the chunks and parities of its group's other members (R389, R390). Its regions are the
peers', since every replica runs the launch that listed them (log 39). -/
def rebuild (ms : List Manifest) (set : List Nat) (step lost : Nat) : List (Nat × List Byte) :=
  let g := parityGroup set lost
  let n := g.length
  let p := indexIn lost g
  let member := fun (j : Nat) => manifestOf ms set (getAt g j 0) step
  let bytesOf := fun (j : Nat) => ((member j).map (fun m => (m.regions.map (fun r => r.2)).flatten)).getD []
  match member ((p + 1) % n) with
  | none => []
  | some peer =>
    let chunk := fun (c : Nat) =>
      let j := (p + c + 1) % n
      let q := ((member j).map (fun m => m.parity)).getD []
      ((List.range n).filter (fun k => k != j && k != p)).foldl (fun x k => xorBytes x (chunkOf peer.chunk ((j + 2 * n - k - 1) % n) (bytesOf k))) q
    splitRegions (peer.regions.map (fun r => (r.1, r.2.length))) (((List.range (n - 1)).map chunk).flatten)

/-- RESTORE (R390): the highest usable step; its status is the first byte of MBRES: 0x00, 0x01 with one part rebuilt, 0x30 with no usable
step and nothing written. -/
def execRestore (fn ctx : Nat) (manifests : List Manifest) (onto : Nat) (s : State) : Outcome State Fault Refusal :=
  hostCmd s fn 0x000E false false
    (if (s.ctx? ctx).isNone then s.refused fn 0x000E else
     let set := sortBy id (((s.queues.find? (fun q => q.ctx == ctx)).map (fun q => q.repset)).getD [s.part])
     match bestStep manifests set (manifests.map (fun m => m.step)) with
     | none => .next (s.answer fn 0x000E 0x01 [0x30])
     | some (step, lost) =>
       let regions := match lost with
         | some x => if onto = s.part then rebuild manifests set step x else ((manifestOf manifests set s.part step).map (fun m => m.regions)).getD []
         | none => ((manifestOf manifests set s.part step).map (fun m => m.regions)).getD []
       let gen := ((manifests.find? (fun m => goodManifest set m && m.step == step)).map (fun m => m.gen)).getD 0
       match s.placeRegions ctx regions with
       | none => nothing
       | some (s', none) => if s' = s then nothing else .next { s' with begun := true }
       | some (_, some false) => { s with far := [] }.refused fn 0x000E
       | some (s, some true) =>
         let s := { s with far := [] }
         { s with queues := s.queues.map (fun (q : Queue) => if q.ctx = ctx then { q with nextGen := some gen } else q) }.done fn 0x000E
           [if lost.isSome then 0x01 else 0x00])

end Sys2Proof.Machine
end

