-- ==== Sys2Proof/Machine/Bringup.lean ====
section
/-!
DEFINITION. Start-up, power, heat and management: start attempts and minimal mode, the clock steps, sensors, MCTP and the SPDM responder
(R401, R402, R404-R408).
-/
namespace Sys2Proof.Machine

open Host (Outcome)

/-! ### Start-up (R404, R405) -/

/-- A reason code of R404. -/
def reasonOk (r : Nat) : Bool :=
  r == 0x01 || r == 0x02 || decide (0x10 ≤ r ∧ r ≤ 0x1F) || r == 0x30 || decide (0x20 ≤ r ∧ r ≤ 0x27) || r == 0x40

/-- The part with nothing running and HBM empty, as a start attempt or a shutdown leaves it: what the controller keeps is the start record,
the remap table and the metered regions' chains (log 42). Host memory is the host's. -/
def State.cleared (s : State) : State :=
  { State.reset with
    inbox := s.inbox, out := s.out, nextId := s.nextId, issues := s.issues, freeTick := s.freeTick, part := s.part
    mem := s.mem.filter (fun c => decide (Config.hostBase ≤ c.1))
    meters := s.meters, statements := s.statements, chained := s.chained, spares := s.spares, retired := s.retired
    clusterMap := s.clusterMap, stackMap := s.stackMap
    startMode := s.startMode, startReason := s.startReason, startFails := s.startFails, portsDown := s.portsDown, minDie := s.minDie
    up := false }

/-- The ports that are up, ascending. -/
def portsUp (down : BitVec 36) : List Nat := (List.range 36).filter (fun p => !(down.getLsbD p))

/-- What the next attempt finds after a failed one, a free value (R404). -/
def State.nextResult (s : State) : StartResult :=
  let r := Config.freeReason s.freeTick
  ⟨if reasonOk r then r else 0, Config.freePortsDown s.freeTick, Config.freeGoodDie s.freeTick⟩

/-- A start attempt (R404, R405): a failed one adds to the count, keeps the reason and starts again, and only the first is the host's; one that reaches
READY presents the whole part, or in minimal mode one cluster and the two stacks of its die. A normal start after the host's reset command clears the
reason. -/
def State.start (s : State) (host : Bool) (first : StartResult) : Outcome State Fault Refusal :=
  let byHost := host && !s.attempting
  let r := if s.attempting then s.nextResult else first
  let minimal := decide (3 ≤ s.startFails) && !byHost
  let s := s.cleared
  if r.reason ≠ 0 then
    if reasonOk r.reason then
      .next { s with startFails := s.startFails + 1, startReason := r.reason, attempting := true, freeTick := s.freeTick + 1, begun := true }
    else nothing
  else if minimal then
    .next ({ s with
      up := true, startMode := 1, cap := [1, 0, 0, 0], portsDown := BitVec.allOnes 36, planes := [], linksDown := List.range 36
      minDie := r.lowestGoodDie % 8, slices := [(0, ⟨1, 3⟩)] }.send (.ready true))
  else
    .next ({ s with
      up := true, startMode := 0, startFails := 0, startReason := if byHost then 0 else s.startReason, cap := State.normalCap
      portsDown := r.portsDown, planes := portsUp r.portsDown, linksDown := (List.range 36).filter (fun p => r.portsDown.getLsbD p)
      minDie := 0
      slices := [(0, ⟨BitVec.ofNat 40 (sumOf (((List.range 40).filter (fun c => !(s.retired.contains c))).map (fun c => 2 ^ c))), BitVec.allOnes 16⟩)] }.send
        (.ready false))

/-- POWER_GOOD (R404). -/
def execPowerGood (result : StartResult) (s : State) : Outcome State Fault Refusal := s.start false result

/-- FUNDAMENTAL_RESET (R404, R405, R408): by a host command, or by a request over I3C. -/
def execFundamentalReset (byHost : Bool) (result : StartResult) (s : State) : Outcome State Fault Refusal := s.start byHost result

/-! ### Power and heat (R406, R407) -/

/-- The core and matrix clock of a step in MHz (R406). -/
def stepClock (k : Nat) : Nat := getAt [850, 765, 680, 595, 425] k 425

/-- POWER_WINDOW (R406): a window's average power above the limit lowers the clock by a step; one that would stay at or below the limit at
the next faster step raises it (log 43). -/
def execPowerWindow (milliwatts : Nat) (s : State) : Outcome State Fault Refusal :=
  if !s.up then nothing else
  let limit := 1000 * s.pwrLimit
  let k := s.clockStep
  if limit < milliwatts then .next { s with clockStep := min 4 (k + 1) }
  else if k ≠ 0 ∧ milliwatts * stepClock (k - 1) ≤ limit * stepClock k then .next { s with clockStep := k - 1 }
  else .next s

/-- THROTTLE_105 (R407): the die goes to step 4. -/
def execThrottle105 (die : Nat) (s : State) : Outcome State Fault Refusal :=
  if 8 ≤ die ∨ s.throttled.contains die ∨ !s.up then nothing else .next { s with throttled := die :: s.throttled }

/-- THROTTLE_END_95 (R407): the die leaves step 4. -/
def execThrottleEnd95 (die : Nat) (s : State) : Outcome State Fault Refusal :=
  if s.throttled.contains die then .next { s with throttled := s.throttled.filter (fun d => d != die) } else nothing

/-- THERMAL_TRIP (R407): every launch ends with CODE 0x00 and DETAIL 0x03, the event is reported, and the part is held in reset. -/
def execThermalTrip (die : Nat) (s : State) : Outcome State Fault Refusal :=
  if 8 ≤ die ∨ !s.up then nothing else
  let s := s.launches.foldl (fun s l =>
    if l.compl = 0 then s else (s.vaWrite l.ctx l.compl ({ l with fatal := some ⟨0x00, 0x03, 0, 0, 0⟩ } : Launch).record).getD s) s
  .next ((s.send (.thermal die)).cleared)

/-! ### Management (R408) -/

/-- SENSOR_UPDATE (R408): the clock step is the controller's own. -/
def execSensorUpdate (v : Sensors) (s : State) : Outcome State Fault Refusal := .next { s with sensors := { v with step := s.clockStep } }

/-- A sensor's value (log 44): 0 power, 1 clock step, 2 to 9 junctions, 10 inlet, 11 outlet, 12 to 19 corrected errors of a die. -/
def State.sensor (s : State) (n : Nat) : Option Nat :=
  if n = 0 then some s.sensors.power else if n = 1 then some s.sensors.step else
  if n < 10 then some (getAt s.sensors.junction (n - 2) 0) else if n = 10 then some s.sensors.inlet else
  if n = 11 then some s.sensors.outlet else if n < 20 then some (lookupD (n - 12) 0 s.errors) else none

/-- PLDM_SENSOR_READ (R408). -/
def execPldmSensorRead (sensor : Nat) (s : State) : Outcome State Fault Refusal :=
  match s.sensor sensor with
  | some v => .next (s.send (.sensor sensor v))
  | none => nothing

/-- MCTP_CONTROL (R408): the bus owner sets the EID, and reads it and the supported message types; the command and completion codes are
MCTP's own (log 45). -/
def execMctpControl (cmd : Nat) (arg : Nat) (s : State) : Outcome State Fault Refusal :=
  if cmd = 0x01 then
    if 8 ≤ arg ∧ arg ≤ 254 then .next ({ s with eid := arg }.send (.mctp (leBytes 1 cmd ++ leBytes 1 0 ++ leBytes 1 arg)))
    else .next (s.send (.mctp (leBytes 1 cmd ++ leBytes 1 2)))
  else if cmd = 0x02 then .next (s.send (.mctp (leBytes 1 cmd ++ leBytes 1 0 ++ leBytes 1 s.eid)))
  else if cmd = 0x05 then .next (s.send (.mctp (leBytes 1 cmd ++ leBytes 1 0 ++ leBytes 1 3 ++ leBytes 1 0 ++ leBytes 1 1 ++ leBytes 1 5)))
  else .next (s.send (.mctp (leBytes 1 cmd ++ leBytes 1 5)))

/-! ### SPDM (R401, R402) -/

/-- Answer an SPDM request: the response joins the transcript (log 46). -/
def State.spdmSay (s : State) (req : List Byte) (code : Nat) (bs : List Byte) (f : Spdm → Spdm) : Outcome State Fault Refusal :=
  let d := { s.spdm with transcript := s.spdm.transcript ++ req ++ leBytes 1 code ++ bs }
  .next ({ s with spdm := f d, freeTick := s.freeTick + 1 }.send (.spdm code bs))

/-- Refuse an SPDM request with an error code (log 46). -/
def State.spdmError (s : State) (e : Nat) : Outcome State Fault Refusal := .next (s.send (.spdm 0x7F (leBytes 1 e)))

/-- Answer a request that a condition allows; the part must be up. -/
def State.spdmIf (s : State) (c : Bool) (k : Outcome State Fault Refusal) : Outcome State Fault Refusal :=
  if !s.up then nothing else if c then k else s.spdmError 0x04

/-- GET_VERSION (R401): version 1.3; a negotiation begins again. -/
def execGetVersion (s : State) : Outcome State Fault Refusal :=
  s.spdmIf true ({ s with spdm := ⟨false, false, false, 0, 0, []⟩ }.spdmSay (leBytes 1 0x84) 0x04 (leBytes 2 0x0001 ++ leBytes 2 0x1300)
    (fun d => { d with version := true }))

/-- GET_CAPABILITIES (R401). -/
def execGetCapabilities (peer : List Byte) (s : State) : Outcome State Fault Refusal :=
  s.spdmIf s.spdm.version (s.spdmSay (leBytes 1 0xE1 ++ peer) 0x61 (leBytes 4 0x000002F6) (fun d => { d with caps := true }))

/-- NEGOTIATE_ALGORITHMS (R401): ECDSA P-384, SHA-384, ECDHE P-384 and AES-256-GCM, and nothing else. -/
def execNegotiateAlgorithms (offer : SpdmOffer) (s : State) : Outcome State Fault Refusal :=
  s.spdmIf s.spdm.caps
    (if offer.ecdsaP384 && offer.sha384 && offer.ecdheP384 && offer.aes256gcm then
      s.spdmSay (leBytes 1 0xE3) 0x63 (leBytes 4 0x80 ++ leBytes 4 0x2 ++ leBytes 2 0x10 ++ leBytes 2 0x2) (fun d => { d with algs := true })
     else s.spdmError 0x01)

/-- GET_DIGESTS (R401): slot 0 holds the device certificate. -/
def execGetDigests (s : State) : Outcome State Fault Refusal :=
  s.spdmIf s.spdm.algs (s.spdmSay (leBytes 1 0x81) 0x01 (leBytes 1 1 ++ sha384 Config.certificate) id)

/-- GET_CERTIFICATE (R401): a portion of the chain in slot 0, with its length and what remains. -/
def execGetCertificate (slot offset length : Nat) (s : State) : Outcome State Fault Refusal :=
  s.spdmIf s.spdm.algs
    (if slot ≠ 0 ∨ Config.certificate.length ≤ offset then s.spdmError 0x01 else
     let part := (Config.certificate.drop offset).take length
     s.spdmSay (leBytes 1 0x82 ++ leBytes 1 slot ++ leBytes 2 offset ++ leBytes 2 length) 0x02
       (leBytes 2 part.length ++ leBytes 2 (Config.certificate.length - offset - part.length) ++ part) id)

/-- The six measurement blocks (R402). -/
def State.measurement (s : State) (index : Nat) : List Byte :=
  if index ≤ 3 then Config.firmwareDigest index else
  if index = 4 then sha384 (Config.tableBytes (s.clusterMap, s.stackMap) s.retired s.spares s.minDie (s.slices.map (fun r => (r.1, r.2.clusters.toNat, r.2.stackSet.toNat)))) else
  if index = 5 then sha384 s.startRecord else sha384 ((s.images.map (fun m => m.meas)).flatten)

/-- CHALLENGE (R401): signed by the device identity key over the transcript. -/
def execChallenge (slot : Nat) (nonce : List Byte) (s : State) : Outcome State Fault Refusal :=
  s.spdmIf s.spdm.algs
    (if slot ≠ 0 then s.spdmError 0x01 else
     let req := leBytes 1 0x83 ++ leBytes 1 slot ++ nonce
     let body := sha384 Config.certificate ++ Config.freeNonce s.freeTick ++ sha384 (((List.range 6).map (fun k => s.measurement (k + 1))).flatten)
     s.spdmSay req 0x03 (body ++ Config.freeSignature (s.spdm.transcript ++ req ++ leBytes 1 0x03 ++ body)) id)

/-- GET_MEASUREMENTS (R402): index 0 asks for the number of blocks and 0xFF for all six; a signed answer carries a nonce and a signature. -/
def execGetMeasurements (index : Nat) (sign : Bool) (nonce : List Byte) (s : State) : Outcome State Fault Refusal :=
  s.spdmIf s.spdm.algs
    (if 6 < index ∧ index ≠ 0xFF then s.spdmError 0x01 else
     let req := leBytes 1 0xE0 ++ leBytes 1 index ++ nonce
     let one := fun k => leBytes 1 k ++ s.measurement k
     let blocks := if index = 0 then leBytes 1 6 else if index = 0xFF then ((List.range 6).map (fun k => one (k + 1))).flatten else one index
     let body := blocks ++ Config.freeNonce s.freeTick
     if sign then s.spdmSay req 0x60 (body ++ Config.freeSignature (s.spdm.transcript ++ req ++ leBytes 1 0x60 ++ body)) id
     else s.spdmSay req 0x60 blocks id)

/-- KEY_EXCHANGE (R401): a session begins its handshake. -/
def execKeyExchange (share : List Byte) (s : State) : Outcome State Fault Refusal :=
  s.spdmIf (s.spdm.algs && s.spdm.session == 0)
    (let req := leBytes 1 0xE4 ++ share
     let body := Config.freeNonce s.freeTick
     s.spdmSay req 0x64 (body ++ Config.freeSignature (s.spdm.transcript ++ req ++ leBytes 1 0x64 ++ body)) (fun d => { d with session := 1 }))

/-- FINISH (R401): the session is established when the authentication code verifies. -/
def execFinish (mac : List Byte) (s : State) : Outcome State Fault Refusal :=
  s.spdmIf (s.spdm.session == 1)
    (if Config.freeMacOk mac then s.spdmSay (leBytes 1 0xE5 ++ mac) 0x65 [] (fun d => { d with session := 2 })
     else .next ({ s with spdm := { s.spdm with session := 0 } }.send (.spdm 0x7F (leBytes 1 0x06))))

/-- KEY_UPDATE (R401): within a session, the keys move on. -/
def execKeyUpdate (op : Nat) (s : State) : Outcome State Fault Refusal :=
  s.spdmIf (s.spdm.session == 2)
    (if 1 ≤ op ∧ op ≤ 3 then s.spdmSay (leBytes 1 0xE9 ++ leBytes 1 op) 0x69 (leBytes 1 op) (fun d => { d with updates := d.updates + 1 })
     else s.spdmError 0x01)

end Sys2Proof.Machine
end

