-- ==== Sys2Proof/Machine/Integer.lean ====
section
/-!
DEFINITION. The register-only integer instructions: majors 0x00-0x13, INT1, SHI, MOVI and ADDI (R96-R104).
-/
namespace Sys2Proof.Machine

open Host (Outcome)

/-- A three-register operation on A and B (R96). -/
def alu3 (g : Guard) (d a b : RegField) (f : Word → Word → Word) (s : State) : Outcome State Fault Refusal :=
  issued s true (fun _ => [.dst d 1, .src a, .src b]) true (fun i =>
    regOnly i (i.effect g) d true (fun l => [f (i.src a l) (i.src b l)]) s)

/-- A three-register operation that also reads D (R53, R96). -/
def alu3d (g : Guard) (d a b : RegField) (f : Word → Word → Word → Word) (s : State) : Outcome State Fault Refusal :=
  issued s true (fun _ => [.rw d 1, .src a, .src b]) true (fun i =>
    regOnly i (i.effect g) d true (fun l => [f (i.regAt d 0 l) (i.src a l) (i.src b l)]) s)

/-- A one-source operation (R101, R103). -/
def alu1 (g : Guard) (d a : RegField) (f : Word → Word) (s : State) : Outcome State Fault Refusal :=
  issued s true (fun _ => [.dst d 1, .src a]) true (fun i =>
    regOnly i (i.effect g) d true (fun l => [f (i.src a l)]) s)

/-- A two-address pair operation modulo 2^64; the low word enters k0 (R101). -/
def alu64 (g : Guard) (d a : RegField) (f : Dword → Dword → Dword) (s : State) : Outcome State Fault Refusal :=
  issued s true (fun _ => [.rw d 2, .srcNoLatch a 2]) true (fun i =>
    regOnly i (i.effect g) d true (fun l =>
      let r := f (i.pair d l) (i.pair a l); [r.setWidth 32, (r >>> 32).setWidth 32]) s)

/-- A division function: no latch holds its result (R15, R102). -/
def divide (g : Guard) (d a : RegField) (f : Word → Word → Word) (s : State) : Outcome State Fault Refusal :=
  issued s true (fun _ => [.rw d 1, .src a]) true (fun i =>
    regOnly i (i.effect g) d false (fun l => [f (i.regAt d 0 l) (i.src a l)]) s)

/-- Bits [63:32] of the signed product (R97). -/
def mulHighSigned (a b : Word) : Word := BitVec.ofInt 32 ((a.toInt * b.toInt) / 2 ^ 32)

/-- Bits [63:32] of the unsigned product (R97). -/
def mulHighUnsigned (a b : Word) : Word := BitVec.ofNat 32 (a.toNat * b.toNat / 2 ^ 32)

/-- Shift left by all 32 bits of b: 0 from 32 on (R97). -/
def shiftLeft (a b : Word) : Word := if 32 ≤ b.toNat then 0 else a <<< b.toNat

/-- Logical right shift: 0 from 32 on (R97). -/
def shiftRight (a b : Word) : Word := if 32 ≤ b.toNat then 0 else a >>> b.toNat

/-- Arithmetic right shift: the sign everywhere from 32 on (R97). -/
def shiftArith (a b : Word) : Word := if 32 ≤ b.toNat then (if a.msb then 0xFFFFFFFF else 0) else a.sshiftRight b.toNat

/-- Signed minimum or maximum (R97). -/
def pickSigned (greater : Bool) (a b : Word) : Word := if (decide (a.toInt ≤ b.toInt)) != greater then a else b

/-- Unsigned minimum or maximum (R97). -/
def pickUnsigned (greater : Bool) (a b : Word) : Word := if (decide (a.toNat ≤ b.toNat)) != greater then a else b

/-- The length of a bit field at its position, cut at bit 31 (R99). -/
def fieldLen (b : Word) : Nat := min (fld b 8 6).toNat (32 - (fld b 0 5).toNat)

/-- Bit-field extract (R99). -/
def bfx (a b : Word) : Word :=
  let n := fieldLen b
  let f := (a.toNat / 2 ^ (fld b 0 5).toNat) % 2 ^ n
  if b.getLsbD 16 && 0 < n && 2 ^ (n - 1) ≤ f then BitVec.ofInt 32 ((f : Int) - 2 ^ n) else BitVec.ofNat 32 f

/-- Bit-field insert (R99). -/
def bfi (d a b : Word) : Word :=
  let mk : Word := BitVec.ofNat 32 (2 ^ fieldLen b - 1)
  let pos := (fld b 0 5).toNat
  (d &&& ~~~(mk <<< pos)) ||| ((a &&& mk) <<< pos)

/-- Unsigned quotient; all ones for a zero divisor (R102). -/
def divUnsigned (a b : Word) : Word := if b = 0 then 0xFFFFFFFF else BitVec.ofNat 32 (a.toNat / b.toNat)

/-- Unsigned remainder; the dividend for a zero divisor (R102). -/
def remUnsigned (a b : Word) : Word := if b = 0 then a else BitVec.ofNat 32 (a.toNat % b.toNat)

/-- Signed quotient truncating toward zero, with the corners of R102. -/
def divSigned (a b : Word) : Word :=
  if b = 0 then 0xFFFFFFFF else if a = 0x80000000 ∧ b = 0xFFFFFFFF then 0x80000000 else
    BitVec.ofInt 32 (Int.tdiv a.toInt b.toInt)

/-- Signed remainder, with the sign of the dividend (R102). -/
def remSigned (a b : Word) : Word :=
  if b = 0 then a else if a = 0x80000000 ∧ b = 0xFFFFFFFF then 0 else BitVec.ofInt 32 (Int.tmod a.toInt b.toInt)

/-- Number of 1 bits (R101). -/
def popCount (a : Word) : Word := BitVec.ofNat 32 ((List.range 32).filter (fun k => a.getLsbD k)).length

/-- Number of 0 bits above the highest 1 bit (R101). -/
def leadingZeros (a : Word) : Word := BitVec.ofNat 32 (32 - bitLen a.toNat)

/-- Bit reverse (R101). -/
def bitReverse (a : Word) : Word :=
  (List.range 32).foldl (fun r k => if a.getLsbD k then r ||| BitVec.ofNat 32 (2 ^ (31 - k)) else r) 0

/-- Byte reverse (R101). -/
def byteReverse (a : Word) : Word := fld a 0 8 ++ fld a 8 8 ++ fld a 16 8 ++ fld a 24 8

/-- A 14-bit immediate, sign-extended (R52, R104). -/
def imm14 (i : BitVec 14) : Word := i.signExtend 32

/-- IADD (R97). -/
def execIadd (g : Guard) (d a b : RegField) (s : State) : Outcome State Fault Refusal := alu3 g d a b (fun x y => x + y) s

/-- ISUB (R97). -/
def execIsub (g : Guard) (d a b : RegField) (s : State) : Outcome State Fault Refusal := alu3 g d a b (fun x y => x - y) s

/-- IMUL (R97). -/
def execImul (g : Guard) (d a b : RegField) (s : State) : Outcome State Fault Refusal := alu3 g d a b (fun x y => x * y) s

/-- IMAD (R97). -/
def execImad (g : Guard) (d a b : RegField) (s : State) : Outcome State Fault Refusal := alu3d g d a b (fun o x y => o + x * y) s

/-- IMULH (R97). -/
def execImulh (g : Guard) (d a b : RegField) (s : State) : Outcome State Fault Refusal := alu3 g d a b (mulHighSigned) s

/-- IMULHN (R97). -/
def execImulhn (g : Guard) (d a b : RegField) (s : State) : Outcome State Fault Refusal := alu3 g d a b (mulHighUnsigned) s

/-- AND (R97). -/
def execAnd (g : Guard) (d a b : RegField) (s : State) : Outcome State Fault Refusal := alu3 g d a b (fun x y => x &&& y) s

/-- OR (R97). -/
def execOr (g : Guard) (d a b : RegField) (s : State) : Outcome State Fault Refusal := alu3 g d a b (fun x y => x ||| y) s

/-- XOR (R97). -/
def execXor (g : Guard) (d a b : RegField) (s : State) : Outcome State Fault Refusal := alu3 g d a b (fun x y => x ^^^ y) s

/-- ANDN (R97). -/
def execAndn (g : Guard) (d a b : RegField) (s : State) : Outcome State Fault Refusal := alu3 g d a b (fun x y => x &&& ~~~y) s

/-- SHL (R97). -/
def execShl (g : Guard) (d a b : RegField) (s : State) : Outcome State Fault Refusal := alu3 g d a b (shiftLeft) s

/-- SHR (R97). -/
def execShr (g : Guard) (d a b : RegField) (s : State) : Outcome State Fault Refusal := alu3 g d a b (shiftRight) s

/-- SRA (R97). -/
def execSra (g : Guard) (d a b : RegField) (s : State) : Outcome State Fault Refusal := alu3 g d a b (shiftArith) s

/-- IMIN (R97). -/
def execImin (g : Guard) (d a b : RegField) (s : State) : Outcome State Fault Refusal := alu3 g d a b (pickSigned false) s

/-- IMAX (R97). -/
def execImax (g : Guard) (d a b : RegField) (s : State) : Outcome State Fault Refusal := alu3 g d a b (pickSigned true) s

/-- NMIN (R97). -/
def execNmin (g : Guard) (d a b : RegField) (s : State) : Outcome State Fault Refusal := alu3 g d a b (pickUnsigned false) s

/-- NMAX (R97). -/
def execNmax (g : Guard) (d a b : RegField) (s : State) : Outcome State Fault Refusal := alu3 g d a b (pickUnsigned true) s

/-- SEL (R98): writes in every active lane, whatever its guard; the guard chooses A or B. -/
def execSel (g : Guard) (d a b : RegField) (s : State) : Outcome State Fault Refusal :=
  issued s true (fun _ => [.dst d 1, .src a, .src b]) true (fun i =>
    regOnly i (maskOf (inMask i.cur.exec) i.width) d true
      (fun l => [if inMask (i.effect g) l then i.src a l else i.src b l]) s)

/-- BFX (R99). -/
def execBfx (g : Guard) (d a b : RegField) (s : State) : Outcome State Fault Refusal := alu3 g d a b (bfx) s

/-- BFI (R99). -/
def execBfi (g : Guard) (d a b : RegField) (s : State) : Outcome State Fault Refusal := alu3d g d a b (bfi) s

/-- ADD64 (R101). -/
def execAdd64 (g : Guard) (d a : RegField) (s : State) : Outcome State Fault Refusal := alu64 g d a (fun x y => x + y) s

/-- SUB64 (R101). -/
def execSub64 (g : Guard) (d a : RegField) (s : State) : Outcome State Fault Refusal := alu64 g d a (fun x y => x - y) s

/-- DIVS (R102). -/
def execDivs (g : Guard) (d a : RegField) (s : State) : Outcome State Fault Refusal := divide g d a (divSigned) s

/-- DIVN (R102). -/
def execDivn (g : Guard) (d a : RegField) (s : State) : Outcome State Fault Refusal := divide g d a (divUnsigned) s

/-- REMS (R102). -/
def execRems (g : Guard) (d a : RegField) (s : State) : Outcome State Fault Refusal := divide g d a (remSigned) s

/-- REMN (R102). -/
def execRemn (g : Guard) (d a : RegField) (s : State) : Outcome State Fault Refusal := divide g d a (remUnsigned) s

/-- POPC (R101). -/
def execPopc (g : Guard) (d a : RegField) (s : State) : Outcome State Fault Refusal := alu1 g d a (popCount) s

/-- CLZ (R101). -/
def execClz (g : Guard) (d a : RegField) (s : State) : Outcome State Fault Refusal := alu1 g d a (leadingZeros) s

/-- BREV (R101). -/
def execBrev (g : Guard) (d a : RegField) (s : State) : Outcome State Fault Refusal := alu1 g d a (bitReverse) s

/-- BSWAP (R101). -/
def execBswap (g : Guard) (d a : RegField) (s : State) : Outcome State Fault Refusal := alu1 g d a (byteReverse) s

/-- IABS (R101). -/
def execIabs (g : Guard) (d a : RegField) (s : State) : Outcome State Fault Refusal := alu1 g d a (fun x => if x.msb then 0 - x else x) s

/-- INEG (R101). -/
def execIneg (g : Guard) (d a : RegField) (s : State) : Outcome State Fault Refusal := alu1 g d a (fun x => 0 - x) s

/-- MOV (R101). -/
def execMov (g : Guard) (d a : RegField) (s : State) : Outcome State Fault Refusal := alu1 g d a (fun x => x) s

/-- SHLI (R103). -/
def execShli (g : Guard) (d a : RegField) (k : BitVec 5) (s : State) : Outcome State Fault Refusal :=
  alu1 g d a (fun x => x <<< k.toNat) s

/-- SHRI (R103). -/
def execShri (g : Guard) (d a : RegField) (k : BitVec 5) (s : State) : Outcome State Fault Refusal :=
  alu1 g d a (fun x => x >>> k.toNat) s

/-- SRAI (R103). -/
def execSrai (g : Guard) (d a : RegField) (k : BitVec 5) (s : State) : Outcome State Fault Refusal :=
  alu1 g d a (fun x => x.sshiftRight k.toNat) s

/-- RORI (R103). -/
def execRori (g : Guard) (d a : RegField) (k : BitVec 5) (s : State) : Outcome State Fault Refusal :=
  alu1 g d a (fun x => x.rotateRight k.toNat) s

/-- MOVI (R104). -/
def execMovi (g : Guard) (d : RegField) (i : BitVec 14) (s : State) : Outcome State Fault Refusal :=
  issued s true (fun _ => [.dst d 1]) true (fun is => regOnly is (is.effect g) d true (fun _ => [imm14 i]) s)

/-- ADDI (R104). -/
def execAddi (g : Guard) (d : RegField) (i : BitVec 14) (s : State) : Outcome State Fault Refusal :=
  issued s true (fun _ => [.rw d 1]) true (fun is => regOnly is (is.effect g) d true (fun l => [is.regAt d 0 l + imm14 i]) s)

end Sys2Proof.Machine
end

