-- ==== Sys2Proof/Machine/Float.lean ====
section
/-!
DEFINITION. The register-only floating-point instructions: majors 0x18-0x22 and FP1 (R118-R122).
-/
namespace Sys2Proof.Machine

open Host (Outcome)

/-- The group's rounding mode (R32, R118). -/
def Issue.rm (i : Issue) : RMode := RMode.ofBits i.grp.rm

/-- An FP32 operation of two values under the group's mode (R118). -/
def fop2 (g : Guard) (d a b : RegField) (f : RMode → Val → Val → Val) (s : State) : Outcome State Fault Refusal :=
  issued s true (fun _ => [.dst d 1, .src a, .src b]) true (fun i =>
    regOnly i (i.effect g) d true (fun l => [BitVec.ofNat 32 (Fmt.f32.encode i.rm false
      (f i.rm (Fmt.f32.decode (i.src a l).toNat) (Fmt.f32.decode (i.src b l).toNat)))]) s)

/-- The low or high half of a word (R81). -/
def half (h : Nat) (w : Word) : Nat := w.toNat / 2 ^ (16 * h) % 2 ^ 16

/-- Two halves as a word, element 0 low (R81). -/
def halves (f : Nat → Nat) : Word := BitVec.ofNat 32 (f 0 % 2 ^ 16 + 2 ^ 16 * (f 1 % 2 ^ 16))

/-- An operation of two packed FP16 pairs, each half rounded by itself (R118). -/
def hop2 (g : Guard) (d a b : RegField) (f : RMode → Val → Val → Val) (s : State) : Outcome State Fault Refusal :=
  issued s true (fun _ => [.dst d 1, .src a, .src b]) true (fun i =>
    regOnly i (i.effect g) d true (fun l => [halves (fun h => Fmt.f16.encode i.rm false
      (f i.rm (Fmt.f16.decode (half h (i.src a l))) (Fmt.f16.decode (half h (i.src b l)))))]) s)

/-- A packed fused operation that also reads D (R118, R119). -/
def hfma (fm : Fmt) (g : Guard) (d a b : RegField) (s : State) : Outcome State Fault Refusal :=
  issued s true (fun _ => [.rw d 1, .src a, .src b]) true (fun i =>
    regOnly i (i.effect g) d true (fun l => [halves (fun h => fm.encode i.rm false
      (Val.fma i.rm (fm.decode (half h (i.src a l))) (fm.decode (half h (i.src b l)))
        (fm.decode (half h (i.regAt d 0 l)))))]) s)

/-- A one-source FP1 function: `latched` is false for the function unit (R15, R120). -/
def fp1 (g : Guard) (d a : RegField) (latched : Bool) (f : RMode → Word → Word) (s : State) : Outcome State Fault Refusal :=
  issued s true (fun _ => [.dst d 1, .src a]) true (fun i =>
    regOnly i (i.effect g) d latched (fun l => [f i.rm (i.src a l)]) s)

/-- An FP32 function on patterns as a word function. -/
def onBits (f : Nat → Nat) (x : Word) : Word := BitVec.ofNat 32 (f x.toNat)

/-- FADD (R119). -/
def execFadd (g : Guard) (d a b : RegField) (s : State) : Outcome State Fault Refusal := fop2 g d a b (fun rm x y => Val.add rm x y) s

/-- FMUL (R119). -/
def execFmul (g : Guard) (d a b : RegField) (s : State) : Outcome State Fault Refusal := fop2 g d a b (fun _ x y => Val.mul x y) s

/-- FFMA (R119): a × b + d, rounded once. -/
def execFfma (g : Guard) (d a b : RegField) (s : State) : Outcome State Fault Refusal :=
  issued s true (fun _ => [.rw d 1, .src a, .src b]) true (fun i =>
    regOnly i (i.effect g) d true (fun l => [BitVec.ofNat 32 (Fmt.f32.encode i.rm false
      (Val.fma i.rm (Fmt.f32.decode (i.src a l).toNat) (Fmt.f32.decode (i.src b l).toNat)
        (Fmt.f32.decode (i.regAt d 0 l).toNat)))]) s)

/-- FMIN (R119). -/
def execFmin (g : Guard) (d a b : RegField) (s : State) : Outcome State Fault Refusal :=
  alu3 g d a b (fun x y => BitVec.ofNat 32 (Fmt.f32.pick false x.toNat y.toNat)) s

/-- FMAX (R119). -/
def execFmax (g : Guard) (d a b : RegField) (s : State) : Outcome State Fault Refusal :=
  alu3 g d a b (fun x y => BitVec.ofNat 32 (Fmt.f32.pick true x.toNat y.toNat)) s

/-- HADD (R119). -/
def execHadd (g : Guard) (d a b : RegField) (s : State) : Outcome State Fault Refusal := hop2 g d a b (fun rm x y => Val.add rm x y) s

/-- HMUL (R119). -/
def execHmul (g : Guard) (d a b : RegField) (s : State) : Outcome State Fault Refusal := hop2 g d a b (fun _ x y => Val.mul x y) s

/-- HFMA (R119). -/
def execHfma (g : Guard) (d a b : RegField) (s : State) : Outcome State Fault Refusal := hfma Fmt.f16 g d a b s

/-- HMIN (R119). -/
def execHmin (g : Guard) (d a b : RegField) (s : State) : Outcome State Fault Refusal :=
  alu3 g d a b (fun x y => halves (fun h => Fmt.f16.pick false (half h x) (half h y))) s

/-- HMAX (R119). -/
def execHmax (g : Guard) (d a b : RegField) (s : State) : Outcome State Fault Refusal :=
  alu3 g d a b (fun x y => halves (fun h => Fmt.f16.pick true (half h x) (half h y))) s

/-- BFMA (R119): packed BF16, rounded to BF16. -/
def execBfma (g : Guard) (d a b : RegField) (s : State) : Outcome State Fault Refusal := hfma Fmt.bf16 g d a b s

/-- FSQRT (R120, R121). -/
def execFsqrt (g : Guard) (d a : RegField) (s : State) : Outcome State Fault Refusal :=
  fp1 g d a false (fun rm => onBits (fun x => Fmt.f32.sqrt rm (Fmt.f32.decode x))) s

/-- FRCP (R120, R121). -/
def execFrcp (g : Guard) (d a : RegField) (s : State) : Outcome State Fault Refusal :=
  fp1 g d a false (fun rm => onBits (fun x => Fmt.f32.rcp rm (Fmt.f32.decode x))) s

/-- FRSQ (R120, R121). -/
def execFrsq (g : Guard) (d a : RegField) (s : State) : Outcome State Fault Refusal :=
  fp1 g d a false (fun rm => onBits (fun x => Fmt.f32.rsqrt rm (Fmt.f32.decode x))) s

/-- FEXP2 (R120, R121). -/
def execFexp2 (g : Guard) (d a : RegField) (s : State) : Outcome State Fault Refusal :=
  fp1 g d a false (fun _ => onBits f32Exp2) s

/-- FLOG2 (R120, R121). -/
def execFlog2 (g : Guard) (d a : RegField) (s : State) : Outcome State Fault Refusal :=
  fp1 g d a false (fun _ => onBits f32Log2) s

/-- FSIN (R120, R121). -/
def execFsin (g : Guard) (d a : RegField) (s : State) : Outcome State Fault Refusal :=
  fp1 g d a false (fun _ => onBits (f32Trig 0)) s

/-- FCOS (R120, R121). -/
def execFcos (g : Guard) (d a : RegField) (s : State) : Outcome State Fault Refusal :=
  fp1 g d a false (fun _ => onBits (f32Trig 1)) s

/-- FTANH (R120, R121). -/
def execFtanh (g : Guard) (d a : RegField) (s : State) : Outcome State Fault Refusal :=
  fp1 g d a false (fun _ => onBits f32Tanh) s

/-- FABS (R120, R121). -/
def execFabs (g : Guard) (d a : RegField) (s : State) : Outcome State Fault Refusal :=
  fp1 g d a true (fun _ x => x &&& 0x7FFFFFFF) s

/-- FNEG (R120, R121). -/
def execFneg (g : Guard) (d a : RegField) (s : State) : Outcome State Fault Refusal :=
  fp1 g d a true (fun _ x => x ^^^ 0x80000000) s

/-- FRINT (R120, R121). -/
def execFrint (g : Guard) (d a : RegField) (s : State) : Outcome State Fault Refusal :=
  fp1 g d a true (fun rm => onBits (f32Integral rm)) s

/-- FFLOOR (R120, R121). -/
def execFfloor (g : Guard) (d a : RegField) (s : State) : Outcome State Fault Refusal :=
  fp1 g d a true (fun _ => onBits (f32Integral .rd)) s

/-- FCEIL (R120, R121). -/
def execFceil (g : Guard) (d a : RegField) (s : State) : Outcome State Fault Refusal :=
  fp1 g d a true (fun _ => onBits (f32Integral .ru)) s

/-- FTRUNC (R120, R121). -/
def execFtrunc (g : Guard) (d a : RegField) (s : State) : Outcome State Fault Refusal :=
  fp1 g d a true (fun _ => onBits (f32Integral .rz)) s

/-- FCLASS (R120, R121). -/
def execFclass (g : Guard) (d a : RegField) (s : State) : Outcome State Fault Refusal :=
  fp1 g d a true (fun _ => onBits f32Class) s

/-- HABS (R120, R121). -/
def execHabs (g : Guard) (d a : RegField) (s : State) : Outcome State Fault Refusal :=
  fp1 g d a true (fun _ x => x &&& 0x7FFF7FFF) s

/-- HNEG (R120, R121). -/
def execHneg (g : Guard) (d a : RegField) (s : State) : Outcome State Fault Refusal :=
  fp1 g d a true (fun _ x => x ^^^ 0x80008000) s

/-- HSQRT (R120, R121). -/
def execHsqrt (g : Guard) (d a : RegField) (s : State) : Outcome State Fault Refusal :=
  fp1 g d a false (fun rm x => halves (fun h => Fmt.f16.sqrt rm (Fmt.f16.decode (half h x)))) s

/-- HRCP (R120, R121). -/
def execHrcp (g : Guard) (d a : RegField) (s : State) : Outcome State Fault Refusal :=
  fp1 g d a false (fun rm x => halves (fun h => Fmt.f16.rcp rm (Fmt.f16.decode (half h x)))) s

/-- BABS (R120, R121). -/
def execBabs (g : Guard) (d a : RegField) (s : State) : Outcome State Fault Refusal :=
  fp1 g d a true (fun _ x => x &&& 0x7FFF7FFF) s

/-- BNEG (R120, R121). -/
def execBneg (g : Guard) (d a : RegField) (s : State) : Outcome State Fault Refusal :=
  fp1 g d a true (fun _ x => x ^^^ 0x80008000) s

end Sys2Proof.Machine
end

