-- ==== Sys2Proof/Machine/Lane.lean ====
section
/-!
DEFINITION. The LANE family: shuffles, votes, and reductions and scans in the fixed tree (R62, R127-R131).
-/
namespace Sys2Proof.Machine

open Host (Outcome)

/-- A LANE function (R127): it reads A in every executing lane, whatever the guard, and writes `n` words at D in the executing
lanes whose guard holds. -/
def laneOp (g : Guard) (d a : RegField) (n : Issue → Nat) (ok : Issue → Bool) (f : Issue → (Nat → Word) → Nat → List Word)
    (s : State) : Outcome State Fault Refusal :=
  match s.issue? with
  | none => .fault .noIssue
  | some i0 =>
    issued s (ok i0) (fun i => [.dstMem d (n i), .srcLost a]) true (fun i =>
      i.retire (fun gr => gr.writeRegs d.toNat (i.effect g) (fun l => f i (fun j => i.src a j) l)) s)

/-- A of lane j when j is an executing lane, else lane l's own (R128). -/
def Issue.shuffled (i : Issue) (v : Nat → Word) (l : Nat) (j : Int) : Word :=
  if 0 ≤ j ∧ j < (i.width : Int) ∧ inMask i.cur.exec j.toNat then v j.toNat else v l

/-- Comb (R130): an empty node passes the other through. -/
def comb (op : Word → Word → Word) : Option Word → Option Word → Option Word
  | none, y => y
  | x, none => x
  | some x, some y => some (op x y)

/-- The next level of the tree from a level's nodes (R130). -/
def treeUp (op : Word → Word → Word) : List (Option Word) → List (Option Word)
  | x :: y :: rest => comb op x y :: treeUp op rest
  | [x] => [x]
  | [] => []

/-- The node of the tree that covers `2^k` leaves from the first of a list (R130). -/
def treeNode (op : Word → Word → Word) : Nat → List (Option Word) → Option Word
  | 0, xs => (xs.head?).getD none
  | k + 1, xs => treeNode op k (treeUp op xs)

/-- The leaves: A of the executing lanes, empty elsewhere (R130). -/
def Issue.leaves (i : Issue) (v : Nat → Word) : List (Option Word) :=
  (List.range i.width).map (fun l => if inMask i.cur.exec l then some (v l) else none)

/-- A reduction: the root, written to every writing lane (R130). -/
def reduceOp (op : RMode → Word → Word → Word) (i : Issue) (v : Nat → Word) (_l : Nat) : List Word :=
  [(treeNode (op i.rm) (Nat.log2 i.width) (i.leaves v)).getD 0]

/-- The blocks of `m` positions from `start`: powers of two, largest first, each a node of the tree (R131). -/
def scanBlocks (op : Word → Word → Word) : Nat → Nat → List (Option Word) → Option Word → Option Word
  | 0, _, _, acc => acc
  | k + 1, m, xs, acc =>
    if 2 ^ k ≤ m then scanBlocks op k (m - 2 ^ k) (xs.drop (2 ^ k)) (comb op acc (treeNode op k (xs.take (2 ^ k))))
    else scanBlocks op k m xs acc

/-- A scan over positions 0 to l, or 0 to l - 1; nothing combined gives 0 (R131). -/
def scanOp (op : RMode → Word → Word → Word) (inclusive : Bool) (i : Issue) (v : Nat → Word) (l : Nat) : List Word :=
  [(scanBlocks (op i.rm) 7 (if inclusive then l + 1 else l) (i.leaves v) none).getD 0]

/-- FP32 sum of two patterns, rounded by mode (R130). -/
def f32Sum (rm : RMode) (x y : Word) : Word :=
  BitVec.ofNat 32 (Fmt.f32.encode rm false (Val.add rm (Fmt.f32.decode x.toNat) (Fmt.f32.decode y.toNat)))

/-- FP16 sum of each half, rounded by mode (R130). -/
def h2Sum (rm : RMode) (x y : Word) : Word :=
  halves (fun h => Fmt.f16.encode rm false (Val.add rm (Fmt.f16.decode (half h x)) (Fmt.f16.decode (half h y))))

/-- One destination register. -/
def oneReg (_ : Issue) : Nat := 1

/-- Every form is an instruction. -/
def anyForm (_ : Issue) : Bool := true

/-- SHFL.IDX (R127, R128): D is read in every executing lane. -/
def execShflIdx (g : Guard) (d a : RegField) (s : State) : Outcome State Fault Refusal :=
  issued s true (fun _ => [.rw d 1, .srcLost a]) true (fun i =>
    i.retire (fun gr => gr.writeRegs d.toNat (i.effect g) (fun l =>
      [i.shuffled (fun j => i.src a j) l (((i.regAt d 0 l).toNat % i.width : Nat) : Int)])) s)

/-- FIRST (R129). -/
def execFirst (g : Guard) (d a : RegField) (s : State) : Outcome State Fault Refusal :=
  laneOp g d a oneReg anyForm (fun i v _ => [v ((lowest i.cur.exec i.width).getD 0)]) s

/-- VANY (R129). -/
def execVany (g : Guard) (d a : RegField) (s : State) : Outcome State Fault Refusal :=
  laneOp g d a oneReg anyForm (fun i v _ => [if (lanesOf i.cur.exec i.width).any (fun j => v j != 0) then 1 else 0]) s

/-- VALL (R129). -/
def execVall (g : Guard) (d a : RegField) (s : State) : Outcome State Fault Refusal :=
  laneOp g d a oneReg anyForm (fun i v _ => [if (lanesOf i.cur.exec i.width).all (fun j => v j != 0) then 1 else 0]) s

/-- VBAL (R129): a pair at D when the group has 64 lanes. -/
def execVbal (g : Guard) (d a : RegField) (s : State) : Outcome State Fault Refusal :=
  laneOp g d a (fun i => if i.width = 64 then 2 else 1) anyForm (fun i v _ =>
    let m := maskOf (fun j => inMask i.cur.exec j && v j != 0) i.width
    if i.width = 64 then [m.setWidth 32, (m >>> 32).setWidth 32] else [m.setWidth 32]) s

/-- IREDSUM (R130). -/
def execIredsum (g : Guard) (d a : RegField) (s : State) : Outcome State Fault Refusal :=
  laneOp g d a oneReg anyForm (reduceOp (fun _ x y => x + y)) s

/-- IREDMIN (R130). -/
def execIredmin (g : Guard) (d a : RegField) (s : State) : Outcome State Fault Refusal :=
  laneOp g d a oneReg anyForm (reduceOp (fun _ => pickSigned false)) s

/-- IREDMAX (R130). -/
def execIredmax (g : Guard) (d a : RegField) (s : State) : Outcome State Fault Refusal :=
  laneOp g d a oneReg anyForm (reduceOp (fun _ => pickSigned true)) s

/-- NREDMIN (R130). -/
def execNredmin (g : Guard) (d a : RegField) (s : State) : Outcome State Fault Refusal :=
  laneOp g d a oneReg anyForm (reduceOp (fun _ => pickUnsigned false)) s

/-- NREDMAX (R130). -/
def execNredmax (g : Guard) (d a : RegField) (s : State) : Outcome State Fault Refusal :=
  laneOp g d a oneReg anyForm (reduceOp (fun _ => pickUnsigned true)) s

/-- REDAND (R130). -/
def execRedand (g : Guard) (d a : RegField) (s : State) : Outcome State Fault Refusal :=
  laneOp g d a oneReg anyForm (reduceOp (fun _ x y => x &&& y)) s

/-- REDOR (R130). -/
def execRedor (g : Guard) (d a : RegField) (s : State) : Outcome State Fault Refusal :=
  laneOp g d a oneReg anyForm (reduceOp (fun _ x y => x ||| y)) s

/-- REDXOR (R130). -/
def execRedxor (g : Guard) (d a : RegField) (s : State) : Outcome State Fault Refusal :=
  laneOp g d a oneReg anyForm (reduceOp (fun _ x y => x ^^^ y)) s

/-- FREDSUM (R130). -/
def execFredsum (g : Guard) (d a : RegField) (s : State) : Outcome State Fault Refusal :=
  laneOp g d a oneReg anyForm (reduceOp (f32Sum)) s

/-- FREDMIN (R130). -/
def execFredmin (g : Guard) (d a : RegField) (s : State) : Outcome State Fault Refusal :=
  laneOp g d a oneReg anyForm (reduceOp (fun _ x y => BitVec.ofNat 32 (Fmt.f32.pick false x.toNat y.toNat))) s

/-- FREDMAX (R130). -/
def execFredmax (g : Guard) (d a : RegField) (s : State) : Outcome State Fault Refusal :=
  laneOp g d a oneReg anyForm (reduceOp (fun _ x y => BitVec.ofNat 32 (Fmt.f32.pick true x.toNat y.toNat))) s

/-- HREDSUM (R130). -/
def execHredsum (g : Guard) (d a : RegField) (s : State) : Outcome State Fault Refusal :=
  laneOp g d a oneReg anyForm (reduceOp (h2Sum)) s

/-- ISCAN (R131). -/
def execIscan (g : Guard) (d a : RegField) (s : State) : Outcome State Fault Refusal :=
  laneOp g d a oneReg anyForm (scanOp (fun _ x y => x + y) true) s

/-- ISCANX (R131). -/
def execIscanx (g : Guard) (d a : RegField) (s : State) : Outcome State Fault Refusal :=
  laneOp g d a oneReg anyForm (scanOp (fun _ x y => x + y) false) s

/-- FSCAN (R131). -/
def execFscan (g : Guard) (d a : RegField) (s : State) : Outcome State Fault Refusal :=
  laneOp g d a oneReg anyForm (scanOp (f32Sum) true) s

/-- FSCANX (R131). -/
def execFscanx (g : Guard) (d a : RegField) (s : State) : Outcome State Fault Refusal :=
  laneOp g d a oneReg anyForm (scanOp (f32Sum) false) s

/-- ShflUp (R127, R128): a count at or above the group width is no instruction. -/
def execShflUp (g : Guard) (d a : RegField) (k : BitVec 5) (s : State) : Outcome State Fault Refusal :=
  laneOp g d a oneReg (fun i => decide (k.toNat < i.width)) (fun i v l => [i.shuffled v l ((l : Int) - (k.toNat : Int))]) s

/-- ShflDn (R127, R128): a count at or above the group width is no instruction. -/
def execShflDn (g : Guard) (d a : RegField) (k : BitVec 5) (s : State) : Outcome State Fault Refusal :=
  laneOp g d a oneReg (fun i => decide (k.toNat < i.width)) (fun i v l => [i.shuffled v l ((l : Int) + (k.toNat : Int))]) s

/-- ShflXor (R127, R128): a count at or above the group width is no instruction. -/
def execShflXor (g : Guard) (d a : RegField) (k : BitVec 5) (s : State) : Outcome State Fault Refusal :=
  laneOp g d a oneReg (fun i => decide (k.toNat < i.width)) (fun i v l => [i.shuffled v l (((l ^^^ k.toNat : Nat) : Int))]) s

end Sys2Proof.Machine
end

