-- ==== Sys2Proof/Machine/Named.lean ====
section
/-!
DEFINITION. Named tiles at a core: CALLSLIP, ACCESSION, SLIPCAN, the delivery and the lapse of a slip, and the reading of an
accessioned tile (R206-R210).
-/
namespace Sys2Proof.Machine

open Host (Outcome)

/-- The name in the triple at A of a lane (R206). -/
def Issue.name (i : Issue) (a : RegField) (l : Nat) : TileName :=
  ⟨i.regAt a 0 l, i.regAt a 1 l, (i.regAt a 2 l).setWidth 16⟩

/-- The offsets at D of the lanes where a NAME function takes effect. -/
def Issue.tileOffsets (i : Issue) (g : Guard) (d : RegField) : List (Nat × Nat) :=
  (i.taking g).map (fun l => (l, (i.regAt d 0 l).toNat))

/-- The offset checks of a tile (R207, R209): a multiple of 256, and within SCRATCH. -/
def Issue.tileStop (i : Issue) (xs : List (Nat × Nat)) : Option Stop :=
  (misStop (xs.map (fun x => (x.1, BitVec.ofNat 64 x.2))) 256).orElse (fun _ => i.windowStop xs 4096)

/-- Two lanes' tiles overlap (R207). -/
def tilesOverlap (xs : List (Nat × Nat)) : Option (Nat × Nat) :=
  xs.find? (fun x => xs.any (fun y => y.1 != x.1 && decide (x.2 < y.2 + 4096 ∧ y.2 < x.2 + 4096)))

/-- One lane's slip (R207): its 16 lines become absent and pending, and an interest for the name leaves by the die's hub (R374); a twin's by
R348. -/
def State.callSlip (s : State) (i : Issue) (off life : Nat) (name : TileName) : State :=
  let die := dieOfCore i.grp.core
  let id := s.nextId
  let slip : Slip := ⟨id, i.cur.team, name, off / 256, die, life, none⟩
  let s := { s with nextId := id + 1, slips := s.slips ++ [slip] }
  let s := s.onTeam i.cur.team (fun t => t.pendLines ((List.range 16).map (fun k => off / 256 + k)) (.slip id) name.tval)
  let x : Interest := ⟨name, i.image.meas, life, i.team.ctx, some (s.sliceOf i.team.ctx), (s.part, die)⟩
  if (s.twinNum? i.team.ctx).isSome then s.twinInterest x slip 16 die none else s.interest x 16 (.hub die) (.slip id) none

/-- CALLSLIP (R206, R207). -/
def execCallslip (g : Guard) (d a : RegField) (s : State) : Outcome State Fault Refusal :=
  issued s true (fun _ => [.rwStrict d 2, .srcStrict a 3]) true (fun i =>
    let xs := i.tileOffsets g d
    let life := fun l => (i.regAt d 1 l).toNat
    i.unless s ((i.tileStop xs).orElse (fun _ =>
        (if xs.any (fun x => life x.1 == 0 || decide (1048576 < life x.1)) then some (Stop.trap (Trap.illegal 0x16)) else none).orElse (fun _ =>
          (tilesOverlap xs).map (fun x => .trap (Trap.access 0x0A x.2)))))
      (if !xs.isEmpty && s.acquiring i then i.stall 6 s else
       i.retire id (xs.foldl (fun s x => s.callSlip i x.2 (life x.1) (i.name a x.1)) s)))

/-- The waits of a release at system scope of everything that a team has done (R146, R209): the accesses of all its groups complete, and what
it has stored drains on each of its cores. -/
def State.teamReleaseWait (s : State) (i : Issue) : Except State State :=
  if s.accesses.any (fun a => a.team == i.cur.team && a.kind != .packet) then .error s else
  let cores := if i.team.pair then [i.team.core, i.team.core + 1] else [i.grp.core]
  let s := cores.foldl (fun s c => s.releaseDrain c i.cur.team 6) s
  if cores.all (fun c => s.releaseDone c i.cur.team 6) then .ok s else .error s

/-- ACCESSION (R209): a release at system scope that commits the team; the engine is still to read each lane's tile. -/
def execAccession (g : Guard) (d a : RegField) (s : State) : Outcome State Fault Refusal :=
  issued s true (fun _ => [.rw d 1, .srcStrict a 3]) true (fun i =>
    let xs := i.tileOffsets g d
    if xs.isEmpty then i.skip s else
    i.unless s ((i.tileStop xs).orElse (fun _ => i.lineStop s xs 4096))
      (if i.image.strict && !i.team.committed then i.raise ⟨0x13, 0x01, BitVec.ofNat 64 ((xs.head?.map (fun x => x.2)).getD 0)⟩ s else
       if xs.any (fun x => s.sliceMeets i.cur.team x.2 4096) then i.stall 6 s else
       if xs.any (fun x => s.tileMeets i.cur.team i.cur.grp x.2 4096) then i.stall 11 s else
       i.after (s.teamReleaseWait i) (fun s =>
        match s.commit i.cur.team with
        | none => i.stall 6 s
        | some s =>
          i.retire id (xs.foldl (fun (s : State) x =>
            ({ s with nextId := s.nextId + 1
                      accessions := s.accessions ++ [AccessionOp.mk s.nextId i.cur.team (i.name a x.1) x.2 (dieOfCore i.grp.core)] }).owe
              (.accessionHoldingReady s.nextId)) s))))

/-- SLIPCAN (R210). -/
def execSlipcan (g : Guard) (a : RegField) (s : State) : Outcome State Fault Refusal :=
  issued s true (fun _ => [.srcStrict a 3]) true (fun i =>
    i.retire id ((i.taking g).foldl (fun s l =>
      (s.slips.filter (fun x => x.team == i.cur.team && x.name == i.name a l)).foldl (fun s x => s.endSlip x 0x0B 0x01 1) s) s))

/-- TILE_DELIVERY (R187, R207): a tile that has reached the hub fills the lines that still wait for its slip, once the engine has read what an earlier
ACCESSION left there (R209). -/
def execTileDelivery (slip : Nat) (s : State) : Outcome State Fault Refusal :=
  match s.slips.find? (fun x => x.id == slip) with
  | none => nothing
  | some x =>
    match x.data with
    | none => nothing
    | some bs =>
      if s.accessionMeets x.team (x.line * 256) 4096 then nothing else
      let s := s.onTeam x.team (fun t => (t.slipLines slip).foldl (fun t l =>
        t.landBytes (l * 256) ((bs.drop ((l - x.line) * 256)).take 256)) t)
      .next { s with slips := s.slips.filter (fun y => y.id != slip) }

/-- SLIP_LAPSE (R208): the lifetime, counted by the issuing die, has passed. -/
def execSlipLapse (slip : Nat) (s : State) : Outcome State Fault Refusal :=
  match s.slips.find? (fun x => x.id == slip) with
  | some x => if x.data.isSome then nothing else .next (s.endSlip x 0x0B 0 0)
  | none => nothing

/-- A tile that a core which has cut answers with makes the cores of its context's waiting slips cut first, and reaches the original's slips
alone (R341, R345). None when a cut must wait. -/
def State.cutSlips (s : State) (t : Team) (name : TileName) : Option State :=
  if !(s.marksCut t.ctx t.core) then some s else
  let ks := s.slips.filter (fun k => k.name == name && s.ctxOf k.team == t.ctx)
  (ks.foldl (fun o k => o.bind (fun (s : State) => s.cutFirst t.ctx (((s.team? k.team).map (fun u => u.core)).getD 0))) (some s)).map (fun s =>
    match s.twinOf? t.ctx with
    | some w => s.onTwin w.num (fun w => { w with pairs := w.pairs.filter (fun p => !(ks.any (fun k => k.id == p.1))) })
    | none => s)

/-- ACCESSION_HOLDING_READY (R209): the engine has read the tile; it stands in the hub's holdings, and every pending interest for
the name is answered; a twin's answers only its own slips (R348). An uncorrectable line ends the team (R270). -/
def execAccessionHoldingReady (op : Nat) (s : State) : Outcome State Fault Refusal :=
  match s.accessions.find? (fun x => x.id == op) with
  | none => nothing
  | some x =>
    match s.team? x.team with
    | none => nothing
    | some t =>
      let s := { s with accessions := s.accessions.filter (fun y => y.id != op) }
      match (linesOf x.offset 4096).find? t.bad.contains with
      | some k => .next (s.deliverE t.uid 0 (BitVec.ofNat 64 k))
      | none =>
        let data := Memory.read t.scratch x.offset 4096
        if (s.twinNum? t.ctx).isSome then
          .next ((s.slips.filter (fun k => k.name == x.name && ((s.team? k.team).map (fun u => u.ctx == t.ctx)).getD false)).foldl
            (fun s k => s.giveTile k.id data) s)
        else
          match s.cutSlips t x.name with
          | none => nothing
          | some s =>
            let slice := s.sliceOf t.ctx
            .next ((s.holdTile (.hub x.die) slice x.name data).tileAt (s.part, x.die) x.name data false none false slice 16 (.hub x.die))

end Sys2Proof.Machine
end

