-- ==== Sys2Proof/Machine/Coll.lean ====
section
/-!
DEFINITION. The collectives COLLRED, COLLRSC, COLLGAT and COLLBC, and the end of one at this part's participant (R211, R215).
-/
namespace Sys2Proof.Machine

open Host (Outcome)

/-- The fields of a descriptor are as R215 says: `kind` 2 reduces, 3 reduce-scatters, 4 gathers, 5 broadcasts. -/
def descriptorOk (kind repl : Nat) (r : List Word) : Bool :=
  let w := fun k => (getAt r k (0 : Word)).toNat
  decide (w 0 % 32 = 0 ∧ w 2 % 32 = 0 ∧ 32 ≤ w 4 ∧ w 4 ≤ 2 ^ 30 ∧ w 4 % 32 = 0 ∧ w 5 % 16 ≤ 4 ∧ w 5 < 2 ^ 14 ∧ 1 ≤ w 6 ∧ w 6 ≤ 64 ∧
    w 6 = repl ∧ (kind = 5 → w 5 / 256 < w 6)) && (r.drop 8).all (fun x => x == 0)

/-- COLLRED, COLLRSC, COLLGAT, COLLBC at issue (R215): the record checks, the descriptor's fields, then its barrier. In deterministic
mode a collective of several parts is cross-team communication (R213; log 22). -/
def collOp (kind : Nat) (g : Guard) (a : RegField) (s : State) : Outcome State Fault Refusal :=
  issued s true (fun _ => [.srcStrict a 2]) true (fun i =>
    if i.effect g = 0 then i.skip s else
    let l := i.first g
    let off := (i.regAt a 0 l).toNat
    let comp := compOf (i.regAt a 1 l)
    i.unless s (i.recordStop s (engineRecords off 64 64 comp))
      (i.reading s off 64 (fun r =>
       let n := (getAt r 5 (0 : Word)).toNat / 16 % 16
       if !(descriptorOk kind i.launch.repl r) then i.raise (Trap.illegal 0x18) s else
       i.unless s (i.barStop n)
         (if i.image.det && decide (1 < i.launch.repl) then i.raise ⟨0x0A, 0, 0⟩ s else
          let x : CollOp := ⟨s.nextId, i.cur.team, i.cur.grp, kind, r, comp, n, ⟨i.cur.grp, l, i.cur.pc, [], n, none, 0, 0, false, false, 0, s.nextId, false, []⟩, none⟩
          let x := { x with src := { x.src with record := [getAt r 0 0, getAt r 1 0, 0, getAt r 4 0, BitVec.ofNat 32 (x.sourceBytes / (getAt r 4 (0 : Word)).toNat), getAt r 4 0, 0, 0] } }
          let s : State := { s with nextId := s.nextId + 1, colls := s.colls ++ [x] }
          i.retire id (if i.launch.repl = 1 then s.owe (.collectiveEnd x.id true [[]]) else s)))))

/-- COLLRED (R215). -/
def execCollred (g : Guard) (a : RegField) (s : State) : Outcome State Fault Refusal := collOp 2 g a s

/-- COLLRSC (R215). -/
def execCollrsc (g : Guard) (a : RegField) (s : State) : Outcome State Fault Refusal := collOp 3 g a s

/-- COLLGAT (R215). -/
def execCollgat (g : Guard) (a : RegField) (s : State) : Outcome State Fault Refusal := collOp 4 g a s

/-- COLLBC (R215). -/
def execCollbc (g : Guard) (a : RegField) (s : State) : Outcome State Fault Refusal := collOp 5 g a s

/-- The element operations of a collective (R215); f32 addition rounds RNE. -/
def collElem (op : Nat) (x y : Word) : Word :=
  match op with
  | 0 => f32Sum .rne x y
  | 1 => x + y
  | 2 => BitVec.ofNat 32 (Fmt.f32.pick false x.toNat y.toNat)
  | 3 => BitVec.ofNat 32 (Fmt.f32.pick true x.toNat y.toNat)
  | _ => x ^^^ y

/-- The combination of some replicas' words, in the tree of R130 with leaves in replica order. -/
def combineWords (op n : Nat) (srcs : List (List Word)) : List Word :=
  (List.range n).map (fun k =>
    let leaves := srcs.map (fun ws => some (getAt ws k 0))
    (treeNode (collElem op) 6 (leaves ++ List.replicate (64 - leaves.length) none)).getD 0)

/-- The bytes that a collective leaves at DST of replica `p` (R215). -/
def CollOp.result (c : CollOp) (p : Nat) (srcs : List (List Byte)) : List Byte :=
  let bytes := c.w 4
  let all := fun (n : Nat) => wordsBytes (combineWords (c.w 5 % 16) (n / 4) (srcs.map (bytesWords (n / 4))))
  match c.kind with
  | 2 => all bytes
  | 3 => ((all (c.w 6 * bytes)).drop (p * bytes)).take bytes
  | 4 => srcs.flatten
  | _ => getAt srcs (c.w 5 / 256) []

/-- Read global memory for a collective, sector by sector (R187). -/
def State.readSectors (t : Team) (m : Image) (sl : Slice) : Nat → Nat → List Byte → State → Except Moved (State × List Byte)
  | 0, _, acc, s => .ok (s, acc)
  | n + 1, k, acc, s =>
    match s.engineRead t sl k m with
    | .error r => .error r
    | .ok (s', bs) => State.readSectors t m sl n (k + 1) (acc ++ bs) s'

/-- Write global memory for a collective, sector by sector, in a region's shadow where DST lies in one; the sectors landed. -/
def State.writeSectors (c : CollOp) (m : Image) : Nat → Nat → List Byte → State → Nat × Moved
  | 0, k, _, s => (k, .landed s)
  | n + 1, k, bs, s =>
    match s.team? c.team with
    | none => (k, .gone s)
    | some t =>
      let addr := fun j => c.dst + 32 * j
      let pub := match s.translate t.ctx (BitVec.ofNat 64 (addr k)) .write with
        | .ok l => if l.part = s.part then (s.shadow t.ctx l.pa).isSome else l.pub.isSome
        | _ => false
      match s.engineWrite t c.src.xfer addr k pub m (bs.take 32) with
      | .landed s' => State.writeSectors c m n (k + 1) (bs.drop 32) s'
      | r => (k, r)

/-- Update one collective. -/
def State.onColl (s : State) (id : Nat) (f : CollOp → CollOp) : State :=
  { s with colls := s.colls.map (fun c => if c.id = id then f c else c) }

/-- A collective ends for its participant: its completion record is written and its transfer unit arrives (R186, R215). -/
def State.collDone (s : State) (c : CollOp) (fault : Bool) (cause landed : Nat) : State :=
  { s.writeComp c.team c.comp fault cause (32 * landed) 0 0 with colls := s.colls.filter (fun x => x.id != c.id) }.unitArrive c.team c.bar

/-- It stops at a fault; beyond the hold quota, with a trap in its group (R186, R217; log 49). -/
def State.collStop (s : State) (c : CollOp) (cause detail : Nat) (va : Dword) (landed : Nat) : State :=
  (if cause = 0x13 then s.pend c.team c.grp ⟨cause, detail, 0, false, none, va, none, none⟩ else s).collDone c true cause landed

/-- The arrival of a collective that has landed is a release at system scope of its bytes (R146, R147, R215): the team commits, and what it
sends to other parts has been answered there, since a refusal stops it (R370). An error answers what is left to wait for. -/
def State.collRelease (s : State) (t : Team) (c : CollOp) (landed : Nat) : Except State State :=
  match s.commit t.uid with
  | none => .error s
  | some s =>
    let s := s.releaseDrain t.core t.uid 6
    if s.releaseDone t.core t.uid 6 && !(s.reqs.any (fun r => r.team == t.uid && (r.wc.isSome || r.pkt.kind == 0x08))) then .ok (s.collDone c false 0 landed) else .error s

/-- The end of a collective for one participant's record: it reads its source, its result lands, and its arrival is made. A release is
refused to a strict-relaunch team that has not committed before it writes (R147; log 91). An error answers the state in which it waits. -/
def State.collInto (s : State) (c : CollOp) (agree : Bool) (parts : List (List Byte)) : Except State State :=
  if s.compWaits c.team c.comp then .error s else
  match s.team? c.team with
  | none => .ok { s with colls := s.colls.filter (fun x => x.id != c.id) }
  | some t =>
    match s.imageOf t, s.launch? t.launch with
    | some m, some l =>
      match c.landed with
      | some k => if c.src.fault then .ok (s.collStop c c.src.cause 0 c.src.fval k) else s.collRelease t c k
      | none =>
        -- nothing lands until everything can: what a parked page has recorded stays (R274)
        let wait := fun (s' : State) =>
          ({ s with faultq := s'.faultq, out := (s'.faultq.filter (fun r => !(s.faultq.contains r))).map Notice.fault ++ s.out } : State)
        if !agree then .ok (s.collDone c true 0x01 0) else
        if m.strict && !t.committed then .ok (s.collStop c 0x13 0x01 (BitVec.ofNat 64 c.dst) 0) else
        if c.src.fault then .ok (s.collStop c c.src.cause 0 c.src.fval 0) else
        let reads := c.kind ≠ 5 ∨ c.w 5 / 256 = l.replica
        match State.readSectors t m c.src (if reads then c.sourceBytes / 32 else 0) 0 [] s with
        | .error (.fault cause detail va s') => .ok (s'.collStop c cause detail va 0)
        | .error (.gone s') => .ok s'
        | .error (.landed s') => .error (wait s')
        | .error (.wait s') =>
          if c.src.asked then .error (wait s') else
          .error (((wait s').askRows t c.src).onColl c.id (fun c => { c with src := { c.src with asked := true } }))
        | .ok (s', own) =>
          let out := c.result l.replica (if reads then setAt parts l.replica own else parts)
          match State.writeSectors c m (out.length / 32) 0 out s' with
          | (k, .landed s'') => (s''.onColl c.id (fun c => { c with landed := some k })).collRelease ((s''.team? t.uid).getD t) { c with landed := some k } k
          | (k, .fault cause detail va s'') => .ok (s''.collStop c cause detail va k)
          | (_, .gone s'') => .ok s''
          | (_, .wait s'') => .error (wait s'')
    | _, _ => .ok s

/-- A collective that one twin's capture copied, or that its twin may end by itself: one of several parts that a twin issues waits for
RELEASE (R344, R348). -/
def State.collRuns (s : State) (c : CollOp) : Bool :=
  let ctx := s.ctxOf c.team
  let copied := s.twins.any (fun w => w.pairs.any (fun p => p.2 == c.id))
  s.engineRuns c.team && (copied || c.w 6 ≤ 1 || !(s.quarantined ctx))

/-- COLLECTIVE_END (R215): the participants' bytes have come together; when the original's has landed, its twin's copy takes the same
(R344). -/
def execCollectiveEnd (coll : Nat) (agree : Bool) (parts : List (List Byte)) (s : State) : Outcome State Fault Refusal :=
  match s.colls.find? (fun c => c.id == coll) with
  | none => nothing
  | some c =>
    let ids := (s.twins.map (fun w => (w.pairs.filter (fun p => p.1 == coll)).map (fun p => p.2))).flatten
    let replica := (((s.team? c.team).bind (fun t => s.launch? t.launch)).map (fun l => l.replica)).getD 0
    let whole := decide (parts.length = c.w 6) && (mapFrom (fun k (bs : List Byte) => k == replica || (c.kind == 5 && k != c.w 5 / 256) || bs.length == c.sourceBytes) 0 parts).all id
    if !(s.collRuns c) || (agree && !whole) then nothing else
    match s.collInto c agree parts with
    | .ok s' => .next ((s'.colls.filter (fun x => ids.contains x.id)).foldl (fun s x => s.owe (.collectiveEnd x.id agree parts)) s')
    | .error s' => if s' = s then nothing else .next { s' with begun := true }

end Sys2Proof.Machine
end

