-- ==== Sys2Proof/Machine/Control.lean ====
section
/-!
DEFINITION. MOVC, branches, calls and the group-control functions of CTL (R105, R108-R116).
-/
namespace Sys2Proof.Machine

open Host (Outcome)

/-- MOVC (R105): the pool word, checked whatever the guard. -/
def execMovc (g : Guard) (d : BitVec 6) (i : BitVec 14) (s : State) : Outcome State Fault Refusal :=
  issued s true (fun _ => [.dstMem (d.setWidth 7) 1]) true (fun is =>
    if is.image.pool.length ≤ i.toNat then is.raise (Trap.access 0x02 i.toNat) s else
      is.retire (fun gr => gr.writeRegs d.toNat (is.effect g) (fun _ => [getAt is.image.pool i.toNat 0])) s)

/-- Write the pcv of every executing lane: `to l` where the instruction takes effect, else the next word (R108, R109). -/
def branchTo (i : Issue) (eff : LaneMask) (dest : Nat → Word) (f : Group → Group) (s : State) : Outcome State Fault Refusal :=
  i.finish ⟨false, []⟩ (fun gr => f (gr.onLanes i.cur.exec (fun l ln =>
    { ln with pcv := if inMask eff l then dest l else ln.pcv + 4 }))) s

/-- The target of a J-format word: the address plus four times the signed offset (R52, R108). -/
def jTarget (pc : Word) (o : BitVec 21) : Word := pc + (o.signExtend 32 <<< 2)

/-- BRA (R108). -/
def execBra (g : Guard) (o : BitVec 21) (s : State) : Outcome State Fault Refusal :=
  issued s true (fun _ => []) true (fun i => branchTo i (i.effect g) (fun _ => jTarget i.cur.pc o) id s)

/-- CALL (R108): v119 is checked whatever the guard. -/
def execCall (g : Guard) (o : BitVec 21) (s : State) : Outcome State Fault Refusal :=
  issued s true (fun _ => [.v119]) true (fun i =>
    branchTo i (i.effect g) (fun _ => jTarget i.cur.pc o)
      (fun gr => gr.writeRegs 119 (i.effect g) (fun _ => [i.cur.pc + 4])) s)

/-- A jump to a register (R109): a target that is not a multiple of 4 traps for the lowest such lane. -/
def jumpReg (g : Guard) (a : RegField) (s : State) : Outcome State Fault Refusal :=
  issued s true (fun _ => [.srcNoLatch a 1]) true (fun i =>
    match (lanesOf (i.effect g) i.width).find? (fun l => (i.regAt a 0 l).toNat % 4 != 0) with
    | some l => i.raise (Trap.misaligned (i.regAt a 0 l).toNat) s
    | none => branchTo i (i.effect g) (fun l => i.regAt a 0 l) id s)

/-- BRX (R109). -/
def execBrx (g : Guard) (a : RegField) (s : State) : Outcome State Fault Refusal := jumpReg g a s

/-- RET (R109): the effect of BRX. -/
def execRet (g : Guard) (a : RegField) (s : State) : Outcome State Fault Refusal := jumpReg g a s

/-- Lanes leave the handler set; an empty set ends handler mode and the exclusion of R218 (R111, R219). -/
def Group.leaveHandler (gr : Group) (m : LaneMask) : Group :=
  let left := gr.handler &&& ~~~m
  { gr with handler := left, excl := if left = 0 then 0 else gr.excl }

/-- EXIT (R111): the lane exits and leaves every mask and the handler set. -/
def execExit (g : Guard) (s : State) : Outcome State Fault Refusal :=
  issued s true (fun _ => []) true (fun i =>
    let eff := i.effect g
    let s := if (i.grp.live &&& ~~~eff) = 0 then s.owe (.groupEnd i.cur.team i.cur.grp) else s
    i.finish ⟨false, []⟩ (fun gr =>
      let gr := gr.onLanes i.cur.exec (fun l ln => if inMask eff l then { ln with exited := true } else { ln with pcv := ln.pcv + 4 })
      { gr with masks := gr.masks.map (fun m => m &&& ~~~eff) }.leaveHandler eff) s)

/-- Change one lane mask in the lanes where the instruction takes effect (R112). -/
def maskOp (g : Guard) (m : BitVec 7) (f : LaneMask → LaneMask → LaneMask) (s : State) : Outcome State Fault Refusal :=
  issued s (maskOk m) (fun _ => []) true (fun i =>
    i.retire (fun gr => { gr with masks := setAt gr.masks m.toNat (f (getAt gr.masks m.toNat 0) (i.effect g)) }) s)

/-- JOIN (R112). -/
def execJoin (g : Guard) (m : BitVec 7) (s : State) : Outcome State Fault Refusal := maskOp g m (fun x e => x ||| e) s

/-- LEAVE (R112); the release test follows every issue (R114). -/
def execLeave (g : Guard) (m : BitVec 7) (s : State) : Outcome State Fault Refusal := maskOp g m (fun x e => x &&& ~~~e) s

/-- WAITM (R113): the lane blocks at this address; the release test follows (R114). -/
def execWaitm (g : Guard) (m : BitVec 7) (s : State) : Outcome State Fault Refusal :=
  issued s (maskOk m) (fun _ => []) true (fun i =>
    i.finish ⟨false, []⟩ (fun gr => gr.onLanes i.cur.exec (fun l ln =>
      if inMask (i.effect g) l then { ln with waitm := some m.toNat } else { ln with pcv := ln.pcv + 4 })) s)

/-- YIELD (R115). -/
def execYield (g : Guard) (s : State) : Outcome State Fault Refusal :=
  issued s true (fun _ => []) true (fun i =>
    i.retire (fun gr => gr.onLanes (i.effect g) (fun _ ln => { ln with yx := true })) s)

/-- SETWB (R116): the group's window base, when it takes effect in some lane. -/
def execSetwb (g : Guard) (b : BitVec 7) (s : State) : Outcome State Fault Refusal :=
  issued s (windowOk b) (fun _ => []) true (fun i =>
    i.retire (fun gr => if i.effect g = 0 then gr else { gr with wb := 8 * b.toNat }) s)

end Sys2Proof.Machine
end

