-- ==== Sys2Proof/Machine/Convert.lean ====
section
/-!
DEFINITION. The CVT family (R60, R86, R123, R124).
-/
namespace Sys2Proof.Machine

open Host (Outcome)

/-- A conversion of a one-register source to `n` words: element k of the result from the source word (R123). -/
def cvt1 (g : Guard) (d a : RegField) (n : Nat) (f : RMode → Word → Nat → Word) (s : State) : Outcome State Fault Refusal :=
  issued s true (fun _ => [.dst d n, .src a]) true (fun i =>
    regOnly i (i.effect g) d true (fun l => (List.range n).map (f i.rm (i.src a l))) s)

/-- A conversion of a source of `n` registers to one word (R123, R124): `f` gets the mode and the source words. -/
def cvtN (g : Guard) (d a : RegField) (n : Nat) (f : RMode → (Nat → Word) → Word) (s : State) : Outcome State Fault Refusal :=
  issued s true (fun _ => [.dst d 1, .srcNoLatch a n]) true (fun i =>
    regOnly i (i.effect g) d true (fun l => [f i.rm (fun k => i.regAt a k l)]) s)

/-- Element n of `w` bits of a word (R81). -/
def elem (w n : Nat) (x : Word) : Nat := x.toNat / 2 ^ (w * n) % 2 ^ w

/-- Elements of `w` bits packed into a word, element 0 lowest (R81). -/
def packElems (w n : Nat) (f : Nat → Nat) : Word :=
  BitVec.ofNat 32 (sumOf ((List.range n).map (fun k => (f k % 2 ^ w) * 2 ^ (w * k))))

/-- A pattern of one format as a pattern of another (R86). -/
def convert (from_ dest : Fmt) (rm : RMode) (sat : Bool) (x : Nat) : Nat := dest.encode rm sat (from_.decode x)

/-- CVT_F32_I32 (R123). -/
def execCvtF32I32 (g : Guard) (d a : RegField) (s : State) : Outcome State Fault Refusal :=
  cvt1 g d a 1 (fun rm x _ => BitVec.ofNat 32 (Fmt.f32.encode rm false (Val.ofInt false x.toInt 0))) s

/-- CVT_F32_N32 (R123). -/
def execCvtF32N32 (g : Guard) (d a : RegField) (s : State) : Outcome State Fault Refusal :=
  cvt1 g d a 1 (fun rm x _ => BitVec.ofNat 32 (Fmt.f32.encode rm false (Val.ofInt false x.toNat 0))) s

/-- CVT_I32_F32 (R123). -/
def execCvtI32F32 (g : Guard) (d a : RegField) (s : State) : Outcome State Fault Refusal :=
  cvt1 g d a 1 (fun rm x _ => BitVec.ofInt 32 (toIntClamped rm (-(2 ^ 31)) (2 ^ 31 - 1) (Fmt.f32.decode x.toNat))) s

/-- CVT_N32_F32 (R123). -/
def execCvtN32F32 (g : Guard) (d a : RegField) (s : State) : Outcome State Fault Refusal :=
  cvt1 g d a 1 (fun rm x _ => BitVec.ofInt 32 (toIntClamped rm 0 (2 ^ 32 - 1) (Fmt.f32.decode x.toNat))) s

/-- CVT_F32_H2_LO (R123). -/
def execCvtF32H2Lo (g : Guard) (d a : RegField) (s : State) : Outcome State Fault Refusal :=
  cvt1 g d a 1 (fun rm x _ => BitVec.ofNat 32 (convert Fmt.f16 Fmt.f32 rm false (half 0 x))) s

/-- CVT_F32_H2_HI (R123). -/
def execCvtF32H2Hi (g : Guard) (d a : RegField) (s : State) : Outcome State Fault Refusal :=
  cvt1 g d a 1 (fun rm x _ => BitVec.ofNat 32 (convert Fmt.f16 Fmt.f32 rm false (half 1 x))) s

/-- CVT_H2_F32 (R123). -/
def execCvtH2F32 (g : Guard) (d a : RegField) (st : Bool) (s : State) : Outcome State Fault Refusal :=
  cvtN g d a 2 (fun rm x => halves (fun h => convert Fmt.f32 Fmt.f16 rm st (x h).toNat)) s

/-- CVT_F32_B2_LO (R123). -/
def execCvtF32B2Lo (g : Guard) (d a : RegField) (s : State) : Outcome State Fault Refusal :=
  cvt1 g d a 1 (fun rm x _ => BitVec.ofNat 32 (convert Fmt.bf16 Fmt.f32 rm false (half 0 x))) s

/-- CVT_F32_B2_HI (R123). -/
def execCvtF32B2Hi (g : Guard) (d a : RegField) (s : State) : Outcome State Fault Refusal :=
  cvt1 g d a 1 (fun rm x _ => BitVec.ofNat 32 (convert Fmt.bf16 Fmt.f32 rm false (half 1 x))) s

/-- CVT_B2_F32 (R123). -/
def execCvtB2F32 (g : Guard) (d a : RegField) (st : Bool) (s : State) : Outcome State Fault Refusal :=
  cvtN g d a 2 (fun rm x => halves (fun h => convert Fmt.f32 Fmt.bf16 rm st (x h).toNat)) s

/-- CVT_H2_B2 (R123). -/
def execCvtH2B2 (g : Guard) (d a : RegField) (st : Bool) (s : State) : Outcome State Fault Refusal :=
  cvt1 g d a 1 (fun rm x _ => halves (fun h => convert Fmt.bf16 Fmt.f16 rm st (half h x))) s

/-- CVT_B2_H2 (R123). With S = 1 an infinity gives ±Max (log 90). -/
def execCvtB2H2 (g : Guard) (d a : RegField) (st : Bool) (s : State) : Outcome State Fault Refusal :=
  cvt1 g d a 1 (fun rm x _ => halves (fun h => convert Fmt.f16 Fmt.bf16 rm st (half h x))) s

/-- CVT_E4M3_F32 (R123). -/
def execCvtE4m3F32 (g : Guard) (d a : RegField) (st : Bool) (s : State) : Outcome State Fault Refusal :=
  cvtN g d a 4 (fun rm x => packElems 8 4 (fun n => convert Fmt.f32 Fmt.e4m3 rm st (x n).toNat)) s

/-- CVT_F32_E4M3 (R123). -/
def execCvtF32E4m3 (g : Guard) (d a : RegField) (s : State) : Outcome State Fault Refusal :=
  cvt1 g d a 4 (fun rm x n => BitVec.ofNat 32 (convert Fmt.e4m3 Fmt.f32 rm false (elem 8 n x))) s

/-- CVT_E5M2_F32 (R123). -/
def execCvtE5m2F32 (g : Guard) (d a : RegField) (st : Bool) (s : State) : Outcome State Fault Refusal :=
  cvtN g d a 4 (fun rm x => packElems 8 4 (fun n => convert Fmt.f32 Fmt.e5m2 rm st (x n).toNat)) s

/-- CVT_F32_E5M2 (R123). -/
def execCvtF32E5m2 (g : Guard) (d a : RegField) (s : State) : Outcome State Fault Refusal :=
  cvt1 g d a 4 (fun rm x n => BitVec.ofNat 32 (convert Fmt.e5m2 Fmt.f32 rm false (elem 8 n x))) s

/-- CVT_E2M1_F32 (R123). -/
def execCvtE2m1F32 (g : Guard) (d a : RegField) (st : Bool) (s : State) : Outcome State Fault Refusal :=
  cvtN g d a 4 (fun rm x => packElems 4 4 (fun n => convert Fmt.f32 Fmt.e2m1 rm st (x n).toNat)) s

/-- CVT_F32_E2M1 (R123). -/
def execCvtF32E2m1 (g : Guard) (d a : RegField) (s : State) : Outcome State Fault Refusal :=
  cvt1 g d a 4 (fun rm x n => BitVec.ofNat 32 (convert Fmt.e2m1 Fmt.f32 rm false (elem 4 n x))) s

/-- CVT_E4M3_H2 (R123). -/
def execCvtE4m3H2 (g : Guard) (d a : RegField) (st : Bool) (s : State) : Outcome State Fault Refusal :=
  cvtN g d a 2 (fun rm x => packElems 8 4 (fun n => convert Fmt.f16 Fmt.e4m3 rm st (half (n % 2) (x (n / 2))))) s

/-- CVT_H2_E4M3 (R123). -/
def execCvtH2E4m3 (g : Guard) (d a : RegField) (s : State) : Outcome State Fault Refusal :=
  cvt1 g d a 2 (fun rm x m => halves (fun h => convert Fmt.e4m3 Fmt.f16 rm false (elem 8 (2 * m + h) x))) s

/-- CVT_I8_I32 (R123). -/
def execCvtI8I32 (g : Guard) (d a : RegField) (s : State) : Outcome State Fault Refusal :=
  cvtN g d a 4 (fun _ x => packElems 8 4 (fun n => (BitVec.ofInt 8 (clamp (-128) 127 (x n).toInt)).toNat)) s

/-- CVT_I32_I8 (R123). -/
def execCvtI32I8 (g : Guard) (d a : RegField) (s : State) : Outcome State Fault Refusal :=
  cvt1 g d a 4 (fun _ x n => (BitVec.ofNat 8 (elem 8 n x)).signExtend 32) s

/-- CVT_N8_N32 (R123). -/
def execCvtN8N32 (g : Guard) (d a : RegField) (s : State) : Outcome State Fault Refusal :=
  cvtN g d a 4 (fun _ x => packElems 8 4 (fun n => min 255 (x n).toNat)) s

/-- CVT_N32_N8 (R123). -/
def execCvtN32N8 (g : Guard) (d a : RegField) (s : State) : Outcome State Fault Refusal :=
  cvt1 g d a 4 (fun _ x n => BitVec.ofNat 32 (elem 8 n x)) s

end Sys2Proof.Machine
end

