-- ==== Sys2Proof/Machine/Twins.lean ====
section
/-!
DEFINITION. Twins: the arbiter's decision, the cut and its end, and the host's commands STEP, EDIT, RELEASE, RESUME, DISCARD and TREAD
(R339-R354).
-/
namespace Sys2Proof.Machine

open Host (Outcome)

/-! ### Claim and cut (R339-R343) -/

/-- The claim of a group has been decided: it goes on, unless it has made another one. -/
def State.unpause (s : State) (c : Claim) : State :=
  if s.claimed c.team c.grp then s else
    s.onGroup c.team c.grp (fun g => { g with wait := if g.wait = .claim then .none else g.wait, stall := 0 })

/-- Context numbers that are free on the part. -/
def State.freeCtxs (s : State) : List Nat := (List.range 64).filter (fun n => (s.ctx? n).isNone)

/-- Fork a twin (R339): a context of its own number with the original's tables, and the markers to every core and home (R341). Its breakpoints,
watchpoints and TWINCTL are at reset (log 101). -/
def State.fork (s : State) (c : Ctx) (num : Nat) (k : Claim) : State :=
  let w : Twin := ⟨c.num, num, .cutting, k.trig, k.pc, k.gid, k.tval, [], [], [], [], [], [], [], [], false, none, []⟩
  let c' : Ctx := { Ctx.fresh num c.slice c.base with
    lattice := c.lattice, launches := c.launches, cxpark := c.cxpark, cxtime := c.cxtime, wdogLimit := c.wdogLimit
    recalled := c.recalled, twinOf := some c.num }
  { s with
    twins := s.twins ++ [w]
    ctxs := s.ctxs ++ [c']
    due := s.due ++ (List.range Config.numCores).map (Instr.cutMarker c.num false) ++ (List.range Config.numDies).map (Instr.cutMarker c.num true) }

/-- TWIN_CLAIM (R339): the arbiter grants the oldest claim of a context when it has no twin, twins are enabled and a number is free, and
the core takes its cut; else it refuses and MISSED counts. -/
def execTwinClaim (ctx : Nat) (s : State) : Outcome State Fault Refusal :=
  match s.ctx? ctx with
  | none => nothing
  | some c =>
    match c.claims with
    | [] => nothing
    | k :: rest =>
      let s1 := s.onCtx ctx (fun c => { c with claims := rest })
      let s1 := if rest.isEmpty then s1 else s1.oweOnce (.twinClaim ctx)
      let free := s.freeCtxs
      match c.twinOn && (s.twinOf? ctx).isNone && !free.isEmpty, s.group? k.team k.grp with
      | true, some g =>
        let num := getAt free (Config.freePick s.freeTick % free.length) 0
        match ({ s1 with freeTick := s.freeTick + 1 }.fork c num k).takeCut num ctx g.core with
        | some s => .next (s.unpause k)
        | none => nothing
      | _, _ =>
        .next ((s1.onCtx ctx (fun c => { c with missed := if c.missed = 0xFFFFFFFF#32 then c.missed else c.missed + 1 })).unpause k)

/-- The cut of a twin has reached every core and home (R341). -/
def Twin.cutDone (w : Twin) : Bool :=
  (List.range Config.numCores).all w.cutCores.contains && (List.range Config.numDies).all w.cutHomes.contains

/-- Owe the completion of a cut that is whole. -/
def State.oweCut (s : State) (ctx : Nat) : State :=
  match s.twinOf? ctx with
  | some w => if w.cutDone then s.oweOnce (.cutComplete ctx) else s
  | none => s

/-- A core takes its cut for the twin of a context. -/
def State.cutCore (s : State) (core ctx : Nat) : Outcome State Fault Refusal :=
  match s.twinOf? ctx with
  | none => nothing
  | some w =>
    if w.state ≠ .cutting ∨ w.cutCores.contains core ∨ Config.numCores ≤ core then nothing else
    match s.takeCut w.num ctx core with
    | some s => .next (s.oweCut ctx)
    | none => nothing

/-- CUT (R340): a core captures every group of the context, once no chain of it is in progress there. -/
def execCut (core ctx : Nat) (s : State) : Outcome State Fault Refusal := s.cutCore core ctx

/-- CUT_MARKER (R341): the marker reaches a core or a home, which cuts unless it has. -/
def execCutMarker (ctx : Nat) (home : Bool) (place : Nat) (s : State) : Outcome State Fault Refusal :=
  match s.twinOf? ctx with
  | none => .next s
  | some w =>
    if home then (if place < Config.numDies then .next ((s.cutHome w.num place).oweCut ctx) else nothing)
    else if w.cutCores.contains place || w.state != .cutting then .next (s.oweCut ctx) else s.cutCore place ctx

/-- Give the twin the held copies of the homes' cuts (R342, R343): they become its team's, or, of a team it holds as committed, part of
its view. None waits for the overlay. -/
def State.keepSnap (s : State) (w : Twin) : List HeldLine → Option State
  | [] => some s
  | h :: hs =>
    match w.teams.find? (fun p => p.1 == h.team) with
    | none => s.keepSnap w hs
    | some p =>
      if s.holds p.2 then ({ s with held := s.held ++ [{ h with team := p.2, ctx := w.num }] }).keepSnap w hs
      else (s.putCells w.num h.cells).bind (fun s => s.keepSnap w hs)

/-- CUT_COMPLETE (R341, R349): every core and home has cut; the twin is frozen and the host told. -/
def execCutComplete (ctx : Nat) (s : State) : Outcome State Fault Refusal :=
  match s.twinOf? ctx with
  | none => nothing
  | some w =>
    if w.state ≠ .cutting ∨ !w.cutDone then nothing else
    match s.keepSnap w w.snap with
    | none => nothing
    | some s => .next ((s.onTwin w.num (fun w => { w with state := .frozen, snap := [] })).send (.cut ctx))

/-! ### Stepping and the rival (R349-R351) -/

/-- The cores that hold teams of a context. -/
def State.coresOf (s : State) (ctx : Nat) : List Nat :=
  (s.teams.filter (fun t => t.ctx == ctx)).foldl (fun acc t => t.cores.foldl (fun acc c => addOnce c acc) acc) []

/-- An access of a context is outstanding that needs no answer from outside. -/
def State.working (s : State) (ctx : Nat) : Bool :=
  s.accesses.any (fun a => s.ctxOf a.team == ctx && !a.waiting && (match a.kind with | .await _ => false | _ => true)) ||
    s.works.any (fun x => s.ctxOf x.team == ctx)

/-- STEP_DONE (R349): the stepped group has issued its instructions or trapped, or, which R349 does not name, has ended or has no live lane left, so that it
issues no more (log 73); the twin's groups are spilled. -/
def execStepDone (ctx : Nat) (s : State) : Outcome State Fault Refusal :=
  match s.twinOf? ctx with
  | none => nothing
  | some w =>
    let beyond := match w.step with
      | some (t, g, n) => n == 0 || ((s.group? t g).map (fun g => g.ended || g.live == 0)).getD true
      | none => true
    if w.state ≠ .stepping ∨ !beyond ∨ s.working w.num then nothing else
    let cores := s.coresOf w.num
    if cores.any (fun c => s.chainOn w.num c) then nothing else
    let s := cores.foldl (fun s c =>
      let s := if (s.core c).active = some w.num then (s.swapOut c w.num).unowe (.spillComplete c w.num) else s
      let s := s.onCore c (fun x => { x with shadow := if x.shadow = some w.num then none else x.shadow })
      (s.onCoreCtx c w.num (fun x => { x with ladder := .out, saved := true })).oweOnce (.restoreComplete c)) s
    .next (s.onTwin w.num (fun w => { w with state := .frozen, step := none }))

/-- RIVAL_END (R349): every team of the rival has ended; its number is freed. -/
def execRivalEnd (ctx : Nat) (s : State) : Outcome State Fault Refusal :=
  match s.twinNum? ctx with
  | some w =>
    if w.state = .rival ∧ !(s.teams.any (fun t => t.ctx == ctx)) ∧ !(s.launches.any (fun l => l.ctx == ctx)) then .next (s.discardTwin ctx)
    else nothing
  | none => nothing

/-! ### Host commands (R349-R351, R354) -/

/-- A TWIN command: the twin of a context, in a state that lists the command (R349), else refused. -/
def twinCmd (s : State) (fn ctx : Nat) (states : List TwinState) (k : Twin → Outcome State Fault Refusal) : Outcome State Fault Refusal :=
  hostCmd s fn 0x000C true (s.ownCtx fn ctx)
    (match s.twinOf? ctx with
     | some w => if states.contains w.state then k w else s.refused fn 0x000C
     | none => s.refused fn 0x000C)

/-- STEP (R350): the twin returns to its cores, and one group issues n instructions. -/
def execTwinStep (fn ctx team grp n : Nat) (s : State) : Outcome State Fault Refusal :=
  twinCmd s fn ctx [.frozen] (fun w =>
    match s.team? team, s.group? team grp with
    | some t, some g =>
      if t.ctx ≠ w.num ∨ g.ended ∨ n = 0 ∨ 65536 < n then s.badArg fn 0x000C else
      let s := s.onTwin w.num (fun w => { w with state := .stepping, step := some (team, grp, n) })
      (((s.coresOf w.num).foldl (fun s c => s.oweOnce (.restoreComplete c)) s).owe (.stepDone ctx)).done fn 0x000C []
    | _, _ => s.badArg fn 0x000C)

/-- RESUME (R351): the twin becomes a rival, an ordinary context that shares the original's cores. -/
def execTwinResume (fn ctx : Nat) (s : State) : Outcome State Fault Refusal :=
  twinCmd s fn ctx [.frozen] (fun w =>
    let s := s.onTwin w.num (fun w => { w with state := .rival })
    let s := (s.coresOf w.num).foldl (fun s c => s.oweOnce (.restoreComplete c)) s
    let s := ((s.launches.filter (fun l => l.ctx == w.num)).map (fun l => l.uid)).foldl State.oweCompletion s
    (((s.oweRestores w.num).oweOnce (.dispatchDecision (s.sliceOf w.num))).oweRivalEnd w.num).done fn 0x000C [])

/-- DISCARD (R351). -/
def execTwinDiscard (fn ctx : Nat) (s : State) : Outcome State Fault Refusal :=
  twinCmd s fn ctx [.cutting, .frozen, .stepping, .rival] (fun w => (s.discardTwin w.num).done fn 0x000C [])

/-- The store to host memory that a quarantined entry is (kind 0xE1). It has no store-buffer entry (log 103). -/
def hostEntry (p : Packet) : WcEntry :=
  ⟨0, p.rid, p.aux, p.dstPart, 0, p.key / 256, (storeBytes p.payload).map (fun c => (p.key + c.1, c.2)), [], false, p.ctx⟩

/-- The steps of a quarantined atomic in host memory are performed in their turn (kind 0xE2); its completion writes their results (R348). None waits. -/
def State.releaseAtom (s : State) (id : Nat) : Option State :=
  match s.access? id with
  | some a =>
    match a.kind with
    | .atomic o _ =>
      (s.atomLanes a o (a.lanes.filter (fun x => x.loc.part == s.part && decide (Config.hostBase ≤ x.loc.pa)))).map (fun r =>
        r.1.onAccess id (fun a => { a with got := a.got ++ r.2.map (fun x => (x.1.lane, wordsBytes x.2, 9)) }))
    | _ => some s
  | none => some s

/-- Send what a quarantine holds, in order (R348): its packets leave, its LAUNCHes (kind 0xE0) are appended, and its stores and atomics to host memory
(kinds 0xE1 and 0xE2) are performed. None waits. -/
def State.sendQuarantine (s : State) : List Packet → Option State
  | [] => some s
  | p :: ps => if p.kind = 0xE0 then (s.append p.ctx p.key p.payload).bind (fun s => s.sendQuarantine ps)
               else if p.kind = 0xE1 then (s.drain (hostEntry p)).bind (fun (s : State) => s.sendQuarantine ps)
               else if p.kind = 0xE2 then (s.releaseAtom p.key).bind (fun (s : State) => s.sendQuarantine ps)
               else if p.kind = 0x09 then (s.interestLeaves p).sendQuarantine ps
               else (s.send (.packet (s.stamped p))).sendQuarantine ps

/-- RELEASE (R348). -/
def execTwinRelease (fn ctx : Nat) (s : State) : Outcome State Fault Refusal :=
  twinCmd s fn ctx [.frozen] (fun w =>
    match (s.onTwin w.num (fun w => { w with released := true, quarantine := [] })).sendQuarantine w.quarantine with
    | some s => s.done fn 0x000C []
    | none => nothing)

/-- Write a special register of a twin group (R350), never sr.ret: the field of a group, lane, core or context that saves it, else the value
that the group's reads of it give from then on (log 73). None for a number that names none. -/
def State.editSpecial (s : State) (t : Team) (g : Group) (m : Image) (lane n : Nat) (v : Dword) : Option State :=
  let w : Word := v.setWidth 32
  let onG := fun (f : Group → Group) => some (s.onGroup t.uid g.idx f)
  let edit := onG (fun g => { g with edits := (lane, n, v) :: g.edits.filter (fun e => !(e.1 == lane && e.2.1 == n)) })
  match n with
  | 0x18 => if m.det then edit else onG (fun g => { g with cyc := v })
  | 0x1C => onG (fun g => { g with rm := w.setWidth 2 })
  | 0x1D => if w.toNat + 8 ≤ m.regs ∧ w.toNat % 8 = 0 then onG (fun g => { g with wb := w.toNat }) else none
  | 0x1E => if w.toNat % 4 = 0 then onG (fun g => g.onLanes (BitVec.ofNat 64 (2 ^ lane)) (fun _ l => { l with pcv := w })) else none
  | 0x20 => onG (fun g => { g with cause := w })
  | 0x21 => onG (fun g => { g with tpc := w })
  | 0x22 => onG (fun g => { g with tval := v })
  | 0x24 => onG (fun g => { g with frag := v &&& maskOf (fun _ => true) g.lanes.length })
  | 0x26 => onG (fun g => { g with parent := w })
  | 0x27 => onG (fun g => { g with chpc := w })
  | 0x38 => some (s.onCoreCtx g.core t.ctx (fun c => { c with wdog := v }))
  | n =>
    if 0x40 ≤ n ∧ n ≤ 0x47 then some (s.onCtx t.ctx (fun c => { c with bp := setAt c.bp (n - 0x40) w }))
    else if 0x48 ≤ n ∧ n ≤ 0x4E ∧ n % 2 = 0 then some (s.onCtx t.ctx (fun c => { c with wp := setAt c.wp ((n - 0x48) / 2) v }))
    else if (srInfo n).isNone then none
    else edit

/-- The twin's team, group and image of a target, with the lane it names. -/
def State.twinGroup (s : State) (w : Twin) (team grp lane : Nat) : Option (Team × Group × Image) :=
  match s.team? team, s.group? team grp with
  | some t, some g =>
    match s.imageOf t with
    | some m => if t.ctx = w.num ∧ lane < g.lanes.length then some (t, g, m) else none
    | none => none
  | _, _ => none

/-- The physical address of bytes of the twin's view within one line: memory of this part, its host memory too (R342), on a page that is not metered (R354). -/
def State.twinBytes (s : State) (w : Twin) (va len : Nat) : Option Nat :=
  match s.translate w.num (BitVec.ofNat 64 va) .read with
  | .ok l => if l.part = s.part ∧ va % 256 + len ≤ 256 ∧ !l.met ∧ (s.meter? l.pa).isNone then some (s.placeFor w.num l.pa) else none
  | _ => none

/-- The cells of bytes that EDIT writes from an address on: the twin's view of HBM of this part (R346, R350). None where one has no such place. -/
def State.editCells (s : State) (w : Twin) : Nat → List Byte → Option (List Host.Cell)
  | _, [] => some []
  | va, b :: bs =>
    match s.translate w.num (BitVec.ofNat 64 va) .read with
    | .ok l => if l.part = s.part ∧ l.pa < Config.hostBase then (s.editCells w (va + 1) bs).map (fun cs => (s.placeFor w.num l.pa, b) :: cs) else none
    | _ => none

/-- EDIT (R350). -/
def execTwinEdit (fn ctx : Nat) (target : TwinTarget) (v : List Byte) (s : State) : Outcome State Fault Refusal :=
  twinCmd s fn ctx [.frozen] (fun w =>
    let val : Dword := BitVec.ofNat 64 (leNat (v.take 8))
    let bad := s.badArg fn 0x000C
    let ok := fun (s : State) => s.done fn 0x000C []
    match target with
    | .reg team grp lane n =>
      (match s.twinGroup w team grp lane with
       | some (t, g, m) => if m.regs ≤ n then bad else
           ok (s.onGroup t.uid g.idx (fun g => g.onLanes (BitVec.ofNat 64 (2 ^ lane)) (fun _ l => l.setReg n (val.setWidth 32))))
       | none => bad)
    | .pred team grp lane n =>
      (match s.twinGroup w team grp lane with
       | some (t, g, _) => if n = 0 ∨ 16 ≤ n then bad else
           ok (s.onGroup t.uid g.idx (fun g => g.onLanes (BitVec.ofNat 64 (2 ^ lane)) (fun _ l => l.setPred n (val.getLsbD 0))))
       | none => bad)
    | .mask team grp n =>
      (match s.twinGroup w team grp 0 with
       | some (t, g, _) => if 12 ≤ n then bad else
           ok (s.onGroup t.uid g.idx (fun g => { g with masks := setAt g.masks n (val &&& maskOf (fun _ => true) g.lanes.length) }))
       | none => bad)
    | .special team grp lane n =>
      (match s.twinGroup w team grp lane with
       | some (t, g, m) =>
         if n = 0x1A then s.refused fn 0x000C else
         match s.editSpecial t g m lane n val with
         | some s => ok s
         | none => bad
       | none => bad)
    | .bytes va len =>
      if len ≠ v.length ∨ len = 0 then bad else
      (match s.editCells w va v with
       | some cells =>
           match s.putCells w.num cells with
           | some s => ok s
           | none => nothing
       | none => bad)
    | .scratch team offset len =>
      (match s.twinGroup w team 0 0 with
       | some (t, _, m) => if len ≠ v.length ∨ m.scratch < offset + len then bad else
           ok (s.onTeam t.uid (fun t => { t with scratch := Memory.write t.scratch offset v }))
       | none => bad))

/-- TREAD (R354): a query of a frozen twin; in any other state, and for a metered page, it is answered with status 1 and no data. How a value lies in MBRES is
the model's (log 113): a register and a predicate as 4 bytes, a mask as 8, a special register as 4 or 8. -/
def execTread (fn ctx : Nat) (target : TwinTarget) (s : State) : Outcome State Fault Refusal :=
  twinCmd s fn ctx [.frozen] (fun w =>
    let bad := s.badArg fn 0x000C
    let word := fun (v : Nat) (n : Nat) => s.done fn 0x000C (leBytes n v)
    match target with
    | .reg team grp lane n =>
      (match s.twinGroup w team grp lane with
       | some (_, g, m) => if m.regs ≤ n then bad else word ((g.lane lane).reg n).toNat 4
       | none => bad)
    | .pred team grp lane n =>
      (match s.twinGroup w team grp lane with
       | some (_, g, _) => if 16 ≤ n then bad else word (if (g.lane lane).pred n then 1 else 0) 4
       | none => bad)
    | .mask team grp n =>
      (match s.twinGroup w team grp 0 with
       | some (_, g, _) => if 12 ≤ n then bad else word (getAt g.masks n 0).toNat 8
       | none => bad)
    | .special team grp lane n =>
      (match s.twinGroup w team grp lane, srInfo n with
       | some (t, g, m), some (width, _) =>
         (match s.launch? t.launch with
          | some l => word (s.srRead t g l m (g.lane lane).pcv n lane).toNat (4 * width)
          | none => bad)
       | _, _ => bad)
    | .bytes va len =>
      if len < 4 ∨ 256 < va % 256 + len then bad else
      (match s.twinBytes w va len with
       | some pa => s.done fn 0x000C ((List.range len).map (fun k => s.viewByte w.num (pa + k)))
       | none => s.refused fn 0x000C)
    | .scratch _ _ _ => bad)

/-- The status block of a context's twin (R352), which the host reads. -/
def State.twinStatus (s : State) (ctx : Nat) : List Byte :=
  let missed := leBytes 4 (((s.ctx? ctx).map (fun (c : Ctx) => c.missed)).getD (0 : Word)).toNat
  match s.twinOf? ctx with
  | none => List.replicate 24 0 ++ missed ++ leBytes 4 0
  | some w =>
    let code := match w.state with | .cutting => 1 | .frozen => 2 | .stepping => 3 | .rival => 4
    let lines := (List.range 16).map (fun st => (w.overlay.filter (fun o => o.line * 256 / 2 ^ 36 == st)).length)
    leBytes 4 (code + 256 * w.num) ++ leBytes 4 w.trig ++ leBytes 4 w.pc.toNat ++ leBytes 4 w.gid.toNat ++ leBytes 8 w.tval.toNat ++
      missed ++ leBytes 4 (maxOf lines)

end Sys2Proof.Machine
end

