-- ==== Sys2Proof/Machine/Fabric.lean ====
section
/-!
DEFINITION. The Gulair fabric at this part: exports, the reply cache, arriving requests and replies, custody, error notices and
retransmission, changes of the list of planes, link errors, engine data, and barriers at a spine (R357-R371).
A reply's payload is a status byte and the data: 0 performed, 1 INDETERMINATE, 2 refused, 3 busy, 4 refused as read-only, 5 poisoned, 6 refused by an
allowlist (log 15).
-/
namespace Sys2Proof.Machine

open Host (Outcome Cell)

/-! ### Export windows (R369) -/

/-- A field of an export window (R369). -/
def exField (v : BitVec 128) (lo n : Nat) : Nat := v.toNat / 2 ^ lo % 2 ^ n

/-- A valid window matches a source part and context and covers some bytes. -/
def exCovers (v : BitVec 128) (part ctx pa n : Nat) : Bool :=
  v.getLsbD 104 && exField v 116 12 == part && exField v 110 6 == ctx &&
    decide (exField v 16 36 * 65536 ≤ pa ∧ pa + n ≤ exField v 16 36 * 65536 + exField v 64 40 * 65536)

/-- The windows that cover an access. -/
def State.exportsFor (s : State) (part ctx pa n : Nat) : List (BitVec 128) :=
  (s.exports.map (fun e => e.2)).filter (fun v => exCovers v part ctx pa n)

/-- HBM of this part, or host memory that the host has mapped (R272). -/
def State.hostOk (s : State) (pa : Nat) : Bool := decide (pa < Config.hostBase) || s.windowed pa

/-- A metered page's allowlist has a launch's measurement (R391): 0, else 6. -/
def State.allowStatus (s : State) (pa : Nat) (meas : List Byte) : Nat :=
  match s.meter? pa with
  | some m => if m.allow.contains meas then 0 else 6
  | none => 0

/-- Whether a load is allowed: 0, or why it is refused: 2 without a window with R (R369), 6 by the allowlist of a metered page, which its launch's
measurement is not on (R391). -/
def State.loadStatus (s : State) (part ctx pa n : Nat) (meas : List Byte) : Nat :=
  if !((s.exportsFor part ctx pa n).any (fun v => v.getLsbD 105)) || !(s.hostOk pa) then 2 else s.allowStatus pa meas

/-- A store is allowed, or why it is refused: 2 for no window, 4 for one without W (R370), 6 by an allowlist (R268). -/
def State.storeStatus (s : State) (part ctx pa n : Nat) (meas : List Byte) : Nat :=
  let ws := s.exportsFor part ctx pa n
  if ws.isEmpty || !(s.hostOk pa) then 2 else if ws.any (fun v => v.getLsbD 106) then s.allowStatus pa meas else 4

/-- An atomic needs both (R369). -/
def State.atomStatus (s : State) (part ctx pa n : Nat) (meas : List Byte) : Nat :=
  if !((s.exportsFor part ctx pa n).any (fun v => v.getLsbD 105 && v.getLsbD 106)) || !(s.hostOk pa) then 2 else s.allowStatus pa meas

/-! ### Answers -/

/-- A packet is for a home of this part. -/
def State.arrives (s : State) (p : Packet) (kind : Nat) : Bool :=
  s.up && fabricOk p && p.kind == kind && p.dstPart == s.part && p.dstDie == homeDie p.key && decide (p.key < 2 ^ 52)

/-! ### The reply cache (R364, R365) -/

/-- ACKLO of a packet frees its source's entries below it (R364, R365). -/
def State.ackCache (s : State) (p : Packet) : State :=
  { s with cache := s.cache.filter (fun e => !(e.die == p.dstDie && e.src == p.srcPart && decide (e.rid < p.ackLo))) }

/-- The entry of a request. -/
def State.cached (s : State) (p : Packet) (atomic : Bool) : Option CacheEntry :=
  s.cache.find? (fun e => e.die == p.dstDie && e.src == p.srcPart && e.rid == p.rid && e.atomic == atomic)

/-- The expiry mark of a source at a die (R364). -/
def State.expiryMark (s : State) (die src : Nat) : Nat :=
  ((s.expiry.find? (fun x => x.1 == die && x.2.1 == src)).map (fun x => x.2.2)).getD 0

/-- Free an atomic entry other than by ACKLO (R364): the mark goes past it. -/
def State.freeAtomic (s : State) (e : CacheEntry) : State :=
  { s with cache := s.cache.filter (fun x => x != e)
           expiry := (e.die, e.src, max (s.expiryMark e.die e.src) (e.rid + 1)) :: s.expiry.filter (fun x => !(x.1 == e.die && x.2.1 == e.src)) }

/-- Neither the pool of a die nor a source's share has a free entry (R364). -/
def State.cacheFull (s : State) (die src : Nat) : Bool :=
  decide (65536 ≤ (s.cache.filter (fun e => e.die == die)).length) ||
    decide (4096 ≤ (s.cache.filter (fun e => e.die == die && e.src == src)).length)

/-- Room for one more entry of a source: the source's oldest atomic entry goes when the pool or its share is full. -/
def State.cacheRoom (s : State) (die src : Nat) : Option State :=
  if s.cacheFull die src then (s.cache.find? (fun e => e.die == die && e.src == src && e.atomic)).map s.freeAtomic else some s

/-- Make an entry for a request. -/
def State.makeEntry (s : State) (p : Packet) (atomic : Bool) (old : List Byte) (status : Nat) : State :=
  { s with cache := s.cache ++ [CacheEntry.mk p.dstDie p.srcPart p.rid atomic old status] }

/-- REPLY_CACHE_EXPIRY (R364): 1,000 µs after its step, an atomic entry is freed and the mark advances. -/
def execReplyCacheExpiry (die src : Nat) (rid : Word) (s : State) : Outcome State Fault Refusal :=
  match s.cache.find? (fun e => e.die == die && e.src == src && e.rid == rid.toNat && e.atomic) with
  | some e => .next (s.freeAtomic e)
  | none => nothing

/-! ### Arriving requests -/

/-- A request for a page in FREEZE or DRAIN takes its turn behind the earlier arrivals (R277, R278); performed, it leaves the queue. -/
def State.inTurn (s : State) (p : Packet) (k : Unit → Outcome State Fault Refusal) : Outcome State Fault Refusal :=
  match s.joinQueue (.packet p) p.key with
  | some (s, new) => if new then .next { s with begun := true } else nothing
  | none =>
    match k () with
    | .next s => .next (if s.begun then s else s.unqueued (.packet p))
    | o => o

/-- The packets of engine data that answer a sprayed load (R360): the bytes from the address on, with its transfer and its number. -/
def dataPacket (p : Packet) (data : List Byte) : Packet :=
  { kind := 0x08, spray := true, srcPart := p.dstPart, srcDie := p.dstDie, dstPart := p.srcPart, dstDie := p.srcDie, ctx := p.ctx,
    rid := p.rid, key := p.key, payload := sprayHead 0 (bytesAt p.payload 2 8) ++ data }

/-- The lines that an access from another part reads count at the tap of their home (R183, R392). -/
def State.tapFar (s : State) (pa n : Nat) : State :=
  s.tap ((linesOf pa n).map (fun k => ⟨s.part, k * 256, false, true, none, false⟩))

/-- LOAD_PACKET (R245, R359, R365, R370, R391): answered afresh each time it arrives; a refused or poisoned one without data; an acquire at
scope 3-6 meets the line's mark first. -/
def execLoadPacket (p : Packet) (s : State) : Outcome State Fault Refusal :=
  if !(s.arrives p 0x01) then nothing else
  let s := s.ackCache p
  let n := bytesAt p.payload 0 (if p.spray then 2 else 1)
  if n = 0 ∨ 4055 < n then nothing else
  let status := s.loadStatus p.srcPart p.ctx p.key n (p.payload.drop (if p.spray then 10 else 4))
  if status ≠ 0 then s.reply p status [] else
  s.inTurn p (fun _ =>
    if s.poisoned (s.place p.key) n then s.reply p 5 [] else
    match s.serveMarks none p.srcPart (bytesAt p.payload 2 2) 0 (if p.spray then 0 else bytesAt p.payload 1 1) [p.key / 256] with
    | none => nothing
    | some (s', false) => if s' = s then nothing else .next { s' with begun := true }
    | some (s, true) =>
      let data := s.viewRead 64 p.key n
      let s := s.tapFar p.key n
      if p.spray then
        .next ({ s with freeTick := s.freeTick + 1 }.send (.packet (s.stamped { dataPacket p data with plane := s.sprayPlane })))
      else s.reply p 0 data)

/-- The source has been answered busy about an earlier store to the line (R365). -/
def State.lineBusy (s : State) (p : Packet) : Bool :=
  s.busy.any (fun b => b.1 == p.srcPart && decide (b.2.1 < p.rid) && b.2.2 == p.key / 256)

/-- STORE_PACKET (R310, R364, R365, R369, R370): answered from its entry when it has one; busy without room, or behind a busy store to
its line; else refused, or performed at its home. -/
def execStorePacket (p : Packet) (s : State) : Outcome State Fault Refusal :=
  if !(s.arrives p 0x02) then nothing else
  let s := s.ackCache p
  match s.cached p false with
  | some e => s.reply p e.status []
  | none =>
    let isBusy := fun (s : State) =>
      let b := (p.srcPart, p.rid, p.key / 256)
      ({ s with busy := if s.busy.contains b then s.busy else s.busy ++ [b] } : State).reply p 3 []
    if s.lineBusy p then isBusy s else
    match s.cacheRoom p.dstDie p.srcPart with
    | none => isBusy s
    | some s =>
      let line := p.key / 256 * 256
      let bytes := storeBytes p.payload
      let lo := (bytes.map (fun b => b.1)).foldl min 255
      let hi := maxOf (bytes.map (fun b => b.1))
      let status := if bytes.isEmpty then 0 else s.storeStatus p.srcPart p.ctx (line + lo) (hi + 1 - lo) (p.payload.drop 288)
      let done := fun (s : State) =>
        ({ s with busy := s.busy.filter (fun b => !(b.1 == p.srcPart && b.2.1 == p.rid && homeDie (b.2.2 * 256) == p.dstDie)) }.makeEntry p false [] status).reply p status []
      if status ≠ 0 then done s else
      s.inTurn p (fun _ =>
        let cells := bytes.map (fun b => (s.place (line + b.1), b.2))
        match (cells.foldl (fun s c => s.logDirty c.1) s).putHome 64 cells with
        | some s => done s
        | none => nothing)

/-- ATOMIC_PACKET (R149, R245, R364, R369, R370): applied once, or answered from its entry, or INDETERMINATE below the mark; an acquire at
scope 3-6 meets the line's mark first. -/
def execAtomicPacket (p : Packet) (s : State) : Outcome State Fault Refusal :=
  if !(s.arrives p 0x03) then nothing else
  let s := s.ackCache p
  let o := p.aux / 8 % 16
  let c := p.aux % 8
  let n := atomBytes o
  match s.cached p true with
  | some e => s.reply p e.status e.old
  | none =>
    if p.rid < s.expiryMark p.dstDie p.srcPart then s.reply p 1 [] else
    let status := s.atomStatus p.srcPart p.ctx p.key n (p.payload.drop (4 * atomBlock o + 2))
    if status ≠ 0 then s.reply p status [] else
    s.inTurn p (fun _ =>
      if s.poisoned (s.place p.key) n then s.reply p 5 [] else
      let core := bytesAt p.payload (4 * atomBlock o) 2
      match s.serveMarks none p.srcPart core 0 c [p.key / 256] with
      | none => nothing
      | some (s', false) => if s' = s then nothing else .next { s' with begun := true }
      | some (s, true) =>
        match s.cacheRoom p.dstDie p.srcPart with
        | none => nothing
        | some s =>
          let old := s.viewRead 64 p.key n
          let s' := match atomStep o old p.payload with
            | none => some s
            | some bs => (s.logDirty p.key).putHome 64 (mapFrom (fun k b => (s.place (p.key + k), b)) 0 bs)
          match s' with
          | some s => (((if c ≤ 2 then s.mark p.srcPart core [p.key / 256] else s).makeEntry p true old 0).tapFar p.key n).reply p 0 old
          | none => nothing)

/-! ### Changing the list of planes (R361) -/

/-- ACTIVE_LIST_CHANGE (R361): the list of usable planes is to change; ordered packets wait until the old ones are answered. -/
def execActiveListChange (planes : List Nat) (s : State) : Outcome State Fault Refusal :=
  if planes.all (fun p => decide (p < 36)) && planes == sortBy id planes.eraseDups then .next ({ s with nextPlanes := some planes } : State).settlePlanes
  else nothing

/-- FLIT_CRC_ERROR (R357): a replay is not visible; 16 failed ones in a row take the link down, and its plane out of the list. -/
def execFlitCrcError (port : Nat) (replayed : Bool) (s : State) : Outcome State Fault Refusal :=
  if 36 ≤ port ∨ s.linksDown.contains port then nothing else
  if replayed then .next { s with links := putKey port 0 s.links } else
  let n := lookupD port 0 s.links + 1
  let s := { s with links := putKey port n s.links }
  if n < 16 then .next s else
  let s := { s with linksDown := port :: s.linksDown }.send (.linkDown port)
  .next ({ s with nextPlanes := some ((s.nextPlanes.getD s.planes).filter (fun q => q != port)) } : State).settlePlanes

/-! ### Replies, custody and timers (R362, R363, R365) -/

/-- The ordered request that a packet names. -/
def State.reqOf (s : State) (part die rid : Nat) : Option Req :=
  s.reqs.find? (fun r => !r.host && !r.pkt.spray && r.part == part && r.die == die && r.pkt.rid == rid)

/-- The request of a sprayed packet that an answer names. -/
def State.sprayOf (s : State) (part die rid key : Nat) : Option Req :=
  s.reqs.find? (fun r => !r.host && r.pkt.spray && r.part == part && r.die == die && r.pkt.rid == rid && r.pkt.key == key)

/-- Forget a request. -/
def State.dropReq (s : State) (r : Req) : State := { s with reqs := s.reqs.filter (fun x => x.id != r.id) }

/-- A sector of a slice that a refused sprayed load would have brought. -/
def State.refusedSector (s : State) (r : Req) (sl : Slice) : Option Nat :=
  if !sl.asked || sl.ended || sl.dir != 0 || sl.xfer != bytesAt r.pkt.payload 2 8 then none else
  (List.range sl.sectors).find? (fun k =>
    match s.translate r.pkt.ctx (BitVec.ofNat 64 (sl.gaddr k)) .read with
    | .ok l => l.part == r.part && decide (l.pa / 32 = r.pkt.key / 32)
    | _ => false)

/-- A refused sprayed load stops the slices and collectives of its transfer, a twin's copies among them, with ACCESS (R186, R344, R370, R391). -/
def State.refuseRows (s : State) (r : Req) (status : Nat) : State :=
  if r.pkt.kind ≠ 1 then s else
  let detail := if status = 5 then 0x0B else if status = 6 then 0x0C else 0x04
  let s := { s with colls := s.colls.map (fun (c : CollOp) =>
    match s.refusedSector r c.src with
    | some k => { c with src := { c.src with fault := true, cause := 0x05, fval := BitVec.ofNat 64 (c.src.gaddr k) } }
    | none => c) }
  s.copies.foldl (fun s c =>
    c.slices.foldl (fun s sl =>
      match s.refusedSector r sl with
      | some k => s.endSlice c.team c.n sl true 0x05 detail (BitVec.ofNat 64 (sl.gaddr k))
      | none => s) s) s

/-- The first of some sectors that an engine has written and another part has refused in a request. -/
def State.refusedWrite (s : State) (r : Req) (ctx n : Nat) (addr : Nat → Nat) : Option Nat :=
  (List.range n).find? (fun k =>
    match s.translate ctx (BitVec.ofNat 64 (addr k)) .write with
    | .ok l => l.part == r.part && (if r.pkt.spray then l.pa == r.pkt.key else l.pa / 256 == r.pkt.key / 256)
    | _ => false)

/-- A store of an engine that another part has refused stops its transfer with FAULT and ACCESS (R370): nothing from that sector on has landed. -/
def State.stopWrites (s : State) (r : Req) : State :=
  if r.pkt.kind ≠ 2 ∧ r.pkt.kind ≠ 8 then s else
  let ctx := s.ctxOf r.team
  { s with
    copies := s.copies.map (fun (c : TeamCopy) => if c.team ≠ r.team then c else { c with slices := c.slices.map (fun (sl : Slice) =>
      if sl.ended || sl.dir != 1 then sl else
      match s.refusedWrite r ctx sl.landed sl.gaddr with
      | some k => { sl with fault := true, cause := 0x05, landed := k, fval := BitVec.ofNat 64 (sl.gaddr k) }
      | none => sl) })
    colls := s.colls.map (fun (c : CollOp) => if c.team ≠ r.team then c else
      match c.landed.bind (fun n => s.refusedWrite r ctx n (fun k => c.dst + 32 * k)) with
      | some k => { c with landed := some k, src := { c.src with fault := true, cause := 0x05, fval := BitVec.ofNat 64 (c.dst + 32 * k) } }
      | none => c) }

/-- End a request with an answer (R310, R363, R370): a load's or atomic's goes to its access, a store retires or is refused, and the
queue monitor's goes to its packet; an engine's transfer stops where it is refused. -/
def State.answered (s : State) (r : Req) (status : Nat) (data : List Byte) : State :=
  match r.acc, r.monitor with
  | some (id, lane), _ => (s.dropReq r).onAccess id (fun a => { a with got := a.got ++ [(lane, data, status)] })
  | none, some (q, addr, va) =>
    let s := s.dropReq r
    if q = 256 then { s with far := s.far.map (fun (x : FarLine) =>
      if x.part = r.part ∧ x.addr = va ∧ x.write = (addr == 2) then { x with data := some data, ok := status == 0 } else x) } else
    if status ≠ 0 then s else
      let s := s.onLinked q addr (fun h => { h with got := putKey va data h.got })
      match (s.queue? q).bind (fun x => x.linked.find? (fun h => h.addr == addr)) with
      | some h => s.oweOnce (.dependenceReady q h.prio)
      | none => s
  | none, none =>
    let s := match r.wc with | some e => { s with heldOut := s.heldOut.filter (fun x => x.id != e.id) } | none => s
    if r.pkt.kind = 7 then
      let s := s.dropReq r
      if bytesAt r.pkt.payload 2 1 < 3 then s else { s with marks := s.marks.filter (fun m => !(m.asked && m.part == r.part && m.line == r.pkt.key / 256)) }
    else
    if r.pkt.spray then (if status = 0 then s.dropReq r else ((s.refuseRows r status).stopWrites r).dropReq r) else
    if status = 0 then s.dropReq r else (s.stopWrites r).refuseStore r (if status = 4 then 1 else 0)

/-- REPLY_PACKET (R341, R363, R365): the reply ends its request; a busy one leaves it to be sent again; one that carries the cut mark makes its core cut
first. -/
def execReplyPacket (p : Packet) (s : State) : Outcome State Fault Refusal :=
  if p.kind ≠ 0x04 ∨ !(fabricOk p) ∨ p.dstPart ≠ s.part ∨ p.payload.isEmpty then nothing else
  let status := (getAt p.payload 0 (0 : Byte)).toNat
  match (if p.spray then s.sprayOf p.srcPart p.srcDie p.rid p.key else s.reqOf p.srcPart p.srcDie p.rid) with
  | none => .next s
  | some r =>
    match (if p.cut then s.cutFirst p.ctx r.core else some s) with
    | none => nothing
    | some s =>
      if status = 3 then
        .next ({ s with reqs := s.reqs.map (fun (x : Req) => if x.id = r.id then { x with busy := true } else x) } : State).settlePlanes
      else .next (s.answered r status (p.payload.drop 1)).settlePlanes

/-- A request that a custody packet or an error notice is about: such a packet names its RID and KEY, and its source is that request's target (log 15). -/
def Req.isAbout (r : Req) (p : Packet) : Bool :=
  !r.host && r.part == p.srcPart && r.die == p.srcDie && r.pkt.rid == p.rid && r.pkt.key == p.key && r.pkt.spray == p.spray

/-- CUSTODY_PACKET (R146, R362): the next hop owns the packet. -/
def execCustodyPacket (p : Packet) (s : State) : Outcome State Fault Refusal :=
  if p.kind ≠ 0x05 ∨ !(fabricOk p) ∨ p.dstPart ≠ s.part then nothing else
  .next { s with reqs := s.reqs.map (fun (r : Req) => if r.isAbout p then { r with custody := true } else r) }

/-- ERROR_NOTICE (R362, R363): a switch cannot deliver a request, for one of three reasons; it is sent again once the list of planes has changed. -/
def execErrorNotice (p : Packet) (s : State) : Outcome State Fault Refusal :=
  let reason := (getAt p.payload 0 (0 : Byte)).toNat
  if p.kind ≠ 0x06 ∨ !(fabricOk p) ∨ p.dstPart ≠ s.part ∨ reason = 0 ∨ 3 < reason then nothing else
  .next ({ s with reqs := s.reqs.map (fun (r : Req) => if r.isAbout p then { r with failed := reason } else r) } : State).settlePlanes

/-- RETRANSMIT_TIMEOUT (R363): without a reply the request is sent again, at most four times in all; then it is refused as if by the
target, and the host learns that the peer is down. -/
def execRetransmitTimeout (req : Nat) (s : State) : Outcome State Fault Refusal :=
  match s.reqs.find? (fun r => r.id == req && !r.host && !r.busy) with
  | none => nothing
  | some r =>
    if s.quarantined r.pkt.ctx then nothing else
    if r.sends < 4 then .next (s.resend r true)
    else .next ((s.answered r 2 []).send (.peerDown r.part r.die)).settlePlanes

/-- BUSY_RESEND (R365): the busy stores of a target are sent again in the order of their ids; this does not count as a send. -/
def execBusyResend (part die : Nat) (s : State) : Outcome State Fault Refusal :=
  let rs := sortBy (fun (r : Req) => r.pkt.rid) (s.reqs.filter (fun r => !r.host && r.busy && r.part == part && r.die == die))
  if rs.isEmpty || s.nextPlanes.isSome then nothing else .next (rs.foldl (fun s r => s.resend r false) s)

/-! ### Engine data (R360) -/

/-- Bytes of another part land in the slices and collectives of the transfer that asked for them, a twin's copies among them (R344), and answer their
request. -/
def State.landRows (s : State) (p : Packet) : State :=
  let xfer := bytesAt p.payload 1 8
  let land := fun (sl : Slice) => if sl.asked && !sl.ended && sl.xfer == xfer then
    { sl with arrived := cellsWrite sl.arrived (p.srcPart * 2 ^ 52 + p.key) (p.payload.drop 9) } else sl
  { s with copies := s.copies.map (fun (c : TeamCopy) => { c with slices := c.slices.map land })
           colls := s.colls.map (fun (c : CollOp) => { c with src := land c.src })
           reqs := s.reqs.filter (fun r => !(r.pkt.spray && r.pkt.kind == 1 && r.part == p.srcPart && r.pkt.rid == p.rid && r.pkt.key == p.key)) }

/-- An engine of another part writes a sector of the shadow of a region here (R193, R195, R369): performed, or refused, and answered. None while the
background copy runs over it, or while its home must wait. -/
def State.landShadow (s : State) (p : Packet) : Option State :=
  let bs := (p.payload.drop 9).take 32
  let answer := fun (s : State) (status : Nat) => s.send (.packet (s.stamped (replyTo p status [])))
  let status := s.storeStatus p.srcPart p.ctx p.key 32 []
  if status ≠ 0 then some (answer s status) else
  match s.shadow 64 p.key with
  | none => some (answer s 2)
  | some (_, true) => none
  | some (pa, false) => if (s.queueing? p.key).isSome then none else
      (((cellsAt pa bs).foldl (fun s c => s.logDirty c.1) s).putHome 64 (cellsAt pa bs)).map (fun s => answer s 0)

/-- What a sprayed packet carries lands. None waits. -/
def State.landSprayed (s : State) (p : Packet) : Option State :=
  if getAt p.payload 0 (0 : Byte) = 1#8 then s.landShadow p else some (s.landRows p)

/-- Land the packets of a reorder buffer that follow in order of their numbers. None waits: for one of them. -/
def State.landInOrder (s : State) : Nat → Nat → List Packet → Option (State × Nat × List Packet)
  | 0, n, ps => some (s, n, ps)
  | k + 1, n, ps =>
    match ps.find? (fun p => p.rid == n) with
    | some p => (s.landSprayed p).bind (fun (s : State) => s.landInOrder k (n + 1) (ps.filter (fun q => q.rid != n)))
    | none => some (s, n, ps)

/-- The bytes that the reorder buffer of a die holds (R360). -/
def State.reorderBytes (s : State) (die : Nat) : Nat :=
  sumOf (((s.reorder.filter (fun r => r.die == die)).map (fun r => r.packets)).flatten.map (fun p => p.payload.length))

/-- ENGINE_DATA_PACKET (R360): a sprayed packet waits in the die's reorder buffer of 2 MiB until every lower-numbered one of its transfer has landed;
without room there it stays in the fabric. The last one ends the transfer. -/
def execEngineDataPacket (p : Packet) (last : Bool) (s : State) : Outcome State Fault Refusal :=
  if p.kind ≠ 0x08 ∨ !(fabricOk p) ∨ p.dstPart ≠ s.part ∨ !p.spray ∨ p.payload.length < 9 then nothing else
  let xfer := bytesAt p.payload 1 8
  let mine := fun (r : Reorder) => r.die == p.dstDie && r.src == p.srcPart && r.srcDie == p.srcDie && r.xfer == xfer
  let old := (s.reorder.find? mine).getD ⟨p.dstDie, p.srcPart, p.srcDie, xfer, 0, []⟩
  let rest := s.reorder.filter (fun r => !(mine r))
  if p.rid < old.next ∨ old.packets.any (fun q => q.rid == p.rid) then .next s
  else if old.next < p.rid then
    if 2 ^ 21 < s.reorderBytes p.dstDie + p.payload.length then nothing
    else .next { s with reorder := { old with packets := old.packets ++ [p] } :: rest }
  else
    match (s.landSprayed p).bind (fun (s : State) => s.landInOrder old.packets.length (old.next + 1) old.packets) with
    | none => nothing
    | some (s, n, ps) =>
      .next { s with reorder := if last && ps.isEmpty then rest else { old with next := n, packets := ps } :: rest }

/-! ### Barriers (R371, R289, R228) -/

/-- The set of a barrier packet. -/
def barrierSet (p : Packet) : List Nat := (chunksOf 2 ((p.payload.length - 4) / 2) (p.payload.drop 4)).map leNat

/-- The release packets of a barrier: to each member, in ascending order, PASS, STATUS, the start count, and the set (R371, R372; log 15). -/
def State.releaseBarrier (s : State) (p : Packet) (set : List Nat) (kind : Nat) (pass : Bool) (status : Nat) : State :=
  let old := ((s.starts.find? (fun x => x.1 == set)).map (fun x => x.2)).getD 0
  let count := if kind = 0 ∧ pass then (old + 1) % 2 ^ 32 else old
  let s := { s with
    barriers := s.barriers.filter (fun b => !(b.parts == set && b.kind == kind))
    starts := (set, count) :: s.starts.filter (fun x => x.1 != set) }
  let body : List Byte := (if pass then 1 else 0) :: BitVec.ofNat 8 status :: leBytes 4 count ++ (set.map (leBytes 2)).flatten
  (sortBy id set).foldl (fun s m => s.send (.packet { p with kind := 0x0D, dstPart := m, dstDie := 0, payload := body })) s

/-- BARRIER_PACKET (R371, R372): a member arrives at the reduction unit of the spine that its path leads to, which serves 4,096 sets at a time; with the last
one the unit combines and releases. -/
def execBarrierPacket (plane spine : Nat) (p : Packet) (s : State) : Outcome State Fault Refusal :=
  if p.kind ≠ 0x0C ∨ !(fabricOk p) ∨ p.payload.length < 6 ∨ !(routerOk (.spine plane spine)) then nothing else
  let set := barrierSet p
  let kind := p.key / 2 ^ 32 % 2
  let part := bytesAt p.payload 2 2
  let here := fun (b : SpineBarrier) => b.plane == plane && b.spine == spine
  let mine := fun (b : SpineBarrier) => here b && b.parts == set && b.kind == kind
  if !(s.barriers.any mine) && decide (4096 ≤ (s.barriers.filter here).length) then nothing else
  let old := (s.barriers.find? mine).getD ⟨plane, spine, set, kind, []⟩
  if !(set.contains part) ∨ old.arrived.any (fun a => a.1 == part) then .next s else
  let arrived := old.arrived ++ [(part, getAt p.payload 0 (0 : Byte) != 0, (getAt p.payload 1 (0 : Byte)).toNat)]
  if set.all (fun m => arrived.any (fun a => a.1 == m)) then
    let bad := (sortBy (fun (a : Nat × Bool × Nat) => a.1) (arrived.filter (fun a => !a.2.1))).head?
    let ended := if kind = 1 ∧ arrived.all (fun a => a.2.2 == 0x80) then 0x80 else 0
    .next (s.releaseBarrier p set kind bad.isNone ((bad.map (fun a => a.2.2)).getD ended))
  else .next { s with barriers := { old with arrived := arrived } :: s.barriers.filter (fun b => !(mine b)) }

/-- BARRIER_HOME_FAILURE (R371): an open barrier ends as failed with status 0x24; its start count is kept by the mirror. -/
def execBarrierHomeFailure (set : List Nat) (kind : Nat) (s : State) : Outcome State Fault Refusal :=
  match s.barriers.find? (fun b => b.parts == set && b.kind == kind) with
  | some b => .next (s.releaseBarrier { kind := 0x0D, plane := b.plane, key := set.foldl min (set.headD 0) + 2 ^ 32 * kind } set kind false 0x24)
  | none => nothing

/-- RELEASE_PACKET (R371, R228): a barrier of this part ends: a multi-part start goes on or is refused, a facsimile cut is taken; a part whose teams had all
ended arrives again for the next cut of the others, until all of them have. -/
def execReleasePacket (p : Packet) (s : State) : Outcome State Fault Refusal :=
  if p.kind ≠ 0x0D ∨ !(fabricOk p) ∨ p.dstPart ≠ s.part ∨ p.payload.length < 6 then nothing else
  let pass := getAt p.payload 0 (0 : Byte) != 0
  let set := (chunksOf 2 ((p.payload.length - 6) / 2) (p.payload.drop 6)).map leNat
  if p.key / 2 ^ 32 % 2 = 0 then
    match s.queues.findSome? (fun q => (q.linked.find? (fun h => q.waits h.addr && replicaSet q h.packet == set)).map (fun h => (q, h))) with
    | none => nothing
    | some (q, h) =>
      match s.startRelease q h pass (getAt p.payload 1 (0 : Byte)).toNat (bytesAt p.payload 2 4) with
      | some s => .next s
      | none => nothing
  else
    match s.launches.find? (fun l => l.facSent && s.replicas l == set) with
    | some l =>
      match l.facWait with
      | some (_, regions) => .next ({ s with facEnded := s.facEnded.filter (fun x => x != set) }.facsimCut l regions pass)
      | none => nothing
    | none =>
      if !(s.facEnded.contains set) then nothing else
      if pass ∧ getAt p.payload 1 (0 : Byte) = 0x80#8 then .next { s with facEnded := s.facEnded.filter (fun x => x != set) }
      else .next (s.arriveEnded p.ctx set)

end Sys2Proof.Machine
end

