-- ==== Sys2Proof/Machine/Matrix.lean ====
section
/-!
DEFINITION. The matrix engine: operands, one chunk's products and sums, tile checksums, MMA and the MXCTL functions (R157-R176,
R94, R95, R270).
-/
namespace Sys2Proof.Machine

open Host (Outcome)

/-! ### Elements (R81, R88, R90) -/

/-- The pattern of element `k` of packed bytes (R81). -/
def elemAt (code : Nat) (bs : List Byte) (k : Nat) : Nat :=
  match elemBits code with
  | 16 => bytesAt bs (2 * k) 2
  | 8 => bytesAt bs k 1
  | _ => bytesAt bs (k / 2) 1 / (if k % 2 = 1 then 16 else 1) % 16

/-- The floating format of a code (R92). -/
def fmtOf (code : Nat) : Fmt :=
  match code with
  | 0 => Fmt.bf16 | 1 => Fmt.f16 | 2 => Fmt.e4m3 | 3 => Fmt.e5m2 | _ => Fmt.e2m1

/-- An integer element (R80). -/
def intElem (code raw : Nat) : Int :=
  match code with
  | 5 => (BitVec.ofNat 8 raw).toInt
  | 7 => (BitVec.ofNat 4 raw).toInt
  | _ => (raw : Int)

/-- An element as a value. -/
def elemVal (code raw : Nat) : Val :=
  if isFloat code then (fmtOf code).decode raw else Val.ofInt false (intElem code raw) 0

/-- An element under an E8M0 scale (R90): 0xFF makes it NaN. -/
def scaleVal (e : Nat) (v : Val) : Val :=
  if e = 255 then .nan else
  match v with
  | .fin neg m x => .fin neg m (x + (e : Int) - 127)
  | v => v

/-- The values of one column of codebook index rows (R88, R89): `ixs` are its indices, lowest K first. -/
def codebookColumn (lattice : List Word) (ixs : List Nat) : List Val :=
  (ixs.map (fun ix => (codebookQuarters ix (getAt lattice (ix / 256) 0).toNat).map quarterVal)).flatten

/-- The values of a scaled operand along K: `sc k` is the scale byte of position `k`. -/
def scaleRow (on : Bool) (sc : Nat → Nat) (vs : List Val) : List Val :=
  if on then mapFrom (fun k v => scaleVal (sc k) v) 0 vs else vs

/-! ### Sums (R94, R95, R173) -/

/-- The exact sum of some products (R94): a zero is -0 only when all are -0. -/
def exactSum : List Val → Val
  | [] => .fin false 0 0
  | p :: ps => ps.foldl (Val.add .rne) p

/-- The exact sum, rounded once to FP32 (R94). -/
def chunkSum (ps : List Val) : Word := BitVec.ofNat 32 (Fmt.f32.encode .rne false (exactSum ps))

/-- Products along K. -/
def products (a b : List Val) : List Val := List.zipWith Val.mul a b

/-- An exact integer value modulo 2^32. -/
def intWord (v : Val) : Word :=
  match v with
  | .fin neg m e => BitVec.ofInt 32 (sgn neg (m * 2 ^ e.toNat))
  | _ => 0

/-- Add a sum of products to an FP32 or i32 word (R94, R95, R173). -/
def accAdd (i32 : Bool) (x : Word) (ps : List Val) : Word :=
  if i32 then x + intWord (exactSum ps) else f32Sum .rne x (chunkSum ps)

/-! ### Tiles (R159, R165, R173) -/

/-- A tile that nothing has written since placement (R265). -/
def Tile.fresh : Tile := ⟨List.replicate 256 0, List.replicate 16 0, List.replicate 16 0, false, 0⟩

/-- A cleared tile (R170). -/
def Tile.clear : Tile := ⟨List.replicate 256 0, List.replicate 16 0, List.replicate 16 0, true, 0⟩

/-- A tile of a team. -/
def Team.tile (t : Team) (n : Nat) : Tile := lookupD n Tile.fresh t.tiles

/-- Write a tile of a team. -/
def Team.setTile (t : Team) (n : Nat) (x : Tile) : Team := { t with tiles := putKey n x t.tiles }

/-- Column `j` of a tile. -/
def Tile.column (t : Tile) (j : Nat) : List Word := (List.range 16).map (fun i => getAt t.elems (16 * i + j) 0)

/-- Row `i` of a tile. -/
def Tile.row (t : Tile) (i : Nat) : List Word := (t.elems.drop (16 * i)).take 16

/-- One chunk into a tile (R165, R94, R95) with its checksums (R173): `a` has 16 rows and `b` 16 columns of Kc values. -/
def Tile.mac (t : Tile) (fw : Word) (a b : List (List Val)) : Tile :=
  let i32 := fwAcc fw
  let ps := a.map (fun r => b.map (fun c => products r c))
  let elems := mapFrom (fun k x => accAdd i32 x (getAt (getAt ps (k / 16) []) (k % 16) [])) 0 t.elems
  let ty := if fwCksum fw ∧ t.ty = 0 then (if i32 then 2 else 1) else t.ty
  let v := t.v && fwCksum fw && (ty == (if i32 then 2 else 1))
  if v then
    { elems := elems
      chc := mapFrom (fun j x => accAdd i32 x ((ps.map (fun r => getAt r j [])).flatten)) 0 t.chc
      chr := mapFrom (fun i x => accAdd i32 x ((getAt ps i []).flatten)) 0 t.chr
      v := true
      ty := ty }
  else { t with elems := elems, v := false, ty := ty }

/-- A tile from its 1,024 bytes (R170, MXLD). -/
def Tile.load (bs : List Byte) : Tile :=
  let elems := bytesWords 256 bs
  let t : Tile := ⟨elems, [], [], true, 1⟩
  let sum := fun (ws : List Word) => chunkSum (ws.map (fun w => Fmt.f32.decode w.toNat))
  { t with chc := (List.range 16).map (fun j => sum (t.column j)), chr := (List.range 16).map (fun i => sum (t.row i)) }

/-! ### Compare and correct (R174, R175) -/

/-- A finite FP32 word in units of 2^-149. -/
def f32Units (w : Word) : Option Int :=
  match Fmt.f32.decode w.toNat with
  | .fin neg m e => some (sgn neg (m * 2 ^ (e + 149).toNat))
  | _ => none

/-- Some finite words in units of 2^-149; none when one is not finite. -/
def unitsOf : List Word → Option (List Int)
  | [] => some []
  | w :: ws => match f32Units w, unitsOf ws with | some x, some xs => some (x :: xs) | _, _ => none

/-- The sum of some integers. -/
def sumInt : List Int → Int
  | [] => 0
  | x :: xs => x + sumInt xs

/-- The sum of the magnitudes of some integers. -/
def sumAbs : List Int → Nat
  | [] => 0
  | x :: xs => x.natAbs + sumAbs xs

/-- A column or row mismatches its checksum (R174): `ty` 1 FP32, 2 i32. -/
def mismatch (ty : Nat) (tol : Word) (ws : List Word) (c : Word) : Bool :=
  if ty = 2 then ws.foldl (· + ·) 0 != c else
  if ty = 1 then
    match unitsOf ws, f32Units c, f32Units tol with
    | some xs, some x, some t => decide (t.natAbs * sumAbs xs < (sumInt xs - x).natAbs * 2 ^ 149)
    | _, _, _ => false
  else false

/-- The value that a column's checksum gives its element `i` (R175). -/
def recompute (ty : Nat) (ws : List Word) (i : Nat) (c : Word) : Word :=
  let others := ws.eraseIdx i
  if ty = 2 then c - others.foldl (· + ·) 0 else
  match unitsOf others, f32Units c with
  | some xs, some x => BitVec.ofNat 32 (Fmt.f32.encode .rne false (Val.ofInt false (x - sumInt xs) (-149)))
  | _, _ => c

/-- What a compare finds (R175, R176). -/
inductive Verdict
  | pass
  | corrected (t : Tile)
  | uncorrectable (detail : Nat)
deriving DecidableEq, Repr

/-- Compare a tile and correct one element (R174, R175). -/
def Tile.check (t : Tile) (tol : Word) : Verdict :=
  if !t.v then .pass else
  let rm := (List.range 16).filter (fun i => mismatch t.ty tol (t.row i) (getAt t.chr i 0))
  let cm := (List.range 16).filter (fun j => mismatch t.ty tol (t.column j) (getAt t.chc j 0))
  match rm, cm with
  | [], [] => .pass
  | [i], [j] =>
    let t' := { t with elems := setAt t.elems (16 * i + j) (recompute t.ty (t.column j) i (getAt t.chc j 0)) }
    if mismatch t.ty tol (t'.row i) (getAt t.chr i 0) then .uncorrectable 0x11 else .corrected t'
  | _, _ => .uncorrectable (min rm.length 15 * 16 + min cm.length 15)

/-- Each corrected tile adds one to its core's corrected-tile count (R175). -/
def State.corrected (s : State) (t : Team) (tiles : List Nat) : State :=
  tiles.foldl (fun s n => s.onCore (t.tileCore n) (fun c => { c with corrected := c.corrected + 1 })) s

/-! ### At issue -/

/-- A TILEOP holds the engine of one of some cores (R157, R164 row 9, R184). -/
def State.engineHeld (s : State) (ctx : Nat) (cores : List Nat) : Bool :=
  s.tileops.any (fun o => match s.team? o.team with | some u => u.ctx == ctx && (o.cores u).any cores.contains | none => false)

/-- The waits of an operation on some tiles and bytes at issue: an earlier acquire and a slice's bytes (R146, R191), a checksum line that is
still to be restored (R159), and a TILEOP on the engine or on the bytes (R167, R184). -/
def Issue.matrixWaits (i : Issue) (s : State) (tiles : List Nat) (offs : List Nat) (n : Nat) (cores : List Nat) : Option Stop :=
  let sums := (tiles.map checksumLine).filter i.team.isPending
  if s.acquiring i || offs.any (fun x => s.sliceMeets i.cur.team x n) then some (.wait 6 s) else
  if !sums.isEmpty then some (.wait 4 (s.onGroup i.cur.team i.cur.grp (fun g => { g with lineWait := sums }))) else
  if s.engineHeld i.team.ctx cores || s.tileops.any (fun o => o.team == i.cur.team && o.grp == i.cur.grp && offs.any (fun x => o.rows.any (fun r => r.meets x n)))
  then some (.wait 11 s) else none

/-- Matrix work that has taken its tiles and operands, and whose completion, with the bytes that it writes, is still to come (R167, R258). -/
def Issue.matrixDone (i : Issue) (s : State) (f : Group → Group) (writes : List (Nat × List Byte)) : Outcome State Fault Refusal :=
  let s := { s with nextId := s.nextId + 1, works := s.works ++ [Work.mk s.nextId i.cur.team i.cur.grp writes] }.owe (.matrixWorkCompletion s.nextId)
  i.retire f s

/-- The operand words that lanes must agree on (R160, R164 row 2): the first that differs. -/
def divergence (ls : List Nat) (ws : Nat → List Word) : Option Nat :=
  let first := ws (ls.head?.getD 0)
  (List.range first.length).find? (fun k => ls.any (fun l => getAt (ws l) k 0 != getAt first k 0))

/-- Operand A assembled from the lanes' registers (R161). -/
def Issue.matrixRows (i : Issue) (g : Guard) (a : RegField) : List (List Byte) :=
  let parts := i.width / 16
  let regs := 128 / max i.width 1
  (List.range 16).map (fun r => ((List.range parts).map (fun p =>
    let l := 16 * p + r
    if inMask (i.effect g) l then wordsBytes ((List.range regs).map (fun k => i.regAt a k l)) else List.replicate (4 * regs) 0)).flatten)

/-- The rows of operand A as values, with their scales (R163). -/
def mmaRows (fw sa : Word) (rows : List (List Byte)) : List (List Val) :=
  let s := blockSize fw
  rows.map (fun bs => scaleRow (s != 0 && isScaled (fwA fw)) (fun k => bytesAt (wordsBytes [sa]) (k / max s 1) 1)
    ((List.range (chunkLen fw)).map (fun k => elemVal (fwA fw) (elemAt (fwA fw) bs k))))

/-- The columns of operand B as values, with their scales (R162, R163). -/
def mmaColumns (fw sb : Word) (lattice : List Word) (bs : List Byte) : List (List Val) :=
  let s := blockSize fw
  let kc := chunkLen fw
  let code := fwB fw
  let rowBytes := 2 * elemBits code
  (List.range 16).map (fun j => scaleRow (s != 0 && isScaled code) (fun k => bytesAt (wordsBytes [sb]) (k / max s 1) 1)
    (if code = 9 then codebookColumn lattice ((List.range (kc / 8)).map (fun q => bytesAt bs (32 * q + 2 * j) 2))
     else (List.range kc).map (fun k => elemVal code (elemAt code (bs.drop (k * rowBytes)) j))))

/-- A read of a bad line or tile ends the team (R270). -/
def State.readBad (s : State) (t : Team) (lines tiles : List Nat) : Option State :=
  match lines.find? t.bad.contains, tiles.find? t.badTiles.contains with
  | some l, _ => some (s.deliverE t.uid 0 (BitVec.ofNat 64 l))
  | none, some n => some (s.deliverE t.uid 1 (BitVec.ofNat 64 n))
  | none, none => none

/-- The lattice table of the issuing context (R87). -/
def Issue.lattice (i : Issue) (s : State) : List Word := ((s.ctx? i.team.ctx).map (fun c => c.lattice)).getD []

/-- Registers of operand A (R160). -/
def Issue.aRegs (i : Issue) : Nat := 128 / max i.width 1

/-- MMA (R160-R166). -/
def execMma (g : Guard) (d a b : RegField) (s : State) : Outcome State Fault Refusal :=
  issued s true (fun i => [.rw d 4, .srcNoLatch a i.aRegs, .srcNoLatch b 1]) true (fun i =>
    let ls := i.taking g
    if ls.isEmpty then i.skip s else
    let l := i.first g
    match divergence ls (fun l => (List.range 4).map (fun k => i.regAt d k l) ++ [i.regAt b 0 l]) with
    | some k => i.raise ⟨0x07, k, 0⟩ s
    | none =>
      let fw := i.regAt d 0 l
      let ti := (i.regAt d 1 l).toNat
      let bo := (i.regAt b 0 l).toNat
      if !(fmtValid fw) then i.raise (Trap.illegal 0x10) s else
      if i.grp.coll.held && i.grp.coll.fmt != fwA fw then i.raise (Trap.illegal 0x11) s else
      if i.image.accum ≤ ti then i.raise ⟨0x0D, 0, BitVec.ofNat 64 ti⟩ s else
      if bo % 32 ≠ 0 then i.raise (Trap.misaligned bo) s else
      i.unless s ((i.windowStop [(l, bo)] (bBytes fw)).orElse (fun _ => i.lineStop s [(l, bo)] (bBytes fw)))
        (i.unless s (i.matrixWaits s [ti] [bo] (bBytes fw) [i.team.tileCore ti])
        (let s := s.landWorks i.cur.team i.cur.grp
         let tm := (s.team? i.cur.team).getD i.team
         match s.readBad tm (linesOf bo (bBytes fw) ++ [checksumLine ti]) [ti] with
         | some s => .next s
         | none =>
           let rows := if i.grp.coll.held then i.grp.coll.rows else i.matrixRows g a
           let t := (i.team.tile ti).mac fw (mmaRows fw (i.regAt d 2 l) rows)
             (mmaColumns fw (i.regAt d 3 l) (i.lattice s) (Memory.read tm.scratch bo (bBytes fw)))
           i.matrixDone (s.onTeam i.cur.team (fun tm => tm.setTile ti t))
             (fun gr => { gr with coll := if fwReuse fw then ⟨true, rows, fwA fw⟩ else { gr.coll with held := false } }) [])))

/-! ### MXCTL (R169-R172, R176) -/

/-- Rows 1 to 4 of R169: `lattice` allows the lattice index, `offs` the lanes' offsets. -/
def Issue.tileCheck (i : Issue) (s : State) (lattice : Bool) (tiles offs : List (Nat × Nat)) : Option Stop :=
  ((tiles.find? (fun x => decide (i.image.accum ≤ x.2) && !(lattice && x.2 == 0xFFFFFFFF))).map
      (fun x => Stop.trap ⟨0x0D, 0, BitVec.ofNat 64 x.2⟩)).orElse (fun _ =>
    (misStop (offs.map (fun x => (x.1, BitVec.ofNat 64 x.2))) 256).orElse (fun _ =>
      (i.windowStop offs 1024).orElse (fun _ => i.lineStop s offs 1024)))

/-- A tile function of MXCTL: its checks, then the waits for the engine and for TILEOP and slice bytes, then its lanes in order. One that reads a tile and takes
no lattice index reads the tile's checksum line too. -/
def tileFn (g : Guard) (d a : RegField) (useD lattice reads writes : Bool) (k : Issue → List (Nat × Nat × Nat) → State → Outcome State Fault Refusal)
    (s : State) : Outcome State Fault Refusal :=
  issued s true (fun _ => (if useD then [.srcNoLatch d 1] else []) ++ [.srcNoLatch a 1]) true (fun i =>
    let ls := i.taking g
    if ls.isEmpty then i.skip s else
    let tiles := ls.map (fun l => (l, (i.regAt a 0 l).toNat))
    let offs := if useD then ls.map (fun l => (l, (i.regAt d 0 l).toNat)) else []
    i.unless s (i.tileCheck s lattice tiles offs)
      (if writes && offs.any (fun x => s.accessionMeets i.cur.team x.2 1024) then i.stall 6 s else
       i.unless s (i.matrixWaits s (tiles.map (fun x => x.2)) (offs.map (fun x => x.2)) 1024
         (tiles.map (fun x => if x.2 = 0xFFFFFFFF then i.grp.core else i.team.tileCore x.2)))
       (let s := s.landWorks i.cur.team i.cur.grp
        let tm := (s.team? i.cur.team).getD i.team
        match s.readBad tm ((if writes then [] else (offs.map (fun x => linesOf x.2 1024)).flatten) ++ (if reads && !lattice then tiles.map (fun x => checksumLine x.2) else []))
           (if reads then (tiles.map (fun x => x.2)) else []) with
        | some s => .next s
        | none => k { i with team := tm } (ls.map (fun l => (l, (i.regAt a 0 l).toNat, (i.regAt d 0 l).toNat))) s)))

/-- A tile that is written whole is no longer bad, nor is its checksum line (R159, R270). -/
def Team.wholeTile (t : Team) (n : Nat) (x : Tile) : Team :=
  { t.setTile n x with badTiles := t.badTiles.filter (fun k => k != n), bad := t.bad.filter (fun l => l != checksumLine n) }

/-- MXCLR (R170). -/
def execMxclr (g : Guard) (a : RegField) (s : State) : Outcome State Fault Refusal :=
  tileFn g 0 a false false false false (fun i xs s =>
    i.matrixDone (s.onTeam i.cur.team (fun t => xs.foldl (fun t x => t.wholeTile x.2.1 Tile.clear) t)) id []) s

/-- MXLD (R170, R171). -/
def execMxld (g : Guard) (d a : RegField) (s : State) : Outcome State Fault Refusal :=
  tileFn g d a true true false false (fun i xs s =>
    i.matrixDone (xs.foldl (fun s x =>
      let bs := Memory.read i.team.scratch x.2.2 1024
      if x.2.1 = 0xFFFFFFFF then s.onCtx i.team.ctx (fun c => { c with lattice := bytesWords 256 bs })
      else s.onTeam i.cur.team (fun t => t.wholeTile x.2.1 (Tile.load bs))) s) id []) s

/-- MXST (R170, R171): the bytes land at its completion (R167, R258). -/
def execMxst (g : Guard) (d a : RegField) (s : State) : Outcome State Fault Refusal :=
  tileFn g d a true true true true (fun i xs s =>
    i.matrixDone s id (xs.map (fun x => (x.2.2, wordsBytes (if x.2.1 = 0xFFFFFFFF then i.lattice s else (i.team.tile x.2.1).elems))))) s

/-- The drains of an MXDRN's lanes in order (R174-R176): the team after them, the corrected tiles and the bytes to write, or the tile that
no lane may drain with its DETAIL. -/
def drainTiles (tol : Word) : List (Nat × Nat × Nat) → Team → List Nat → List (Nat × List Byte) →
    Except (Nat × Nat) (Team × List Nat × List (Nat × List Byte))
  | [], t, n, ws => .ok (t, n, ws)
  | x :: xs, t, n, ws =>
    let go := fun (tile : Tile) (n : List Nat) =>
      drainTiles tol xs (t.wholeTile x.2.1 Tile.clear) n (ws ++ [(x.2.2, wordsBytes tile.elems)])
    match (t.tile x.2.1).check tol with
    | .pass => go (t.tile x.2.1) n
    | .corrected tile => go tile (x.2.1 :: n)
    | .uncorrectable det => .error (x.2.1, det)

/-- MXDRN (R170, R174-R176). -/
def execMxdrn (g : Guard) (d a : RegField) (s : State) : Outcome State Fault Refusal :=
  tileFn g d a true false true true (fun i xs s =>
    match drainTiles i.grp.tol xs i.team [] [] with
    | .error (tile, det) => i.raise ⟨0x14, det, BitVec.ofNat 64 tile⟩ s
    | .ok (t, n, ws) => i.matrixDone ((s.onTeam i.cur.team (fun _ => t)).corrected i.team n) id ws) s

/-- MXTOL (R172). -/
def execMxtol (g : Guard) (a : RegField) (s : State) : Outcome State Fault Refusal :=
  issued s true (fun _ => [.srcNoLatch a 1]) true (fun i =>
    if i.effect g = 0 then i.skip s else
    let v := i.regAt a 0 (i.first g)
    if v = 0x80000000#32 then i.retire (fun gr => { gr with tol := 0 }) s else
    if 0x7F800000 ≤ v.toNat then i.raise (Trap.illegal 0x13) s else i.retire (fun gr => { gr with tol := v }) s)

/-- MXRTOL (R172). -/
def execMxrtol (g : Guard) (d : RegField) (s : State) : Outcome State Fault Refusal :=
  issued s true (fun _ => [.dstMem d 1]) true (fun i =>
    i.retire (fun gr => gr.writeRegs d.toNat (i.effect g) (fun _ => [gr.tol])) s)

/-- MXWAIT (R172). -/
def execMxwait (g : Guard) (s : State) : Outcome State Fault Refusal :=
  issued s true (fun _ => []) true (fun i =>
    if i.effect g = 0 then i.skip s else i.retire (fun gr => { gr with wait := .matrix }) s)

/-- MATRIX_WORK_COMPLETION (R167): an operation of a group completes, the writes of the group's earlier ones before its own. -/
def execMatrixWorkCompletion (work : Nat) (s : State) : Outcome State Fault Refusal :=
  match s.works.find? (fun w => w.id == work) with
  | none => nothing
  | some w =>
    let s := if s.works.all (fun x => x.writes.isEmpty) then s else s.landWorks w.team w.grp
    .next { s with works := s.works.filter (fun w => w.id != work) }

end Sys2Proof.Machine
end

