-- ==== Sys2Proof/Machine/Predicate.lean ====
section
/-!
DEFINITION. The compares and the PRED family (R61, R106, R107, R125).
-/
namespace Sys2Proof.Machine

open Host (Outcome)

/-- ICMP (R106). -/
def execIcmp (g : Guard) (p : BitVec 4) (c : BitVec 3) (a b : RegField) (s : State) : Outcome State Fault Refusal :=
  compare g p a b (intCond c) (fun x y => !(intCond c x y)) s

/-- FCMP (R125). -/
def execFcmp (g : Guard) (p : BitVec 4) (c : BitVec 3) (a b : RegField) (s : State) : Outcome State Fault Refusal :=
  compare g p a b (fun x y => floatCond Fmt.f32 c x.toNat y.toNat) (fun x y => !(floatCond Fmt.f32 c x.toNat y.toNat)) s

/-- HCMP (R125): PD gets the low half's result and PD xor 1 the high half's. -/
def execHcmp (g : Guard) (p : BitVec 4) (c : BitVec 3) (a b : RegField) (s : State) : Outcome State Fault Refusal :=
  compare g p a b (fun x y => floatCond Fmt.f16 c (x.toNat % 2 ^ 16) (y.toNat % 2 ^ 16))
    (fun x y => floatCond Fmt.f16 c (x.toNat / 2 ^ 16) (y.toNat / 2 ^ 16)) s

/-- A PRED function of two predicates into one (R107): sources are read before the destination is written. -/
def predOp (g : Guard) (p a b : BitVec 4) (f : Bool → Bool → Bool) (s : State) : Outcome State Fault Refusal :=
  issued s true (fun _ => []) true (fun i =>
    i.retire (fun gr => gr.onLanes (i.effect g) (fun _ ln => ln.setPred p.toNat (f (ln.pred a.toNat) (ln.pred b.toNat)))) s)

/-- PAND (R107). -/
def execPand (g : Guard) (p a b : BitVec 4) (s : State) : Outcome State Fault Refusal := predOp g p a b (fun x y => x && y) s

/-- POR (R107). -/
def execPor (g : Guard) (p a b : BitVec 4) (s : State) : Outcome State Fault Refusal := predOp g p a b (fun x y => x || y) s

/-- PXOR (R107). -/
def execPxor (g : Guard) (p a b : BitVec 4) (s : State) : Outcome State Fault Refusal := predOp g p a b (fun x y => x != y) s

/-- PANDN (R107). -/
def execPandn (g : Guard) (p a b : BitVec 4) (s : State) : Outcome State Fault Refusal := predOp g p a b (fun x y => x && !y) s

/-- PNOT (R107). -/
def execPnot (g : Guard) (p a : BitVec 4) (s : State) : Outcome State Fault Refusal := predOp g p a 0 (fun x _ => !x) s

/-- PTST (R107). -/
def execPtst (g : Guard) (p : BitVec 4) (a : RegField) (s : State) : Outcome State Fault Refusal :=
  issued s true (fun _ => [.srcLost a]) true (fun i =>
    i.retire (fun gr => gr.onLanes (i.effect g) (fun l ln => ln.setPred p.toNat (i.src a l != 0))) s)

/-- All sixteen predicates as bits 0-15; bit 0 is 1 (R107). -/
def Lane.predWord (l : Lane) : Word := (l.preds ||| 1#16).setWidth 32

/-- PTOV (R107). -/
def execPtov (g : Guard) (d : RegField) (s : State) : Outcome State Fault Refusal :=
  issued s true (fun _ => [.dstMem d 1]) true (fun i =>
    i.retire (fun gr => gr.writeRegs d.toNat (i.effect g) (fun l => [(i.grp.lane l).predWord])) s)

/-- VTOP (R107): p0 is untouched. -/
def execVtop (g : Guard) (a : RegField) (s : State) : Outcome State Fault Refusal :=
  issued s true (fun _ => [.srcLost a]) true (fun i =>
    i.retire (fun gr => gr.onLanes (i.effect g) (fun l ln =>
      { ln with preds := ((i.src a l).setWidth 16 &&& ~~~(1#16)) ||| (ln.preds &&& 1#16) })) s)

end Sys2Proof.Machine
end

