-- ==== Sys2Proof/Machine/Tile.lean ====
section
/-!
DEFINITION. TILEOP: its checks at issue, its four kinds tile by tile, and its completion (R177-R182, R167, R168, R270).
-/
namespace Sys2Proof.Machine

open Host (Outcome)

/-- Row 1 of R179: the block; then the waits for an earlier acquire and a slice's bytes (R146, R191), and for earlier matrix work on them
(R167). -/
def Issue.blockStop (i : Issue) (s : State) (l off : Nat) : Option Stop :=
  (misStop [(l, BitVec.ofNat 64 off)] 64).orElse (fun _ => (i.windowStop [(l, off)] 64).orElse (fun _ => (i.lineStop s [(l, off)] 64).orElse (fun _ =>
    if s.acquiring i || s.sliceMeets i.cur.team off 64 then some (.wait 6 s) else
    if s.tileMeets i.cur.team i.cur.grp off 64 then some (.wait 11 s) else none)))

/-- The bytes that a TILEOP writes, STATUS among them. -/
def TileOp.writes (o : TileOp) : List Rows := o.dests ++ [Rows.mk (o.block + 0x3C) 0 1 4]

/-- A TILEOP writes the lines of an ACCESSION that the engine has not read yet (R209). -/
def State.tileopOverwrites (s : State) (o : TileOp) : Bool :=
  o.writes.any (fun r => s.accessions.any (fun a => a.team == o.team && r.meets a.offset 4096))

/-- The fields of which row 5 of R179 asks an alignment. -/
def TileOp.aligned (o : TileOp) : List (Nat × Nat) :=
  match o.kind with
  | 0 => [(o.w 3, 32), (o.w 4, 32), (o.w 5, 32), (o.w 6, 32)]
  | 1 => [(o.w 3, 32), (o.w 4, 32), (o.w 5, 32), (o.w 6, 32)]
  | 3 => [(o.w 5, 64), (o.w 6, 64)]
  | _ => []

/-- Rows 2 to 7 of R179. TRQ uses TILE too (R178), so row 4 tests it. What sr.tval holds for rows 5 to 7 is the model's (log 112): the first field that is
misaligned, a stride too, the start of the first operand row beyond SCRATCH, or the offset of the first line left unfilled. -/
def Issue.tileopStop (i : Issue) (o : TileOp) : Option Stop :=
  let ops := o.sources ++ o.dests
  let beyond := fun (r : Rows) => if r.bytes = 0 then none else
    ((List.range r.rows).find? (fun k => decide (i.image.scratch < r.start + k * r.stride + r.bytes))).map (fun k => r.start + k * r.stride)
  let lines := fun (r : Rows) => rangesLines ((List.range r.rows).map (fun k => (r.start + k * r.stride, r.bytes)))
  if !o.shapeOk then some (.trap (Trap.illegal 0x12)) else
  if !o.dimsOk then some (.trap (Trap.illegal 0x12)) else
  if o.dests.any (fun r => o.sources.any (fun q => r.meet q)) then some (.trap (Trap.illegal 0x12)) else
  if !o.fmtOk then some (.trap (Trap.illegal 0x10)) else
  if i.image.accum < o.first + o.mt * o.nt then some (.trap ⟨0x0D, 0, BitVec.ofNat 64 (max o.first i.image.accum)⟩) else
  match o.aligned.find? (fun x => x.1 % x.2 != 0) with
  | some x => some (.trap (Trap.misaligned x.1))
  | none =>
    match ops.findSome? beyond with
    | some a => some (.trap (Trap.access 0x03 a))
    | none => (ops.findSome? (fun r => (lines r).find? i.team.isUnfilled)).map (fun l => .trap (Trap.unfilled (l * 256)))

/-- TILEOP at issue (R177, R179). -/
def tileopAt (kind : Nat) (g : Guard) (a : RegField) (c : BitVec 2) (s : State) : Outcome State Fault Refusal :=
  issued s true (fun _ => [.srcStrict a 2]) true (fun i =>
    if i.effect g = 0 then i.skip s else
    let l := i.first g
    let off := (i.regAt a 0 l).toNat
    i.unless s (i.blockStop s l off)
      (let o : TileOp := ⟨s.nextId, i.cur.team, i.cur.grp, l, i.cur.pc, c.toNat, kind, off, i.regAt a 1 l,
          i.team.words off 16 ++ [i.grp.tol] ++ i.lattice s, 0, [], []⟩
       if (linesOf off 64).any i.team.bad.contains then .next (s.deliverE i.cur.team 0 (BitVec.ofNat 64 (off / 256))) else
       i.unless s (i.tileopStop o)
        (if s.tileopOverwrites o then i.stall 6 s else
         i.unless s (i.counterStop s (some c.toNat))
         (i.retire (fun gr => gr.bump (some c.toNat))
           ({ s with nextId := s.nextId + 1, tileops := s.tileops ++ [o] }.owe (.tileopCompletion o.id))))))

/-- TILEOP.GEMM (R180). -/
def execTileopGemm (g : Guard) (a : RegField) (c : BitVec 2) (s : State) : Outcome State Fault Refusal := tileopAt 0 g a c s

/-- TILEOP.TRQ (R181). -/
def execTileopTrq (g : Guard) (a : RegField) (c : BitVec 2) (s : State) : Outcome State Fault Refusal := tileopAt 1 g a c s

/-- TILEOP.CKV (R182). -/
def execTileopCkv (g : Guard) (a : RegField) (c : BitVec 2) (s : State) : Outcome State Fault Refusal := tileopAt 2 g a c s

/-- TILEOP.DRN (R182). -/
def execTileopDrn (g : Guard) (a : RegField) (c : BitVec 2) (s : State) : Outcome State Fault Refusal := tileopAt 3 g a c s

/-! ### The engine's work on one tile -/

/-- The A rows of a tile's chunk (R180). -/
def TileOp.aRows (o : TileOp) (m : List Host.Cell) (mi c : Nat) : List (List Val) :=
  let fw := o.fw
  let kc := chunkLen fw
  let s := blockSize fw
  (List.range 16).map (fun i =>
    let r := 16 * mi + i
    let bs := Memory.read m (o.w 3 + r * o.w 4) (o.k * elemBits (fwA fw) / 8)
    scaleRow (s != 0 && isScaled (fwA fw))
      (fun k => (Memory.get m (o.w 7 + r / s * (o.k / s) + (c * kc + k) / s)).toNat)
      ((List.range kc).map (fun k => elemVal (fwA fw) (elemAt (fwA fw) bs (c * kc + k)))))

/-- The B columns of a tile's chunk (R180). -/
def TileOp.bColumns (o : TileOp) (m : List Host.Cell) (ni c : Nat) : List (List Val) :=
  let fw := o.fw
  let kc := chunkLen fw
  let s := blockSize fw
  let code := fwB fw
  (List.range 16).map (fun j =>
    let col := 16 * ni + j
    scaleRow (s != 0 && isScaled code)
      (fun k => (Memory.get m (o.w 8 + (c * kc + k) / s * (16 * o.nt / s) + col / s)).toNat)
      (if code = 9 then
        codebookColumn o.lattice ((List.range (kc / 8)).map (fun q => leNat (Memory.read m (o.w 5 + (c * kc / 8 + q) * o.w 6 + 2 * col) 2)))
       else (List.range kc).map (fun k =>
        elemVal code (elemAt code (Memory.read m (o.w 5 + (c * kc + k) * o.w 6 + 2 * ni * elemBits code) (2 * elemBits code)) j))))

/-- The chunks of one tile of a GEMM (R180). -/
def TileOp.gemmTile (o : TileOp) (m : List Host.Cell) (mi ni : Nat) : Nat → Nat → Tile → Tile
  | 0, _, t => t
  | n + 1, c, t => o.gemmTile m mi ni n (c + 1) (t.mac o.fw (o.aRows m mi c) (o.bColumns m ni c))

/-- Patterns as packed bytes of a 16-bit or 8-bit format (R81). -/
def packTile (code : Nat) (ps : List Nat) : List Byte :=
  (ps.map (fun p => leBytes (elemBits code / 8) p)).flatten

/-- One tile of a transposition (R181): its elements, and the scale bytes of its blocks. An infinity gives the largest value of the target (log 90).
-/
def TileOp.trqTile (o : TileOp) (m : List Host.Cell) (mi ni : Nat) : List Host.Cell :=
  let fw := o.fw
  let s := blockSize fw
  let src := fwB fw
  let dst := fwA fw
  let columns : List (List Val) := (List.range 16).map (fun j =>
    if src = 9 then
      codebookColumn o.lattice ((List.range 2).map (fun q => leNat (Memory.read m (o.w 3 + (2 * mi + q) * o.w 4 + 2 * (16 * ni + j)) 2)))
    else (List.range 16).map (fun i =>
      elemVal src (elemAt src (Memory.read m (o.w 3 + (16 * mi + i) * o.w 4 + 2 * ni * elemBits src) (2 * elemBits src)) j)))
  let m' := (mapFrom (fun j col => (j, col)) 0 columns).foldl (fun m' (x : Nat × List Val) =>
    Memory.write m' (o.w 5 + (16 * ni + x.1) * o.w 6 + 2 * mi * elemBits dst)
      (packTile dst (x.2.map (fun v => (fmtOf dst).encode .rne true v)))) m
  if s = 0 then m' else
    Memory.set m' (o.w 8 + 16 * ni / s * (16 * o.mt / s) + 16 * mi / s)
      (Memory.get m (o.w 7 + 16 * mi / s * (16 * o.nt / s) + 16 * ni / s))

/-- The engine's progress (R182): the team, the tiles done, corrected tiles, and uncorrectable tiles with their DETAIL, first last. -/
structure TileRun where
  team : Team
  at_ : Nat
  cor : List Nat
  unc : List (Nat × Nat)

/-- How a TILEOP's work ends. -/
inductive TileEnd
  | done (r : TileRun)
  | lapsed (r : TileRun) (why : Nat) (name : Dword)
  | waits (r : TileRun)
  | bad (detail n : Nat)

/-- The work on one tile. A GEMM leaves the group's collector as it is (log 95). -/
def TileOp.doTile (o : TileOp) (mi ni : Nat) (r : TileRun) : TileRun :=
  let n := o.first + mi * o.nt + ni
  let t := r.team
  let drain := fun (t : Team) (x : Tile) =>
    ((mapFrom (fun i row => (i, row)) 0 ((List.range 16).map x.row)).foldl (fun (t : Team) (q : Nat × List Word) =>
      t.landBytes (o.w 5 + (16 * mi + q.1) * o.w 6 + 64 * ni) (wordsBytes q.2)) t).wholeTile n Tile.clear
  match o.kind with
  | 0 => { r with team := t.setTile n (o.gemmTile t.scratch mi ni o.kc 0 (t.tile n)) }
  | 1 => { r with team := { t with scratch := o.trqTile t.scratch mi ni } }
  | k =>
    match (t.tile n).check o.tol with
    | .pass => if k = 3 then { r with team := drain t (t.tile n) } else r
    | .corrected x => { r with team := if k = 3 then drain t x else t.setTile n x, cor := n :: r.cor }
    | .uncorrectable det => { r with unc := (n, det) :: r.unc }

/-- The work over the tiles in order (R180, R182): a pending line, a checksum line that is still to be restored (R159), or a core where the context is
swapped out (R168; `act`) waits; a line left unfilled ends the work. It goes as far as it can in one step (log 99). -/
def TileOp.run (o : TileOp) (act : Nat → Bool) : List (Nat × Nat) → TileRun → TileEnd
  | [], r => .done r
  | (mi, ni) :: rest, r =>
    let t := r.team
    let n := o.first + mi * o.nt + ni
    let lines := o.tileLines mi ni
    if !(act (t.tileCore n)) then .waits r else
    match lines.find? (fun l => (t.absentLine? l).isSome) with
    | some l =>
      match t.absentLine? l with
      | some x => if x.pending then .waits r else .lapsed r x.why (if x.why = 2 then 0 else x.name)
      | none => .waits r
    | none =>
      if o.kind ≠ 1 && t.isPending (checksumLine n) then .waits r else
      match (if o.kind = 3 then none else lines.find? t.bad.contains) with
      | some l => .bad 0 l
      | none =>
        if o.kind ≠ 1 ∧ t.bad.contains (checksumLine n) then .bad 0 (checksumLine n)
        else if o.kind ≠ 1 ∧ t.badTiles.contains n then .bad 1 n
        else o.run act rest { o.doTile mi ni r with at_ := r.at_ + 1 }

/-- The engine of a core may work for a team (R168, R344): its context is active there, or a twin's. -/
def State.engineActive (s : State) (t : Team) (core : Nat) : Bool := (s.core core).active == some t.ctx || (s.twinNum? t.ctx).isSome

/-- A TILEOP waits for an earlier one on an engine of its own (R184), for an earlier one of its group on bytes that one of them writes (R167), and for a
slice of its team whose bytes it uses (R191). -/
def State.tileopWaits (s : State) (t : Team) (o : TileOp) : Bool :=
  (s.tileops.takeWhile (fun x => x.id != o.id)).any (fun x => match s.team? x.team with
    | some u => (u.ctx == t.ctx && (x.cores u).any (o.cores t).contains) ||
        (u.uid == t.uid && x.grp == o.grp && (x.writes.any (fun r => (o.rows ++ o.writes).any (fun q => r.meet q)) || x.rows.any (fun r => o.writes.any (fun q => r.meet q))))
    | none => false) ||
  o.rows.any (fun r => (List.range r.rows).any (fun k => r.bytes != 0 && s.sliceMeets t.uid (r.start + k * r.stride) r.bytes))

/-- The bytes that a TILEOP which has done its work has written, but for STATUS: no tile that was uncorrectable (R182). -/
def TileOp.written (o : TileOp) (unc : List Nat) : List Rows :=
  match o.kind with
  | 1 => o.dests
  | 3 => (o.order.filter (fun x => !(unc.contains (o.first + x.1 * o.nt + x.2)))).map (fun x => ⟨o.w 5 + 16 * x.1 * o.w 6 + 64 * x.2, o.w 6, 16, 64⟩)
  | _ => []

/-- A bad line of which some rows cover every byte has been written whole (R270). -/
def Team.mend (t : Team) (rs : List Rows) : Team :=
  { t with bad := t.bad.filter (fun l => !((List.range 256).all (fun k => rs.any (fun r => r.meets (l * 256 + k) 1)))) }

/-- The work of a TILEOP has ended (R182): STATUS, the counter, then the traps of what it found. -/
def State.tileopEnds (s : State) (t : Team) (o : TileOp) (r : TileRun) (lapse : Option (Nat × Dword)) : State :=
  let st := 2 ^ 31 + (if lapse.isSome then 2 ^ 30 else 0) + min r.unc.length 255 * 256 + min r.cor.length 255
  let mended := if lapse.isSome then r.team else r.team.mend (o.written (r.unc.map (fun x => x.1)))
  let team := { mended with scratch := Memory.write mended.scratch (o.block + 0x3C) (leBytes 4 st) }
  let s := { s with tileops := s.tileops.filter (fun x => x.id != o.id) }
  let s := ((s.onTeam t.uid (fun _ => team)).corrected t r.cor).onGroup o.team o.grp (fun g =>
    { g with ctrs := setAt g.ctrs o.ctr (getAt g.ctrs o.ctr 0 - 1) })
  let s := match r.unc.getLast? with
    | some (n, det) => s.pend o.team o.grp ⟨0x14, det, 0, false, some o.pc, BitVec.ofNat 64 n, some o.lane, none⟩
    | none => s
  match lapse with
  | some (why, name) => s.pend o.team o.grp ⟨0x0B, why, 0, false, some o.pc, name, some o.lane, none⟩
  | none => s

/-- TILEOP_COMPLETION (R168, R177, R182): the work, tile after tile from the one at which it paused, and its end. -/
def execTileopCompletion (op : Nat) (s : State) : Outcome State Fault Refusal :=
  match s.tileops.find? (fun o => o.id == op) with
  | none => nothing
  | some o =>
    match s.team? o.team with
    | none => nothing
    | some t =>
      if s.tileopWaits t o || !(s.engineRuns t.uid) then nothing else
      let s := s.landWorks o.team o.grp
      let t := (s.team? o.team).getD t
      match o.run (s.engineActive t) (o.order.drop o.at_) ⟨t, o.at_, o.cor, o.unc⟩ with
      | .done r => .next (s.tileopEnds t o r none)
      | .lapsed r why name => .next (s.tileopEnds t o r (some (why, name)))
      | .waits r =>
        if r.at_ = o.at_ then nothing else
        .next { s.onTeam t.uid (fun _ => r.team) with
          begun := true
          tileops := s.tileops.map (fun x => if x.id = op then { x with at_ := r.at_, cor := r.cor, unc := r.unc } else x) }
      | .bad det n => .next (s.deliverE t.uid det (BitVec.ofNat 64 n))

end Sys2Proof.Machine
end

