-- ==== Sys2Proof/Machine/Dispatch.lean ====
section
/-!
DEFINITION. The meaning of every constructor of Instr: one arm each, one direct call of its meaning.
-/
namespace Sys2Proof.Machine

open Host (Outcome)

/-- Execute one instruction or event. -/
def exec (i : Instr) (s : State) : Host.Outcome State Fault Refusal :=
  match i with
  | .iadd g d a b => Sys2Proof.Machine.execIadd g d a b s
  | .isub g d a b => Sys2Proof.Machine.execIsub g d a b s
  | .imul g d a b => Sys2Proof.Machine.execImul g d a b s
  | .imad g d a b => Sys2Proof.Machine.execImad g d a b s
  | .imulh g d a b => Sys2Proof.Machine.execImulh g d a b s
  | .imulhn g d a b => Sys2Proof.Machine.execImulhn g d a b s
  | .and g d a b => Sys2Proof.Machine.execAnd g d a b s
  | .or g d a b => Sys2Proof.Machine.execOr g d a b s
  | .xor g d a b => Sys2Proof.Machine.execXor g d a b s
  | .andn g d a b => Sys2Proof.Machine.execAndn g d a b s
  | .shl g d a b => Sys2Proof.Machine.execShl g d a b s
  | .shr g d a b => Sys2Proof.Machine.execShr g d a b s
  | .sra g d a b => Sys2Proof.Machine.execSra g d a b s
  | .imin g d a b => Sys2Proof.Machine.execImin g d a b s
  | .imax g d a b => Sys2Proof.Machine.execImax g d a b s
  | .nmin g d a b => Sys2Proof.Machine.execNmin g d a b s
  | .nmax g d a b => Sys2Proof.Machine.execNmax g d a b s
  | .sel g d a b => Sys2Proof.Machine.execSel g d a b s
  | .bfx g d a b => Sys2Proof.Machine.execBfx g d a b s
  | .bfi g d a b => Sys2Proof.Machine.execBfi g d a b s
  | .add64 g d a => Sys2Proof.Machine.execAdd64 g d a s
  | .sub64 g d a => Sys2Proof.Machine.execSub64 g d a s
  | .divs g d a => Sys2Proof.Machine.execDivs g d a s
  | .divn g d a => Sys2Proof.Machine.execDivn g d a s
  | .rems g d a => Sys2Proof.Machine.execRems g d a s
  | .remn g d a => Sys2Proof.Machine.execRemn g d a s
  | .popc g d a => Sys2Proof.Machine.execPopc g d a s
  | .clz g d a => Sys2Proof.Machine.execClz g d a s
  | .brev g d a => Sys2Proof.Machine.execBrev g d a s
  | .bswap g d a => Sys2Proof.Machine.execBswap g d a s
  | .iabs g d a => Sys2Proof.Machine.execIabs g d a s
  | .ineg g d a => Sys2Proof.Machine.execIneg g d a s
  | .mov g d a => Sys2Proof.Machine.execMov g d a s
  | .shli g d a k => Sys2Proof.Machine.execShli g d a k s
  | .shri g d a k => Sys2Proof.Machine.execShri g d a k s
  | .srai g d a k => Sys2Proof.Machine.execSrai g d a k s
  | .rori g d a k => Sys2Proof.Machine.execRori g d a k s
  | .movi g d v => Sys2Proof.Machine.execMovi g d v s
  | .addi g d v => Sys2Proof.Machine.execAddi g d v s
  | .fadd g d a b => Sys2Proof.Machine.execFadd g d a b s
  | .fmul g d a b => Sys2Proof.Machine.execFmul g d a b s
  | .ffma g d a b => Sys2Proof.Machine.execFfma g d a b s
  | .fmin g d a b => Sys2Proof.Machine.execFmin g d a b s
  | .fmax g d a b => Sys2Proof.Machine.execFmax g d a b s
  | .hadd g d a b => Sys2Proof.Machine.execHadd g d a b s
  | .hmul g d a b => Sys2Proof.Machine.execHmul g d a b s
  | .hfma g d a b => Sys2Proof.Machine.execHfma g d a b s
  | .hmin g d a b => Sys2Proof.Machine.execHmin g d a b s
  | .hmax g d a b => Sys2Proof.Machine.execHmax g d a b s
  | .bfma g d a b => Sys2Proof.Machine.execBfma g d a b s
  | .fsqrt g d a => Sys2Proof.Machine.execFsqrt g d a s
  | .frcp g d a => Sys2Proof.Machine.execFrcp g d a s
  | .frsq g d a => Sys2Proof.Machine.execFrsq g d a s
  | .fexp2 g d a => Sys2Proof.Machine.execFexp2 g d a s
  | .flog2 g d a => Sys2Proof.Machine.execFlog2 g d a s
  | .fsin g d a => Sys2Proof.Machine.execFsin g d a s
  | .fcos g d a => Sys2Proof.Machine.execFcos g d a s
  | .ftanh g d a => Sys2Proof.Machine.execFtanh g d a s
  | .fabs g d a => Sys2Proof.Machine.execFabs g d a s
  | .fneg g d a => Sys2Proof.Machine.execFneg g d a s
  | .frint g d a => Sys2Proof.Machine.execFrint g d a s
  | .ffloor g d a => Sys2Proof.Machine.execFfloor g d a s
  | .fceil g d a => Sys2Proof.Machine.execFceil g d a s
  | .ftrunc g d a => Sys2Proof.Machine.execFtrunc g d a s
  | .fclass g d a => Sys2Proof.Machine.execFclass g d a s
  | .habs g d a => Sys2Proof.Machine.execHabs g d a s
  | .hneg g d a => Sys2Proof.Machine.execHneg g d a s
  | .hsqrt g d a => Sys2Proof.Machine.execHsqrt g d a s
  | .hrcp g d a => Sys2Proof.Machine.execHrcp g d a s
  | .babs g d a => Sys2Proof.Machine.execBabs g d a s
  | .bneg g d a => Sys2Proof.Machine.execBneg g d a s
  | .cvtF32I32 g d a => Sys2Proof.Machine.execCvtF32I32 g d a s
  | .cvtF32N32 g d a => Sys2Proof.Machine.execCvtF32N32 g d a s
  | .cvtI32F32 g d a => Sys2Proof.Machine.execCvtI32F32 g d a s
  | .cvtN32F32 g d a => Sys2Proof.Machine.execCvtN32F32 g d a s
  | .cvtF32H2Lo g d a => Sys2Proof.Machine.execCvtF32H2Lo g d a s
  | .cvtF32H2Hi g d a => Sys2Proof.Machine.execCvtF32H2Hi g d a s
  | .cvtH2F32 g d a sc => Sys2Proof.Machine.execCvtH2F32 g d a sc s
  | .cvtF32B2Lo g d a => Sys2Proof.Machine.execCvtF32B2Lo g d a s
  | .cvtF32B2Hi g d a => Sys2Proof.Machine.execCvtF32B2Hi g d a s
  | .cvtB2F32 g d a sc => Sys2Proof.Machine.execCvtB2F32 g d a sc s
  | .cvtH2B2 g d a sc => Sys2Proof.Machine.execCvtH2B2 g d a sc s
  | .cvtB2H2 g d a sc => Sys2Proof.Machine.execCvtB2H2 g d a sc s
  | .cvtE4m3F32 g d a sc => Sys2Proof.Machine.execCvtE4m3F32 g d a sc s
  | .cvtF32E4m3 g d a => Sys2Proof.Machine.execCvtF32E4m3 g d a s
  | .cvtE5m2F32 g d a sc => Sys2Proof.Machine.execCvtE5m2F32 g d a sc s
  | .cvtF32E5m2 g d a => Sys2Proof.Machine.execCvtF32E5m2 g d a s
  | .cvtE2m1F32 g d a sc => Sys2Proof.Machine.execCvtE2m1F32 g d a sc s
  | .cvtF32E2m1 g d a => Sys2Proof.Machine.execCvtF32E2m1 g d a s
  | .cvtE4m3H2 g d a sc => Sys2Proof.Machine.execCvtE4m3H2 g d a sc s
  | .cvtH2E4m3 g d a => Sys2Proof.Machine.execCvtH2E4m3 g d a s
  | .cvtI8I32 g d a => Sys2Proof.Machine.execCvtI8I32 g d a s
  | .cvtI32I8 g d a => Sys2Proof.Machine.execCvtI32I8 g d a s
  | .cvtN8N32 g d a => Sys2Proof.Machine.execCvtN8N32 g d a s
  | .cvtN32N8 g d a => Sys2Proof.Machine.execCvtN32N8 g d a s
  | .icmp g p c a b => Sys2Proof.Machine.execIcmp g p c a b s
  | .fcmp g p c a b => Sys2Proof.Machine.execFcmp g p c a b s
  | .hcmp g p c a b => Sys2Proof.Machine.execHcmp g p c a b s
  | .pand g p a b => Sys2Proof.Machine.execPand g p a b s
  | .por g p a b => Sys2Proof.Machine.execPor g p a b s
  | .pxor g p a b => Sys2Proof.Machine.execPxor g p a b s
  | .pandn g p a b => Sys2Proof.Machine.execPandn g p a b s
  | .pnot g p a => Sys2Proof.Machine.execPnot g p a s
  | .ptst g p a => Sys2Proof.Machine.execPtst g p a s
  | .ptov g d => Sys2Proof.Machine.execPtov g d s
  | .vtop g a => Sys2Proof.Machine.execVtop g a s
  | .shflIdx g d a => Sys2Proof.Machine.execShflIdx g d a s
  | .first g d a => Sys2Proof.Machine.execFirst g d a s
  | .vany g d a => Sys2Proof.Machine.execVany g d a s
  | .vall g d a => Sys2Proof.Machine.execVall g d a s
  | .vbal g d a => Sys2Proof.Machine.execVbal g d a s
  | .iredsum g d a => Sys2Proof.Machine.execIredsum g d a s
  | .iredmin g d a => Sys2Proof.Machine.execIredmin g d a s
  | .iredmax g d a => Sys2Proof.Machine.execIredmax g d a s
  | .nredmin g d a => Sys2Proof.Machine.execNredmin g d a s
  | .nredmax g d a => Sys2Proof.Machine.execNredmax g d a s
  | .redand g d a => Sys2Proof.Machine.execRedand g d a s
  | .redor g d a => Sys2Proof.Machine.execRedor g d a s
  | .redxor g d a => Sys2Proof.Machine.execRedxor g d a s
  | .fredsum g d a => Sys2Proof.Machine.execFredsum g d a s
  | .fredmin g d a => Sys2Proof.Machine.execFredmin g d a s
  | .fredmax g d a => Sys2Proof.Machine.execFredmax g d a s
  | .hredsum g d a => Sys2Proof.Machine.execHredsum g d a s
  | .iscan g d a => Sys2Proof.Machine.execIscan g d a s
  | .iscanx g d a => Sys2Proof.Machine.execIscanx g d a s
  | .fscan g d a => Sys2Proof.Machine.execFscan g d a s
  | .fscanx g d a => Sys2Proof.Machine.execFscanx g d a s
  | .shflUp g d a k => Sys2Proof.Machine.execShflUp g d a k s
  | .shflDn g d a k => Sys2Proof.Machine.execShflDn g d a k s
  | .shflXor g d a k => Sys2Proof.Machine.execShflXor g d a k s
  | .ld g d a h c sc => Sys2Proof.Machine.execLd g d a h c sc s
  | .st g d a h c sc => Sys2Proof.Machine.execSt g d a h c sc s
  | .lda g d a z sc => Sys2Proof.Machine.execLda g d a z sc s
  | .stl g d a z sc => Sys2Proof.Machine.execStl g d a z sc s
  | .lds g d a c sc => Sys2Proof.Machine.execLds g d a c sc s
  | .sts g d a c sc => Sys2Proof.Machine.execSts g d a c sc s
  | .gath g d a w x e c => Sys2Proof.Machine.execGath g d a w x e c s
  | .scat g d a w x e c => Sys2Proof.Machine.execScat g d a w x e c s
  | .atom g d a o sc => Sys2Proof.Machine.execAtom g d a o sc s
  | .atoms g d a o sc => Sys2Proof.Machine.execAtoms g d a o sc s
  | .fence g sc => Sys2Proof.Machine.execFence g sc s
  | .fenceAcq g sc => Sys2Proof.Machine.execFenceAcq g sc s
  | .fenceRel g sc => Sys2Proof.Machine.execFenceRel g sc s
  | .waitc g k c => Sys2Proof.Machine.execWaitc g k c s
  | .await g d a sc => Sys2Proof.Machine.execAwait g d a sc s
  | .slfind g d a => Sys2Proof.Machine.execSlfind g d a s
  | .slset g d a => Sys2Proof.Machine.execSlset g d a s
  | .sldrop g a => Sys2Proof.Machine.execSldrop g a s
  | .presq g d a => Sys2Proof.Machine.execPresq g d a s
  | .pref g a h => Sys2Proof.Machine.execPref g a h s
  | .mma g d a b => Sys2Proof.Machine.execMma g d a b s
  | .tileopGemm g a c => Sys2Proof.Machine.execTileopGemm g a c s
  | .tileopTrq g a c => Sys2Proof.Machine.execTileopTrq g a c s
  | .tileopCkv g a c => Sys2Proof.Machine.execTileopCkv g a c s
  | .tileopDrn g a c => Sys2Proof.Machine.execTileopDrn g a c s
  | .mxclr g a => Sys2Proof.Machine.execMxclr g a s
  | .mxld g d a => Sys2Proof.Machine.execMxld g d a s
  | .mxst g d a => Sys2Proof.Machine.execMxst g d a s
  | .mxdrn g d a => Sys2Proof.Machine.execMxdrn g d a s
  | .mxtol g a => Sys2Proof.Machine.execMxtol g a s
  | .mxrtol g d => Sys2Proof.Machine.execMxrtol g d s
  | .mxwait g => Sys2Proof.Machine.execMxwait g s
  | .copy g a b => Sys2Proof.Machine.execCopy g a b s
  | .publish g a => Sys2Proof.Machine.execPublish g a s
  | .mcast g d a b => Sys2Proof.Machine.execMcast g d a b s
  | .nbinit g a b => Sys2Proof.Machine.execNbinit g a b s
  | .nbarr g b => Sys2Proof.Machine.execNbarr g b s
  | .nbwait g a b => Sys2Proof.Machine.execNbwait g a b s
  | .nbsync g b => Sys2Proof.Machine.execNbsync g b s
  | .waitl g d b => Sys2Proof.Machine.execWaitl g d b s
  | .nbrd g d b => Sys2Proof.Machine.execNbrd g d b s
  | .callslip g d a => Sys2Proof.Machine.execCallslip g d a s
  | .accession g d a => Sys2Proof.Machine.execAccession g d a s
  | .slipcan g a => Sys2Proof.Machine.execSlipcan g a s
  | .handoff g a => Sys2Proof.Machine.execHandoff g a s
  | .handwait g d => Sys2Proof.Machine.execHandwait g d s
  | .collred g a => Sys2Proof.Machine.execCollred g a s
  | .collrsc g a => Sys2Proof.Machine.execCollrsc g a s
  | .collgat g a => Sys2Proof.Machine.execCollgat g a s
  | .collbc g a => Sys2Proof.Machine.execCollbc g a s
  | .opreg g k a => Sys2Proof.Machine.execOpreg g k a s
  | .opdo g k a => Sys2Proof.Machine.execOpdo g k a s
  | .conld g a => Sys2Proof.Machine.execConld g a s
  | .bra g o => Sys2Proof.Machine.execBra g o s
  | .call g o => Sys2Proof.Machine.execCall g o s
  | .movc g d v => Sys2Proof.Machine.execMovc g d v s
  | .brx g a => Sys2Proof.Machine.execBrx g a s
  | .ret g a => Sys2Proof.Machine.execRet g a s
  | .exit g => Sys2Proof.Machine.execExit g s
  | .join g m => Sys2Proof.Machine.execJoin g m s
  | .leave g m => Sys2Proof.Machine.execLeave g m s
  | .waitm g m => Sys2Proof.Machine.execWaitm g m s
  | .yield g => Sys2Proof.Machine.execYield g s
  | .setwb g b => Sys2Proof.Machine.execSetwb g b s
  | .brk g => Sys2Proof.Machine.execBrk g s
  | .trap g t => Sys2Proof.Machine.execTrap g t s
  | .tret g => Sys2Proof.Machine.execTret g s
  | .rdsr g a x => Sys2Proof.Machine.execRdsr g a x s
  | .wrsr g a x => Sys2Proof.Machine.execWrsr g a x s
  | .launch g a => Sys2Proof.Machine.execLaunch g a s
  | .facsim g a => Sys2Proof.Machine.execFacsim g a s
  | .smpsusp g => Sys2Proof.Machine.execSmpsusp g s
  | .smpres g => Sys2Proof.Machine.execSmpres g s
  | .loadCompletion acc => Sys2Proof.Machine.execLoadCompletion acc s
  | .storeCompletion acc => Sys2Proof.Machine.execStoreCompletion acc s
  | .atomCompletion acc => Sys2Proof.Machine.execAtomCompletion acc s
  | .awaitCompletion team grp => Sys2Proof.Machine.execAwaitCompletion team grp s
  | .lineArrival team line => Sys2Proof.Machine.execLineArrival team line s
  | .instructionFetch team grp => Sys2Proof.Machine.execInstructionFetch team grp s
  | .matrixWorkCompletion work => Sys2Proof.Machine.execMatrixWorkCompletion work s
  | .tileopCompletion op => Sys2Proof.Machine.execTileopCompletion op s
  | .teamCopyStart team n => Sys2Proof.Machine.execTeamCopyStart team n s
  | .teamCopyEnd team n => Sys2Proof.Machine.execTeamCopyEnd team n s
  | .mcastReceipt send bit => Sys2Proof.Machine.execMcastReceipt send bit s
  | .mcastSendEnd send => Sys2Proof.Machine.execMcastSendEnd send s
  | .publishExchange team grp => Sys2Proof.Machine.execPublishExchange team grp s
  | .publishBackgroundCopy ctx base => Sys2Proof.Machine.execPublishBackgroundCopy ctx base s
  | .tileDelivery slip => Sys2Proof.Machine.execTileDelivery slip s
  | .collectiveEnd coll agree parts => Sys2Proof.Machine.execCollectiveEnd coll agree parts s
  | .facsimCut launch => Sys2Proof.Machine.execFacsimCut launch s
  | .facsimCopyComplete launch => Sys2Proof.Machine.execFacsimCopyComplete launch s
  | .facsimileDrain ctx => Sys2Proof.Machine.execFacsimileDrain ctx s
  | .taskCommit team => Sys2Proof.Machine.execTaskCommit team s
  | .undoRunEnd team => Sys2Proof.Machine.execUndoRunEnd team s
  | .groupEnd team grp => Sys2Proof.Machine.execGroupEnd team grp s
  | .lineScrub scrub => Sys2Proof.Machine.execLineScrub scrub s
  | .gangRetirement launch gang => Sys2Proof.Machine.execGangRetirement launch gang s
  | .launchCompletion launch => Sys2Proof.Machine.execLaunchCompletion launch s
  | .launchAdmission slice => Sys2Proof.Machine.execLaunchAdmission slice s
  | .dependenceReady queue prio => Sys2Proof.Machine.execDependenceReady queue prio s
  | .dispatchDecision slice => Sys2Proof.Machine.execDispatchDecision slice s
  | .swap core => Sys2Proof.Machine.execSwap core s
  | .restoreComplete core => Sys2Proof.Machine.execRestoreComplete core s
  | .spillComplete core ctx => Sys2Proof.Machine.execSpillComplete core ctx s
  | .migrationCopyEnd mig => Sys2Proof.Machine.execMigrationCopyEnd mig s
  | .migrationFreezeEnd mig => Sys2Proof.Machine.execMigrationFreezeEnd mig s
  | .migrationDrainEnd mig => Sys2Proof.Machine.execMigrationDrainEnd mig s
  | .twinClaim ctx => Sys2Proof.Machine.execTwinClaim ctx s
  | .cutMarker ctx home place => Sys2Proof.Machine.execCutMarker ctx home place s
  | .cutComplete ctx => Sys2Proof.Machine.execCutComplete ctx s
  | .stepDone ctx => Sys2Proof.Machine.execStepDone ctx s
  | .rivalEnd ctx => Sys2Proof.Machine.execRivalEnd ctx s
  | .wcAgeExpiry entry => Sys2Proof.Machine.execWcAgeExpiry entry s
  | .accessionHoldingReady op => Sys2Proof.Machine.execAccessionHoldingReady op s
  | .issueDecision team grp => Sys2Proof.Machine.execIssueDecision team grp s
  | .asyncTrapTaken team grp => Sys2Proof.Machine.execAsyncTrapTaken team grp s
  | .copyFault team n grp => Sys2Proof.Machine.execCopyFault team n grp s
  | .slipLapse slip => Sys2Proof.Machine.execSlipLapse slip s
  | .parityBuild ctx others => Sys2Proof.Machine.execParityBuild ctx others s
  | .hostFedAppend queue packet => Sys2Proof.Machine.execHostFedAppend queue packet s
  | .startBarrierRelease queue pass status count => Sys2Proof.Machine.execStartBarrierRelease queue pass status count s
  | .startBarrierTimeout queue => Sys2Proof.Machine.execStartBarrierTimeout queue s
  | .gangAged launch gang => Sys2Proof.Machine.execGangAged launch gang s
  | .stallSample core => Sys2Proof.Machine.execStallSample core s
  | .smpctlWrite core v => Sys2Proof.Machine.execSmpctlWrite core v s
  | .budgetPeriod die => Sys2Proof.Machine.execBudgetPeriod die s
  | .frameScrub stack => Sys2Proof.Machine.execFrameScrub stack s
  | .watchdog core ctx => Sys2Proof.Machine.execWatchdog core ctx s
  | .parkRule core => Sys2Proof.Machine.execParkRule core s
  | .quantumExpiry core ctx => Sys2Proof.Machine.execQuantumExpiry core ctx s
  | .preemptRequest fn ctx cores => Sys2Proof.Machine.execPreemptRequest fn ctx cores s
  | .graceTimerExpiry core ctx => Sys2Proof.Machine.execGraceTimerExpiry core ctx s
  | .killTimerExpiry core ctx => Sys2Proof.Machine.execKillTimerExpiry core ctx s
  | .spillLine core ctx => Sys2Proof.Machine.execSpillLine core ctx s
  | .recall fn mask due noDiscard => Sys2Proof.Machine.execRecall fn mask due noDiscard s
  | .recallSwitchTime queue => Sys2Proof.Machine.execRecallSwitchTime queue s
  | .recallDue mask => Sys2Proof.Machine.execRecallDue mask s
  | .storeRefusal req readOnly => Sys2Proof.Machine.execStoreRefusal req readOnly s
  | .promotionRequest core scope p => Sys2Proof.Machine.execPromotionRequest core scope p s
  | .pageMigrate fn ctx va newPa => Sys2Proof.Machine.execPageMigrate fn ctx va newPa s
  | .hostInvalidate ctx va => Sys2Proof.Machine.execHostInvalidate ctx va s
  | .faultFill ctx va leaf => Sys2Proof.Machine.execFaultFill ctx va leaf s
  | .faultRefusal ctx va => Sys2Proof.Machine.execFaultRefusal ctx va s
  | .cxlMemRead pa n => Sys2Proof.Machine.execCxlMemRead pa n s
  | .cxlMemWrite pa bytes => Sys2Proof.Machine.execCxlMemWrite pa bytes s
  | .cut core ctx => Sys2Proof.Machine.execCut core ctx s
  | .testPassEnd cluster time => Sys2Proof.Machine.execTestPassEnd cluster time s
  | .testPassFail cluster time => Sys2Proof.Machine.execTestPassFail cluster time s
  | .warning die => Sys2Proof.Machine.execWarning die s
  | .loadPacket p => Sys2Proof.Machine.execLoadPacket p s
  | .storePacket p => Sys2Proof.Machine.execStorePacket p s
  | .atomicPacket p => Sys2Proof.Machine.execAtomicPacket p s
  | .replyPacket p => Sys2Proof.Machine.execReplyPacket p s
  | .custodyPacket p => Sys2Proof.Machine.execCustodyPacket p s
  | .errorNotice p => Sys2Proof.Machine.execErrorNotice p s
  | .engineDataPacket p last => Sys2Proof.Machine.execEngineDataPacket p last s
  | .interestPacket router face p => Sys2Proof.Machine.execInterestPacket router face p s
  | .tileDataPacket router p => Sys2Proof.Machine.execTileDataPacket router p s
  | .lapseNotice p => Sys2Proof.Machine.execLapseNotice p s
  | .pendingEntryExpiry router entry => Sys2Proof.Machine.execPendingEntryExpiry router entry s
  | .releasePacket p => Sys2Proof.Machine.execReleasePacket p s
  | .flitCrcError port replayed => Sys2Proof.Machine.execFlitCrcError port replayed s
  | .activeListChange planes => Sys2Proof.Machine.execActiveListChange planes s
  | .retransmitTimeout req => Sys2Proof.Machine.execRetransmitTimeout req s
  | .busyResend part die => Sys2Proof.Machine.execBusyResend part die s
  | .replyCacheExpiry die src rid => Sys2Proof.Machine.execReplyCacheExpiry die src rid s
  | .catalogueLoad router index v => Sys2Proof.Machine.execCatalogueLoad router index v s
  | .ctxnew fn ctx slice base => Sys2Proof.Machine.execCtxnew fn ctx slice base s
  | .ctxfree fn ctx => Sys2Proof.Machine.execCtxfree fn ctx s
  | .qcreate fn queue ctx deviceFed anchor repset deft => Sys2Proof.Machine.execQcreate fn queue ctx deviceFed anchor repset deft s
  | .regimg fn ctx addr dataBase => Sys2Proof.Machine.execRegimg fn ctx addr dataBase s
  | .mapwin fn index base size => Sys2Proof.Machine.execMapwin fn index base size s
  | .frameAlloc fn slice stack => Sys2Proof.Machine.execFrameAlloc fn slice stack s
  | .frameFree fn frame => Sys2Proof.Machine.execFrameFree fn frame s
  | .pubreg fn ctx va bytes pa => Sys2Proof.Machine.execPubreg fn ctx va bytes pa s
  | .metreg fn region base pages allow => Sys2Proof.Machine.execMetreg fn region base pages allow s
  | .metdereg fn region => Sys2Proof.Machine.execMetdereg fn region s
  | .sliceset fn slice clusters stackSet => Sys2Proof.Machine.execSliceset fn slice clusters stackSet s
  | .setregCxpark fn ctx v => Sys2Proof.Machine.execSetregCxpark fn ctx v s
  | .setregCxtime fn ctx v => Sys2Proof.Machine.execSetregCxtime fn ctx v s
  | .setregTwinctl fn ctx v => Sys2Proof.Machine.execSetregTwinctl fn ctx v s
  | .setregBpimg fn ctx n v => Sys2Proof.Machine.execSetregBpimg fn ctx n v s
  | .setregBgbud fn n die v => Sys2Proof.Machine.execSetregBgbud fn n die v s
  | .setregWarncfg fn die v => Sys2Proof.Machine.execSetregWarncfg fn die v s
  | .setregWatchdogLimit fn ctx v => Sys2Proof.Machine.execSetregWatchdogLimit fn ctx v s
  | .hostRegisterWrite unit num v => Sys2Proof.Machine.execHostRegisterWrite unit num v s
  | .twinStep fn ctx team grp n => Sys2Proof.Machine.execTwinStep fn ctx team grp n s
  | .twinEdit fn ctx target v => Sys2Proof.Machine.execTwinEdit fn ctx target v s
  | .twinRelease fn ctx => Sys2Proof.Machine.execTwinRelease fn ctx s
  | .twinResume fn ctx => Sys2Proof.Machine.execTwinResume fn ctx s
  | .twinDiscard fn ctx => Sys2Proof.Machine.execTwinDiscard fn ctx s
  | .tread fn ctx target => Sys2Proof.Machine.execTread fn ctx target s
  | .exportWindow fn index v => Sys2Proof.Machine.execExport fn index v s
  | .restore fn ctx manifests onto => Sys2Proof.Machine.execRestore fn ctx manifests onto s
  | .migrateIn fn region base pages allow stmt => Sys2Proof.Machine.execMigrateIn fn region base pages allow stmt s
  | .migrateOut fn region => Sys2Proof.Machine.execMigrateOut fn region s
  | .replace fn region base pages allow stmt => Sys2Proof.Machine.execReplace fn region base pages allow stmt s
  | .pwrlim fn watts => Sys2Proof.Machine.execPwrlim fn watts s
  | .startinfo fn => Sys2Proof.Machine.execStartinfo fn s
  | .powerWindow milliwatts => Sys2Proof.Machine.execPowerWindow milliwatts s
  | .throttle105 die => Sys2Proof.Machine.execThrottle105 die s
  | .throttleEnd95 die => Sys2Proof.Machine.execThrottleEnd95 die s
  | .thermalTrip die => Sys2Proof.Machine.execThermalTrip die s
  | .powerGood result => Sys2Proof.Machine.execPowerGood result s
  | .fundamentalReset byHost result => Sys2Proof.Machine.execFundamentalReset byHost result s
  | .sensorUpdate v => Sys2Proof.Machine.execSensorUpdate v s
  | .pldmSensorRead sensor => Sys2Proof.Machine.execPldmSensorRead sensor s
  | .mctpControl cmd arg => Sys2Proof.Machine.execMctpControl cmd arg s
  | .getVersion => Sys2Proof.Machine.execGetVersion s
  | .getCapabilities peer => Sys2Proof.Machine.execGetCapabilities peer s
  | .negotiateAlgorithms offer => Sys2Proof.Machine.execNegotiateAlgorithms offer s
  | .getDigests => Sys2Proof.Machine.execGetDigests s
  | .getCertificate slot offset length => Sys2Proof.Machine.execGetCertificate slot offset length s
  | .challenge slot nonce => Sys2Proof.Machine.execChallenge slot nonce s
  | .getMeasurements index sign nonce => Sys2Proof.Machine.execGetMeasurements index sign nonce s
  | .keyExchange share => Sys2Proof.Machine.execKeyExchange share s
  | .finish mac => Sys2Proof.Machine.execFinish mac s
  | .keyUpdate op => Sys2Proof.Machine.execKeyUpdate op s
  | .barrierPacket plane spine p => Sys2Proof.Machine.execBarrierPacket plane spine p s
  | .barrierHomeFailure set kind => Sys2Proof.Machine.execBarrierHomeFailure set kind s
  | .recallLift fn mask => Sys2Proof.Machine.execRecallLift fn mask s
  | .cxlMemCompletion req => Sys2Proof.Machine.execCxlMemCompletion req s
  | .facsimileRegistration fn ctx areas template target bytes => Sys2Proof.Machine.execFacsimileRegistration fn ctx areas template target bytes s
  | .warningWordRegistration fn ctx va => Sys2Proof.Machine.execWarningWordRegistration fn ctx va s

end Sys2Proof.Machine
end

