-- ==== Sys2Proof/Machine/Load.lean ====
section
/-!
DEFINITION. Loading one instruction as the next that the part issues (log 14): a registered image whose code is that word, an admitted
launch of it, and its one team on core 0, whose one group issues next.
-/
namespace Sys2Proof.Machine

/-- The header of the loaded image (R74): 16 lanes of 120 registers, 64 KiB of scratchpad, 16 tiles, no handler. -/
def loadHeader : List Byte :=
  leBytes 4 0x324E534A ++ leBytes 2 0x0200 ++ leBytes 2 0x80 ++ leBytes 16 1 ++ leBytes 1 16 ++ leBytes 1 120 ++ leBytes 2 0 ++
    leBytes 4 65536 ++ leBytes 4 16 ++ leBytes 4 1 ++ leBytes 4 1 ++ leBytes 12 0 ++ leBytes 2 16 ++ leBytes 2 0 ++ leBytes 4 65536 ++
    leBytes 4 0xFFFFFFFF ++ leBytes 4 0 ++ leBytes 4 0 ++ leBytes 4 1 ++ leBytes 4 0 ++ List.replicate 44 0

/-- The loaded image. -/
def loadImage (code : List Word) : Image := ⟨0, 0, loadHeader, [], [], code, true, []⟩

/-- The launch of the loaded image: one team, of queue 0 of context 0. -/
def loadLaunch (uid : Nat) : Launch :=
  { uid := uid, ctx := 0, queue := 0, prio := 0, id := 0, gen := 1, image := 0, gx := 1, gy := 1, gz := 1, compl := 0, repl := 1,
    replica := 0, next := 1, again := [], ended := [], placed := [0], sumTime := 0, res := [], retired := 0, hands := [], fatal := none,
    report := none, kinds := [], concord := [], oldest := 0, facWait := none, facSent := false, facCut := 0, stopped := false }

/-- The team of the loaded launch: one group in slot 0 of core 0. -/
def loadTeam (uid launch age : Nat) (m : Image) : Team :=
  Team.start uid 0 launch 0 0 0 0 m [(0, 0)] [Group.start 0 16 120 0 0 0 1 age] ⟨0, 0, []⟩

/-- `s` with some code loaded and its group, older than any other, chosen to issue next. -/
def State.loadCode (s : State) (code : List Word) : State :=
  let m := loadImage code
  { s with
    cur := none
    inbox := [.issue s.nextId 0]
    nextId := s.nextId + 2
    teams := loadTeam s.nextId (s.nextId + 1) 0 m :: s.teams
    launches := loadLaunch (s.nextId + 1) :: s.launches
    images := m :: s.images
    coreCtxs := s.coreCtxs.filter (fun c => !(c.core == 0 && c.ctx == 0))
    ctxs := if (s.ctx? 0).isSome then s.ctxs else Ctx.fresh 0 0 0 :: s.ctxs }.onCore 0 (fun c => { c with active := some 0 })

/-- `s` with one word loaded as the next instruction. -/
def State.loadWord (s : State) (w : Word) : State := s.loadCode [w]

end Sys2Proof.Machine
end

