-- ==== Sys2Proof/Machine/Step.lean ====
section
/-!
DEFINITION. One step of the part, and placing one instruction where the next step fetches it.
-/
namespace Sys2Proof.Machine

open Host (Outcome)

/-- One step: what the inbox brings next, else the oldest ready group's issue, else the oldest completion the part owes. -/
def step (s : State) : Outcome State Fault Refusal := stepWith exec s

/-- `s` with the instruction of `nbits` bits loaded as a kernel whose only group issues next (log 14). -/
def State.withFetchWord (s : State) (_nbits w : Nat) : State := s.loadWord (BitVec.ofNat 32 w)

end Sys2Proof.Machine
end

