-- ==== Sys2Proof/Safety.lean ====
section
/-!
DEFINITION. What counts as a safe run, and the terms in which claims are stated: an issue that passes its checks, what an issue
that retires changes and keeps, and the frames of the events.
-/
namespace Sys2Proof.Machine

open Host (Outcome Cell)

/-- The state after `n` steps, when each of them answers a next state. -/
def runSteps : Nat → State → Option State
  | 0, s => some s
  | n + 1, s =>
    match step s with
    | .next s' => runSteps n s'
    | .fault _ => none
    | .refused _ => none

/-- A state is safe when no number of steps from it ends in a fault or a refusal. -/
def Safe (s : State) : Prop := ∀ n, runSteps n s ≠ none

/-! ### Issues -/

/-- An issue is under way, its form, operands and scope pass the checks of R72, and no register interlock holds it (R141). -/
structure Passes (s : State) (i : Issue) (form : Bool) (os : List Opnd) (scope : Bool) : Prop where
  issuing : s.issue? = some i
  checks : i.checkScope form os scope = none
  free : s.interlocked i os = false

/-- What the lanes of a group hold: registers by physical index, predicates, pcv, exited and the yield exclusion (R13, R23). -/
structure LaneView where
  regs : Nat → Nat → Word
  preds : Nat → BitVec 16
  pc : Nat → Word
  exited : Nat → Bool
  yx : Nat → Bool

/-- The lanes of an issuing group as they are, with the executing lanes at the next word (R21). -/
def Issue.view (i : Issue) : LaneView where
  regs := fun l p => (i.grp.lane l).reg p
  preds := fun l => (i.grp.lane l).preds
  pc := fun l => if inMask i.cur.exec l then (i.grp.lane l).pcv + 4 else (i.grp.lane l).pcv
  exited := fun l => (i.grp.lane l).exited
  yx := fun l => (i.grp.lane l).yx

/-- A view with other registers. -/
abbrev LaneView.withRegs (v : LaneView) (f : Nat → Nat → Word) : LaneView := { v with regs := f }

/-- A view with other predicates. -/
abbrev LaneView.withPreds (v : LaneView) (f : Nat → BitVec 16) : LaneView := { v with preds := f }

/-- A view with other pcvs. -/
abbrev LaneView.withPc (v : LaneView) (f : Nat → Word) : LaneView := { v with pc := f }

/-- The registers with `n` words `vals l` written from field `d` upward in the lanes of a set (R14). -/
def Issue.written (i : Issue) (eff : LaneMask) (d n : Nat) (vals : Nat → List Word) (l p : Nat) : Word :=
  if inMask eff l ∧ i.grp.wb + d ≤ p ∧ p < i.grp.wb + d + n then getAt (vals l) (p - (i.grp.wb + d)) 0 else (i.grp.lane l).reg p

/-- A group's lanes are as a view says. A lane that waits at a WAITM may be released by any issue of its group (R114), so
the pcv is said of a group none of whose lanes waits. -/
structure LanesAre (i : Issue) (g' : Group) (v : LaneView) : Prop where
  width : g'.lanes.length = i.grp.lanes.length
  size : ∀ l, l < i.width → (g'.lane l).regs.length = (i.grp.lane l).regs.length
  regs : ∀ l, l < i.width → ∀ p, p < (i.grp.lane l).regs.length → (g'.lane l).reg p = v.regs l p
  preds : ∀ l, l < i.width → (g'.lane l).preds = v.preds l
  exited : ∀ l, l < i.width → (g'.lane l).exited = v.exited l
  yx : ∀ l, l < i.width → (g'.lane l).yx = v.yx l
  pc : (∀ l, l < i.width → (i.grp.lane l).waitm = none) → ∀ l, l < i.width → (g'.lane l).pcv = v.pc l ∧ (g'.lane l).waitm = none

/-- Every field of a group but its lanes and what each issue moves by itself (latches, chain, counts, stalls, ages) is kept. -/
def Group.Keeps (g g' : Group) : Prop :=
  { g' with lanes := g.lanes, latches := g.latches, lastExec := g.lastExec, chain := g.chain, chpc := g.chpc, ret := g.ret,
            cyc := g.cyc, wait := g.wait, stall := g.stall, lineWait := g.lineWait, lapse := g.lapse, parked := g.parked,
            refused := g.refused, bpPass := g.bpPass, twinPass := g.twinPass, age := g.age } = g

/-- An issue of `i` has retired from `s` to `t`, and its group is now `g'`: no other part of the state changes but the counts of
an issue, the core's watchdog count and the step count of a stepped twin; outside a chain sr.ret counts one (R29). -/
structure Retires (s t : State) (i : Issue) (g' : Group) : Prop where
  group : t.group? i.cur.team i.cur.grp = some g'
  only : ∃ f : Group → Group, f i.grp = g' ∧
    { t with coreCtxs := s.coreCtxs, twins := s.twins, issues := s.issues, freeTick := s.freeTick } =
      s.onGroup i.cur.team i.cur.grp f
  cores : t.cores = s.cores
  coreCtxs : ∀ c x, { t.coreCtx c x with wdog := (s.coreCtx c x).wdog } = s.coreCtx c x
  twins : t.twins.map (fun w => { w with step := none }) = s.twins.map (fun w => { w with step := none })
  count : i.grp.chain = none → chainFrom i.image.code (i.cur.pc.toNat / 4) = none → g'.ret = i.grp.ret + 1

/-- The latches after an issue: k0 is new, and every entry has moved on by one (R15). -/
def Group.Latched (g g' : Group) (k0 : Latch) : Prop := g'.latches = (k0 :: g.latches).take 8

/-- No byte of memory, of a held line, of a write-combining entry or of a scratchpad differs. -/
structure SameBytes (s t : State) : Prop where
  home : ∀ ctx a, t.viewByte ctx a = s.viewByte ctx a
  team : ∀ u ctx core a, t.teamByte u ctx core a = s.teamByte u ctx core a
  scratch : ∀ u off, ((t.team? u).map (fun x => Memory.get x.scratch off)) = ((s.team? u).map (fun x => Memory.get x.scratch off))

/-- A register-only operation has completed (R15, R96): it wrote `n` words of `vals` at D where it takes effect, unless D is 127,
kept everything else of the group, and entered k0: the first word, the old D elsewhere, or, with `latched` false, nothing valid. -/
structure WritesD (s t : State) (i : Issue) (eff : LaneMask) (d : RegField) (n : Nat) (latched : Bool) (vals : Nat → List Word)
    (g' : Group) : Prop where
  retires : Retires s t i g'
  bytes : SameBytes s t
  keeps : i.grp.Keeps g'
  lanes : LanesAre i g' { i.view with regs := i.written eff d.toNat (if d.toNat = 127 then 0 else n) vals }
  latch : i.grp.Latched g' ⟨latched, if latched then (List.range i.width).map (fun l => if inMask eff l then getAt (vals l) 0 0
    else if d.toNat = 127 then 0 else i.regAt d 0 l) else []⟩

/-- Another instruction has completed: its group's lanes are as a view says, k0 is not valid, and the group keeps the rest. -/
structure Completes (s t : State) (i : Issue) (v : LaneView) (g' : Group) : Prop where
  retires : Retires s t i g'
  bytes : SameBytes s t
  keeps : i.grp.Keeps g'
  lanes : LanesAre i g' v
  latch : i.grp.Latched g' ⟨false, []⟩

/-- An instruction with an effect beyond its group has completed: `s1` is the state with that effect, in which its group is as it was,
and `g` its group with what the instruction gives it besides lanes; the issue then retires. -/
structure Acts (s1 t : State) (i : Issue) (g : Group) (v : LaneView) (g' : Group) : Prop where
  before : s1.group? i.cur.team i.cur.grp = some i.grp
  retires : Retires s1 t i g'
  bytes : SameBytes s1 t
  keeps : g.Keeps g'
  lanes : LanesAre i g' v
  latch : i.grp.Latched g' ⟨false, []⟩

/-- The fragment takes a trap at the issue, and the instruction changes no state (R72, R218). -/
def Issue.traps (i : Issue) (s : State) (c : Trap) : State := s.takeTrap i.cur.team i.cur.grp i.cur.exec i.cur.pc false false 0 none none c

/-- The group waits with a stall reason, and nothing else changes (R303). -/
def Issue.stalls (i : Issue) (s : State) (reason : Nat) : State := s.onGroup i.cur.team i.cur.grp (fun g => { g with stall := reason })

/-! ### Memory accesses -/

/-- The addresses of some lanes pass the checks of R135 for accesses of `n` bytes and a use. -/
structure Mapped (s : State) (i : Issue) (xs : List (Nat × Dword)) (n : Nat) (u : Use) : Prop where
  aligned : ∀ x ∈ xs, x.2.toNat % n = 0
  mapped : ∀ x ∈ xs, ∃ l, s.translate i.team.ctx x.2 u = .ok l ∧ s.meterRefuses l i.image.meas = false ∧
    (u ≠ .write → l.part = s.part → s.poisonedFor i.cur.team i.team.ctx i.grp.core l.pa n = false)

/-- They also meet no watchpoint (R337). -/
structure Reachable (s : State) (i : Issue) (xs : List (Nat × Dword)) (n : Nat) (u : Use) : Prop extends Mapped s i xs n u where
  unwatched : ∀ c, s.ctx? i.team.ctx = some c → c.twinOf = none → i.grp.twinPass = false → ∀ x ∈ xs,
    c.watchpoint x.2.toNat n (u != .write) (u != .read) = none

/-- A read needs no answer of another part to complete its issue (R271, R348, R370): its lanes are homed on this part, or its context is a twin
that has not been released. -/
def Near (s : State) (i : Issue) (xs : List (Nat × Dword)) (u : Use) : Prop :=
  s.quarantined i.team.ctx = true ∨ ∀ x ∈ xs, (i.locOf s x.2 u).part = s.part

/-- No earlier LDA or ATOM of the group holds back an access of some lanes (R146, R149), and its counter is below 63 (R18). -/
structure Unordered (s : State) (i : Issue) {α : Type} (xs : List α) (ctr : Option Nat) : Prop where
  acquired : xs ≠ [] → s.acquiring i = false
  room : ∀ k, ctr = some k → getAt i.grp.ctrs k 0 < 63

/-- A release has nothing to wait for (R146, R242): no access of the group is outstanding, no entry or request of its scope is left, and the
team holds nothing for another part. -/
structure Drained (s : State) (i : Issue) (scope : Nat) : Prop where
  alone : s.outstanding i.cur.team i.cur.grp = false
  entries : s.drainsFor i.grp.core i.cur.team scope = []
  requests : s.awaits i.grp.core i.cur.team scope = false
  held : 3 ≤ scope → ∀ e ∈ s.heldOut, e.team ≠ i.cur.team

/-- A release at a scope from 3 is performed (R146, R147): nothing is left to wait for, the team may commit, and `s1` is the state in
which it has committed, its group as it was. -/
structure Releases (s : State) (i : Issue) (scope : Nat) (s1 : State) : Prop where
  drained : Drained s i scope
  lawful : i.image.strict = true → i.team.committed = true
  commits : s.commit i.cur.team = some s1
  group : s1.group? i.cur.team i.cur.grp = some i.grp

/-- The offsets of some lanes lie in the team's scratchpad, aligned, in lines that are present and in no transfer's way
(R135, R167, R191, R209). -/
structure InScratch (s : State) (i : Issue) (xs : List (Nat × Nat)) (n : Nat) (write : Bool) : Prop where
  aligned : ∀ x ∈ xs, x.2 % n = 0 ∧ x.2 < 2 ^ 32
  inside : ∀ x ∈ xs, x.2 + n ≤ i.image.scratch
  lines : ∀ x ∈ xs, ∀ k ∈ linesOf x.2 n, i.team.absentLine? k = none
  quiet : ∀ x ∈ xs, s.sliceMeets i.cur.team x.2 n = false ∧ s.tileMeets i.cur.team i.cur.grp x.2 n = false ∧
    (write = true → s.accessions.any (fun a => a.team == i.cur.team && decide (a.offset < x.2 + n ∧ x.2 < a.offset + 4096)) = false)

/-- The record of an access that an issue begins (R138, R139, R149). -/
structure Begun (s : State) (i : Issue) (a : Access) (ctr : Option Nat) (dst dstN n : Nat) : Prop where
  id : a.id = s.nextId
  group : a.team = i.cur.team ∧ a.grp = i.cur.grp ∧ a.core = i.grp.core
  ctr : a.ctr = ctr
  dst : a.dst = i.grp.wb + dst ∧ a.dstN = dstN
  size : a.size = n
  issue : a.pc = i.cur.pc ∧ a.exec = i.cur.exec ∧ a.waiting = false

/-- The state with an access outstanding that owes its completion. -/
def State.withAccess (s : State) (a : Access) : State :=
  { s with nextId := s.nextId + 1, accesses := s.accesses ++ [a], due := s.due ++ [a.event] }

end Sys2Proof.Machine
end

