-- ==== Sys2Proof/Certificates/Slice0/Obligations.lean ====
section
/-!
DEFINITION. The statements about the model: what its instructions and events do, in the terms of Safety.
-/

/-! ### Tables: what each instruction of a shape computes -/

namespace Sys2Proof.Claims

open Sys2Proof.Machine

/-- A constructor with a destination and two sources. -/
abbrev Op3 := Guard → RegField → RegField → RegField → Instr
/-- A constructor with a destination and one source. -/
abbrev Op2 := Guard → RegField → RegField → Instr

/-- R97: the three-register integer operations of A and B. -/
def intOps : List (Op3 × (Word → Word → Word)) := [
  (.iadd, fun a b => a + b), (.isub, fun a b => a - b), (.imul, fun a b => a * b),
  (.imulh, fun a b => (a.signExtend 64 * b.signExtend 64).extractLsb' 32 32),
  (.imulhn, fun a b => (a.setWidth 64 * b.setWidth 64).extractLsb' 32 32),
  (.and, fun a b => a &&& b), (.or, fun a b => a ||| b), (.xor, fun a b => a ^^^ b), (.andn, fun a b => a &&& ~~~b),
  (.shl, fun a b => a <<< b.toNat), (.shr, fun a b => a >>> b.toNat), (.sra, fun a b => a.sshiftRight b.toNat),
  (.imin, fun a b => if a.slt b then a else b), (.imax, fun a b => if a.slt b then b else a),
  (.nmin, fun a b => if a.ult b then a else b), (.nmax, fun a b => if a.ult b then b else a)]

/-- R101: the one-source integer operations. -/
def intUnary : List (Op2 × (Word → Word)) := [
  (.popc, fun a => a.cpop), (.clz, fun a => a.clz), (.brev, fun a => a.reverse),
  (.bswap, fun a => a.extractLsb' 0 8 ++ a.extractLsb' 8 8 ++ a.extractLsb' 16 8 ++ a.extractLsb' 24 8),
  (.iabs, fun a => if a.slt 0 then -a else a), (.ineg, fun a => -a), (.mov, fun a => a)]

/-- R103: the shifts by an immediate. -/
def immShifts : List ((Guard → RegField → RegField → BitVec 5 → Instr) × (Word → Nat → Word)) := [
  (.shli, fun a k => a <<< k), (.shri, fun a k => a >>> k), (.srai, fun a k => a.sshiftRight k), (.rori, fun a k => a.rotateRight k)]

/-- R102: the divisions, of D by A. -/
def divOps : List (Op2 × (Word → Word → Word)) := [
  (.divs, fun d a => if a = 0 then BitVec.allOnes 32 else d.sdiv a), (.divn, fun d a => if a = 0 then BitVec.allOnes 32 else d / a),
  (.rems, fun d a => if a = 0 then d else d.srem a), (.remn, fun d a => if a = 0 then d else d % a)]

/-- Bit `k` of a field of `a` extracted as `b` describes (R99): position b[4:0], length b[13:8] cut at bit 31, sign b[16]. -/
def extractBit (a b : Word) (k : Nat) : Bool :=
  let pos := (b.extractLsb' 0 5).toNat
  let len := min (b.extractLsb' 8 6).toNat (32 - pos)
  if k < len then a.getLsbD (pos + k) else b.getLsbD 16 && decide (0 < len) && a.getLsbD (pos + len - 1)

/-- Bit `k` of `d` with the low bits of `a` inserted as `b` describes (R99). -/
def insertBit (d a b : Word) (k : Nat) : Bool :=
  let pos := (b.extractLsb' 0 5).toNat
  let len := min (b.extractLsb' 8 6).toNat (32 - pos)
  if pos ≤ k ∧ k < pos + len then a.getLsbD (k - pos) else d.getLsbD k

/-- An FP32 result of two operands' values (R118). -/
def f32Of (f : RMode → Val → Val → Val) (rm : RMode) (a b : Word) : Word :=
  BitVec.ofNat 32 (Fmt.f32.encode rm false (f rm (Fmt.f32.decode a.toNat) (Fmt.f32.decode b.toNat)))

/-- A packed FP16 result of two operands' halves (R118). -/
def f16Of (f : RMode → Val → Val → Val) (rm : RMode) (a b : Word) : Word :=
  BitVec.ofNat 16 (Fmt.f16.encode rm false (f rm (Fmt.f16.decode (a.extractLsb' 16 16).toNat) (Fmt.f16.decode (b.extractLsb' 16 16).toNat))) ++
  BitVec.ofNat 16 (Fmt.f16.encode rm false (f rm (Fmt.f16.decode (a.extractLsb' 0 16).toNat) (Fmt.f16.decode (b.extractLsb' 0 16).toNat)))

/-- R119: the two-operand sums and products. -/
def floatOps : List (Op3 × (RMode → Word → Word → Word)) := [
  (.fadd, f32Of (fun rm x y => Val.add rm x y)), (.fmul, f32Of (fun _ x y => Val.mul x y)),
  (.hadd, f16Of (fun rm x y => Val.add rm x y)), (.hmul, f16Of (fun _ x y => Val.mul x y))]

/-- A packed fused result of a format of 16 bits (R118, R119). -/
def fused16 (f : Fmt) (rm : RMode) (a b d : Word) : Word :=
  let part := fun (lo : Nat) => BitVec.ofNat 16 (f.encode rm false (Val.fma rm (f.decode (a.extractLsb' lo 16).toNat)
    (f.decode (b.extractLsb' lo 16).toNat) (f.decode (d.extractLsb' lo 16).toNat)))
  part 16 ++ part 0

/-- R119: the fused operations a × b + d with one rounding. -/
def fusedOps : List (Op3 × (RMode → Word → Word → Word → Word)) := [
  (.ffma, fun rm a b d => BitVec.ofNat 32 (Fmt.f32.encode rm false
    (Val.fma rm (Fmt.f32.decode a.toNat) (Fmt.f32.decode b.toNat) (Fmt.f32.decode d.toNat)))),
  (.hfma, fused16 Fmt.f16), (.bfma, fused16 Fmt.bf16)]

/-- R119: the minimum and maximum of patterns. -/
def pickOps : List (Op3 × (Word → Word → Word)) := [
  (.fmin, fun a b => BitVec.ofNat 32 (Fmt.f32.pick false a.toNat b.toNat)),
  (.fmax, fun a b => BitVec.ofNat 32 (Fmt.f32.pick true a.toNat b.toNat)),
  (.hmin, fun a b => BitVec.ofNat 16 (Fmt.f16.pick false (a.extractLsb' 16 16).toNat (b.extractLsb' 16 16).toNat) ++
    BitVec.ofNat 16 (Fmt.f16.pick false (a.extractLsb' 0 16).toNat (b.extractLsb' 0 16).toNat)),
  (.hmax, fun a b => BitVec.ofNat 16 (Fmt.f16.pick true (a.extractLsb' 16 16).toNat (b.extractLsb' 16 16).toNat) ++
    BitVec.ofNat 16 (Fmt.f16.pick true (a.extractLsb' 0 16).toNat (b.extractLsb' 0 16).toNat))]

/-- R120: the operations on sign bits, whatever the pattern. -/
def signOps : List (Op2 × (Word → Word)) := [
  (.fabs, fun a => a &&& 0x7FFFFFFF), (.fneg, fun a => a ^^^ 0x80000000), (.habs, fun a => a &&& 0x7FFF7FFF),
  (.hneg, fun a => a ^^^ 0x80008000), (.babs, fun a => a &&& 0x7FFF7FFF), (.bneg, fun a => a ^^^ 0x80008000)]

/-- Both halves of a word through a function of FP16 patterns. -/
def bothHalves (f : Nat → Nat) (a : Word) : Word :=
  BitVec.ofNat 16 (f (a.extractLsb' 16 16).toNat) ++ BitVec.ofNat 16 (f (a.extractLsb' 0 16).toNat)

/-- R120, R121: the functions of the function unit, whose result no latch holds. -/
def unitOps : List (Op2 × (RMode → Word → Word)) := [
  (.fsqrt, fun rm a => BitVec.ofNat 32 (Fmt.f32.sqrt rm (Fmt.f32.decode a.toNat))),
  (.frcp, fun rm a => BitVec.ofNat 32 (Fmt.f32.rcp rm (Fmt.f32.decode a.toNat))),
  (.frsq, fun rm a => BitVec.ofNat 32 (Fmt.f32.rsqrt rm (Fmt.f32.decode a.toNat))),
  (.fexp2, fun _ a => BitVec.ofNat 32 (f32Exp2 a.toNat)), (.flog2, fun _ a => BitVec.ofNat 32 (f32Log2 a.toNat)),
  (.fsin, fun _ a => BitVec.ofNat 32 (f32Trig 0 a.toNat)), (.fcos, fun _ a => BitVec.ofNat 32 (f32Trig 1 a.toNat)),
  (.ftanh, fun _ a => BitVec.ofNat 32 (f32Tanh a.toNat)),
  (.hsqrt, fun rm a => bothHalves (fun h => Fmt.f16.sqrt rm (Fmt.f16.decode h)) a),
  (.hrcp, fun rm a => bothHalves (fun h => Fmt.f16.rcp rm (Fmt.f16.decode h)) a)]

/-- R120, R122: rounding to an integral value, and the class mask. -/
def integralOps : List (Op2 × (RMode → Word → Word)) := [
  (.frint, fun rm a => BitVec.ofNat 32 (f32Integral rm a.toNat)), (.ffloor, fun _ a => BitVec.ofNat 32 (f32Integral .rd a.toNat)),
  (.fceil, fun _ a => BitVec.ofNat 32 (f32Integral .ru a.toNat)), (.ftrunc, fun _ a => BitVec.ofNat 32 (f32Integral .rz a.toNat)),
  (.fclass, fun _ a => BitVec.ofNat 32 (f32Class a.toNat))]

/-- R123: the conversions of a source of one register to `n` registers: word `k` of the result. -/
def widening : List (Op2 × Nat × (RMode → Word → Nat → Word)) := [
  (.cvtF32I32, 1, fun rm a _ => BitVec.ofNat 32 (Fmt.f32.encode rm false (Val.ofInt false a.toInt 0))),
  (.cvtF32N32, 1, fun rm a _ => BitVec.ofNat 32 (Fmt.f32.encode rm false (Val.ofInt false a.toNat 0))),
  (.cvtI32F32, 1, fun rm a _ => BitVec.ofInt 32 (toIntClamped rm (-2147483648) 2147483647 (Fmt.f32.decode a.toNat))),
  (.cvtN32F32, 1, fun rm a _ => BitVec.ofInt 32 (toIntClamped rm 0 4294967295 (Fmt.f32.decode a.toNat))),
  (.cvtF32H2Lo, 1, fun rm a _ => BitVec.ofNat 32 (convert Fmt.f16 Fmt.f32 rm false (a.extractLsb' 0 16).toNat)),
  (.cvtF32H2Hi, 1, fun rm a _ => BitVec.ofNat 32 (convert Fmt.f16 Fmt.f32 rm false (a.extractLsb' 16 16).toNat)),
  (.cvtF32B2Lo, 1, fun rm a _ => BitVec.ofNat 32 (convert Fmt.bf16 Fmt.f32 rm false (a.extractLsb' 0 16).toNat)),
  (.cvtF32B2Hi, 1, fun rm a _ => BitVec.ofNat 32 (convert Fmt.bf16 Fmt.f32 rm false (a.extractLsb' 16 16).toNat)),
  (.cvtF32E4m3, 4, fun rm a k => BitVec.ofNat 32 (convert Fmt.e4m3 Fmt.f32 rm false (a.extractLsb' (8 * k) 8).toNat)),
  (.cvtF32E5m2, 4, fun rm a k => BitVec.ofNat 32 (convert Fmt.e5m2 Fmt.f32 rm false (a.extractLsb' (8 * k) 8).toNat)),
  (.cvtF32E2m1, 4, fun rm a k => BitVec.ofNat 32 (convert Fmt.e2m1 Fmt.f32 rm false (a.extractLsb' (4 * k) 4).toNat)),
  (.cvtH2E4m3, 2, fun rm a k =>
    BitVec.ofNat 16 (convert Fmt.e4m3 Fmt.f16 rm false (a.extractLsb' (16 * k + 8) 8).toNat) ++
      BitVec.ofNat 16 (convert Fmt.e4m3 Fmt.f16 rm false (a.extractLsb' (16 * k) 8).toNat)),
  (.cvtI32I8, 4, fun _ a k => (a.extractLsb' (8 * k) 8).signExtend 32), (.cvtN32N8, 4, fun _ a k => (a.extractLsb' (8 * k) 8).setWidth 32)]

/-- R123: the conversions of `n` source registers `a 0`, `a 1`, … to one register, with the saturation bit where they have it. -/
def narrowing : List ((Guard → RegField → RegField → Bool → Instr) × Nat × (RMode → Bool → (Nat → Word) → Word)) := [
  (.cvtH2F32, 2, fun rm st a => BitVec.ofNat 16 (convert Fmt.f32 Fmt.f16 rm st (a 1).toNat) ++
    BitVec.ofNat 16 (convert Fmt.f32 Fmt.f16 rm st (a 0).toNat)),
  (.cvtB2F32, 2, fun rm st a => BitVec.ofNat 16 (convert Fmt.f32 Fmt.bf16 rm st (a 1).toNat) ++
    BitVec.ofNat 16 (convert Fmt.f32 Fmt.bf16 rm st (a 0).toNat)),
  (.cvtE4m3F32, 4, fun rm st a => let e := fun k => BitVec.ofNat 8 (convert Fmt.f32 Fmt.e4m3 rm st (a k).toNat); e 3 ++ e 2 ++ e 1 ++ e 0),
  (.cvtE5m2F32, 4, fun rm st a => let e := fun k => BitVec.ofNat 8 (convert Fmt.f32 Fmt.e5m2 rm st (a k).toNat); e 3 ++ e 2 ++ e 1 ++ e 0),
  (.cvtE2m1F32, 4, fun rm st a => (let e := fun k => BitVec.ofNat 4 (convert Fmt.f32 Fmt.e2m1 rm st (a k).toNat);
    e 3 ++ e 2 ++ e 1 ++ e 0 : BitVec 16).setWidth 32),
  (.cvtE4m3H2, 2, fun rm st a =>
    let e := fun (k lo : Nat) => BitVec.ofNat 8 (convert Fmt.f16 Fmt.e4m3 rm st ((a k).extractLsb' lo 16).toNat); e 1 16 ++ e 1 0 ++ e 0 16 ++ e 0 0),
  (fun g d a _ => .cvtI8I32 g d a, 4, fun _ _ a => let e := fun k => BitVec.ofInt 8 (max (-128) (min 127 (a k).toInt)); e 3 ++ e 2 ++ e 1 ++ e 0),
  (fun g d a _ => .cvtN8N32 g d a, 4, fun _ _ a => let e := fun k => BitVec.ofNat 8 (min 255 (a k).toNat); e 3 ++ e 2 ++ e 1 ++ e 0)]

/-- R123: the conversions between packed pairs of FP16 and BF16. -/
def crossing : List ((Guard → RegField → RegField → Bool → Instr) × Fmt × Fmt) := [(.cvtH2B2, Fmt.bf16, Fmt.f16), (.cvtB2H2, Fmt.f16, Fmt.bf16)]

/-- R107: the predicate operations of two predicates. -/
def predOps : List ((Guard → BitVec 4 → BitVec 4 → BitVec 4 → Instr) × (Bool → Bool → Bool)) := [
  (.pand, fun a b => a && b), (.por, fun a b => a || b), (.pxor, fun a b => xor a b), (.pandn, fun a b => a && !b)]

/-- R106: the integer conditions by code. -/
def intHolds (c : BitVec 3) (a b : Word) : Bool :=
  if c = 0 then a == b else if c = 1 then a != b else if c = 2 then a.slt b else if c = 3 then a.sle b else
  if c = 4 then b.slt a else if c = 5 then b.sle a else if c = 6 then a.ult b else b.ule a

/-- R126: the float conditions by code; `o` is the order of the operands, none when they are unordered. -/
def floatHolds (c : BitVec 3) (o : Option Int) : Bool :=
  match o with
  | none => decide (c = 1 ∨ c = 6)
  | some o => if c = 0 then decide (o = 0) else if c = 1 then decide (o ≠ 0) else if c = 2 then decide (o < 0) else if c = 3 then decide (o ≤ 0) else
    if c = 4 then decide (0 < o) else if c = 5 then decide (0 ≤ o) else decide (c = 7)

/-- A lane's predicates with one written; p0 stays as it is (R13). -/
def setPreds (old : BitVec 16) (p : Nat) (v : Bool) : BitVec 16 :=
  if p = 0 then old else if v then old ||| BitVec.ofNat 16 (2 ^ p) else old &&& ~~~(BitVec.ofNat 16 (2 ^ p))

/-- PD and PD xor 1 written in that order, in the lanes of a set (R106, R125). -/
def comparePreds (i : Issue) (eff : LaneMask) (p : BitVec 4) (r0 r1 : Nat → Bool) (l : Nat) : BitVec 16 :=
  if inMask eff l then setPreds (setPreds (i.grp.lane l).preds p.toNat (r0 l)) (p ^^^ 1).toNat (r1 l) else (i.grp.lane l).preds

/-- One predicate written in the lanes of a set (R107). -/
def onePred (i : Issue) (eff : LaneMask) (p : BitVec 4) (r : Nat → Bool) (l : Nat) : BitVec 16 :=
  if inMask eff l then setPreds (i.grp.lane l).preds p.toNat (r l) else (i.grp.lane l).preds

/-- Lanes that execute, of a group (R5). -/
def executing (i : Issue) : List Nat := (List.range i.width).filter (fun l => i.cur.exec.getLsbD l)

/-- R129: the votes over the executing lanes. -/
def voteOps : List (Op2 × (Issue → (Nat → Word) → Word)) := [
  (.first, fun i v => v ((executing i).headD 0)),
  (.vany, fun i v => if ∃ l ∈ executing i, v l ≠ 0 then 1 else 0),
  (.vall, fun i v => if ∀ l ∈ executing i, v l ≠ 0 then 1 else 0)]

/-- A source lane of a shuffle: an executing lane of the group gives its A, any other leaves the lane its own (R128). -/
def shuffleFrom (i : Issue) (v : Nat → Word) (l : Nat) (src : Int) : Word :=
  if 0 ≤ src ∧ src.toNat ∈ executing i then v src.toNat else v l

/-- R128: the shuffles by a constant: the source lane of lane `l`. -/
def shuffleOps : List ((Guard → RegField → RegField → BitVec 5 → Instr) × (Nat → Nat → Int)) := [
  (.shflUp, fun l c => (l : Int) - c), (.shflDn, fun l c => (l : Int) + c), (.shflXor, fun l c => ((l ^^^ c : Nat) : Int))]

/-- R130: two nodes combine; an empty one passes the other through. -/
def combine (op : Word → Word → Word) : Option Word → Option Word → Option Word
  | none, y => y
  | some x, none => some x
  | some x, some y => some (op x y)

/-- R130: node `j` of level `k` of the fixed tree over leaves: the combination of nodes 2j and 2j + 1 of the level below. -/
def treeNode (op : Word → Word → Word) (leaf : Nat → Option Word) : Nat → Nat → Option Word
  | 0, j => leaf j
  | k + 1, j => combine op (treeNode op leaf k (2 * j)) (treeNode op leaf k (2 * j + 1))

/-- A leaf: A of an executing lane, empty elsewhere (R130). -/
def leafOf (i : Issue) (v : Nat → Word) (l : Nat) : Option Word := if l ∈ executing i then some (v l) else none

/-- R130: the reductions whose operation is associative and commutative, as a fold over the executing lanes. -/
def intReduce : List (Op2 × (Word → Word → Word)) := [
  (.iredsum, fun a b => a + b), (.iredmin, fun a b => if a.slt b then a else b), (.iredmax, fun a b => if a.slt b then b else a),
  (.nredmin, fun a b => if a.ult b then a else b), (.nredmax, fun a b => if a.ult b then b else a),
  (.redand, fun a b => a &&& b), (.redor, fun a b => a ||| b), (.redxor, fun a b => a ^^^ b)]

/-- R130: the floating-point reductions in the fixed tree. -/
def floatReduce : List (Op2 × (RMode → Word → Word → Word)) := [
  (.fredsum, f32Of (fun rm x y => Val.add rm x y)), (.hredsum, f16Of (fun rm x y => Val.add rm x y)),
  (.fredmin, fun _ a b => BitVec.ofNat 32 (Fmt.f32.pick false a.toNat b.toNat)),
  (.fredmax, fun _ a b => BitVec.ofNat 32 (Fmt.f32.pick true a.toNat b.toNat))]

/-- R131: the first `n` leaves as nodes of the tree, from position `at_`: the largest power of two first. -/
def scanFrom (op : Word → Word → Word) (leaf : Nat → Option Word) : Nat → Nat → Nat → Option Word → Option Word
  | 0, _, _, acc => acc
  | k + 1, at_, n, acc =>
    if 2 ^ k ≤ n then scanFrom op leaf k (at_ + 2 ^ k) (n - 2 ^ k) (combine op acc (treeNode op leaf k (at_ / 2 ^ k)))
    else scanFrom op leaf k at_ n acc

/-- R131: the integer and floating-point scans; the flag says inclusive. -/
def scanOps : List (Op2 × (RMode → Word → Word → Word) × Bool) := [
  (.iscan, fun _ a b => a + b, true), (.iscanx, fun _ a b => a + b, false),
  (.fscan, f32Of (fun rm x y => Val.add rm x y), true), (.fscanx, f32Of (fun rm x y => Val.add rm x y), false)]

end Sys2Proof.Claims

open Sys2Proof Sys2Proof.Machine Sys2Proof.Claims
open Host (Outcome Cell)

/-! ### Register-only operations -/

/-- R97: each of the sixteen three-register integer operations, when its issue passes the checks of R72, completes: D gets the result
of A and B where it takes effect, everything else of the state stays, and k0 holds the result (R15). -/
def Obligations.IntegerThreeRegister : Prop :=
  ∀ op ∈ intOps, ∀ (g : Guard) (d a b : RegField) (s : State) (i : Issue), Passes s i true [.dst d 1, .src a, .src b] true →
    ∃ t g', exec (op.1 g d a b) s = .next t ∧ WritesD s t i (i.effect g) d 1 true (fun l => [op.2 (i.src a l) (i.src b l)]) g'


/-- R97, R98, R99: IMAD adds the product to D; SEL writes in every executing lane, A where its guard holds and B elsewhere; BFX and
BFI extract and insert the bit field that B describes, said bit by bit. R101, R103, R104: the one-source operations, the shifts by an immediate, MOVI and ADDI complete with their results in D. -/
def Obligations.IntegerTwoAndThreeSources : Prop :=
  ((∀ (g : Guard) (d a b : RegField) (s : State) (i : Issue), Passes s i true [.rw d 1, .src a, .src b] true →
    ∃ t g', exec (.imad g d a b) s = .next t ∧
      WritesD s t i (i.effect g) d 1 true (fun l => [i.regAt d 0 l + i.src a l * i.src b l]) g') ∧
  (∀ (g : Guard) (d a b : RegField) (s : State) (i : Issue), Passes s i true [.dst d 1, .src a, .src b] true →
    ∃ t g', exec (.sel g d a b) s = .next t ∧
      WritesD s t i (maskOf (inMask i.cur.exec) i.width) d 1 true
        (fun l => [if guardHolds g (i.grp.lane l) ∧ inMask i.cur.exec l ∧ l < i.width then i.src a l else i.src b l]) g') ∧
  (∀ (g : Guard) (d a b : RegField) (s : State) (i : Issue), Passes s i true [.dst d 1, .src a, .src b] true →
    ∃ t g', ∃ v : Nat → Word, exec (.bfx g d a b) s = .next t ∧ WritesD s t i (i.effect g) d 1 true (fun l => [v l]) g' ∧
      ∀ l k, k < 32 → (v l).getLsbD k = extractBit (i.src a l) (i.src b l) k) ∧
  (∀ (g : Guard) (d a b : RegField) (s : State) (i : Issue), Passes s i true [.rw d 1, .src a, .src b] true →
    ∃ t g', ∃ v : Nat → Word, exec (.bfi g d a b) s = .next t ∧ WritesD s t i (i.effect g) d 1 true (fun l => [v l]) g' ∧
      ∀ l k, k < 32 → (v l).getLsbD k = insertBit (i.regAt d 0 l) (i.src a l) (i.src b l) k)) ∧
  ((∀ op ∈ intUnary, ∀ (g : Guard) (d a : RegField) (s : State) (i : Issue), Passes s i true [.dst d 1, .src a] true →
    ∃ t g', exec (op.1 g d a) s = .next t ∧ WritesD s t i (i.effect g) d 1 true (fun l => [op.2 (i.src a l)]) g') ∧
  (∀ op ∈ immShifts, ∀ (g : Guard) (d a : RegField) (k : BitVec 5) (s : State) (i : Issue), Passes s i true [.dst d 1, .src a] true →
    ∃ t g', exec (op.1 g d a k) s = .next t ∧ WritesD s t i (i.effect g) d 1 true (fun l => [op.2 (i.src a l) k.toNat]) g') ∧
  (∀ (g : Guard) (d : RegField) (v : BitVec 14) (s : State) (i : Issue), Passes s i true [.dst d 1] true →
    ∃ t g', exec (.movi g d v) s = .next t ∧ WritesD s t i (i.effect g) d 1 true (fun _ => [v.signExtend 32]) g') ∧
  (∀ (g : Guard) (d : RegField) (v : BitVec 14) (s : State) (i : Issue), Passes s i true [.rw d 1] true →
    ∃ t g', exec (.addi g d v) s = .next t ∧ WritesD s t i (i.effect g) d 1 true (fun l => [i.regAt d 0 l + v.signExtend 32]) g'))

/-- R101, R102: ADD64 and SUB64 write the pair D modulo 2^64; the four divisions write D, and no latch holds their result (R15). -/
def Obligations.PairsAndDivisions : Prop :=
  (∀ (g : Guard) (d a : RegField) (s : State) (i : Issue), Passes s i true [.rw d 2, .srcNoLatch a 2] true →
    (∃ t g', exec (.add64 g d a) s = .next t ∧
      WritesD s t i (i.effect g) d 2 true (fun l => [(i.pair d l + i.pair a l).extractLsb' 0 32, (i.pair d l + i.pair a l).extractLsb' 32 32]) g') ∧
    (∃ t g', exec (.sub64 g d a) s = .next t ∧
      WritesD s t i (i.effect g) d 2 true (fun l => [(i.pair d l - i.pair a l).extractLsb' 0 32, (i.pair d l - i.pair a l).extractLsb' 32 32]) g')) ∧
  (∀ op ∈ divOps, ∀ (g : Guard) (d a : RegField) (s : State) (i : Issue), Passes s i true [.rw d 1, .src a] true →
    ∃ t g', exec (op.1 g d a) s = .next t ∧ WritesD s t i (i.effect g) d 1 false (fun l => [op.2 (i.regAt d 0 l) (i.src a l)]) g')


/-- R118, R119: the floating-point sums, products, fused operations, minima and maxima complete, each rounded once by the group's
mode, lane by lane and half by half. R120, R121, R122: the one-source floating-point functions complete; what the function unit computes enters no latch (R15). The model's method for
the correctly rounded functions of R120 is log 20. -/
def Obligations.FloatOperations : Prop :=
  ((∀ op ∈ floatOps, ∀ (g : Guard) (d a b : RegField) (s : State) (i : Issue), Passes s i true [.dst d 1, .src a, .src b] true →
    ∃ t g', exec (op.1 g d a b) s = .next t ∧
      WritesD s t i (i.effect g) d 1 true (fun l => [op.2 (RMode.ofBits i.grp.rm) (i.src a l) (i.src b l)]) g') ∧
  (∀ op ∈ fusedOps, ∀ (g : Guard) (d a b : RegField) (s : State) (i : Issue), Passes s i true [.rw d 1, .src a, .src b] true →
    ∃ t g', exec (op.1 g d a b) s = .next t ∧
      WritesD s t i (i.effect g) d 1 true (fun l => [op.2 (RMode.ofBits i.grp.rm) (i.src a l) (i.src b l) (i.regAt d 0 l)]) g') ∧
  (∀ op ∈ pickOps, ∀ (g : Guard) (d a b : RegField) (s : State) (i : Issue), Passes s i true [.dst d 1, .src a, .src b] true →
    ∃ t g', exec (op.1 g d a b) s = .next t ∧ WritesD s t i (i.effect g) d 1 true (fun l => [op.2 (i.src a l) (i.src b l)]) g')) ∧
  ((∀ op ∈ signOps, ∀ (g : Guard) (d a : RegField) (s : State) (i : Issue), Passes s i true [.dst d 1, .src a] true →
    ∃ t g', exec (op.1 g d a) s = .next t ∧ WritesD s t i (i.effect g) d 1 true (fun l => [op.2 (i.src a l)]) g') ∧
  (∀ op ∈ unitOps, ∀ (g : Guard) (d a : RegField) (s : State) (i : Issue), Passes s i true [.dst d 1, .src a] true →
    ∃ t g', exec (op.1 g d a) s = .next t ∧
      WritesD s t i (i.effect g) d 1 false (fun l => [op.2 (RMode.ofBits i.grp.rm) (i.src a l)]) g') ∧
  (∀ op ∈ integralOps, ∀ (g : Guard) (d a : RegField) (s : State) (i : Issue), Passes s i true [.dst d 1, .src a] true →
    ∃ t g', exec (op.1 g d a) s = .next t ∧
      WritesD s t i (i.effect g) d 1 true (fun l => [op.2 (RMode.ofBits i.grp.rm) (i.src a l)]) g'))

/-- R123, R124: every conversion completes with its words written from D upward, element 0 lowest. -/
def Obligations.Conversions : Prop :=
  (∀ op ∈ widening, ∀ (g : Guard) (d a : RegField) (s : State) (i : Issue), Passes s i true [.dst d op.2.1, .src a] true →
    ∃ t g', exec (op.1 g d a) s = .next t ∧
      WritesD s t i (i.effect g) d op.2.1 true (fun l => (List.range op.2.1).map (op.2.2 (RMode.ofBits i.grp.rm) (i.src a l))) g') ∧
  (∀ op ∈ narrowing, ∀ (g : Guard) (d a : RegField) (st : Bool) (s : State) (i : Issue),
    Passes s i true [.dst d 1, .srcNoLatch a op.2.1] true →
    ∃ t g', exec (op.1 g d a st) s = .next t ∧
      WritesD s t i (i.effect g) d 1 true (fun l => [op.2.2 (RMode.ofBits i.grp.rm) st (fun k => i.regAt a k l)]) g') ∧
  (∀ op ∈ crossing, ∀ (g : Guard) (d a : RegField) (st : Bool) (s : State) (i : Issue), Passes s i true [.dst d 1, .src a] true →
    ∃ t g', exec (op.1 g d a st) s = .next t ∧
      WritesD s t i (i.effect g) d 1 true
        (fun l => [bothHalves (fun h => convert op.2.1 op.2.2 (RMode.ofBits i.grp.rm) st h) (i.src a l)]) g')


/-- R13, R106, R125, R126: ICMP and FCMP write PD with the condition and then PD xor 1 with its complement; HCMP writes PD with the low
half's result and PD xor 1 with the high half's; p0 keeps what it holds. R107: the predicate operations write PD; PTST tests a register; PTOV copies the sixteen predicates, with p0 as 1, into D; VTOP
copies bits 15 to 1 of A into p1 to p15. -/
def Obligations.ComparesAndPredicates : Prop :=
  (∀ (g : Guard) (p : BitVec 4) (c : BitVec 3) (a b : RegField) (s : State) (i : Issue), Passes s i true [.srcLost a, .srcLost b] true →
    (∃ t g', exec (.icmp g p c a b) s = .next t ∧ Completes s t i (i.view.withPreds (comparePreds i (i.effect g) p
      (fun l => intHolds c (i.src a l) (i.src b l)) (fun l => !(intHolds c (i.src a l) (i.src b l))))) g') ∧
    (∃ t g', exec (.fcmp g p c a b) s = .next t ∧ Completes s t i (i.view.withPreds (comparePreds i (i.effect g) p
      (fun l => floatHolds c (Val.cmp (Fmt.f32.decode (i.src a l).toNat) (Fmt.f32.decode (i.src b l).toNat)))
      (fun l => !(floatHolds c (Val.cmp (Fmt.f32.decode (i.src a l).toNat) (Fmt.f32.decode (i.src b l).toNat)))))) g') ∧
    (∃ t g', exec (.hcmp g p c a b) s = .next t ∧ Completes s t i (i.view.withPreds (comparePreds i (i.effect g) p
      (fun l => floatHolds c (Val.cmp (Fmt.f16.decode ((i.src a l).extractLsb' 0 16).toNat) (Fmt.f16.decode ((i.src b l).extractLsb' 0 16).toNat)))
      (fun l => floatHolds c (Val.cmp (Fmt.f16.decode ((i.src a l).extractLsb' 16 16).toNat) (Fmt.f16.decode ((i.src b l).extractLsb' 16 16).toNat))))) g')) ∧
  ((∀ op ∈ predOps, ∀ (g : Guard) (p a b : BitVec 4) (s : State) (i : Issue), Passes s i true [] true →
    ∃ t g', exec (op.1 g p a b) s = .next t ∧ Completes s t i (i.view.withPreds (onePred i (i.effect g) p
      (fun l => op.2 ((i.grp.lane l).pred a.toNat) ((i.grp.lane l).pred b.toNat)))) g') ∧
  (∀ (g : Guard) (p a : BitVec 4) (s : State) (i : Issue), Passes s i true [] true →
    ∃ t g', exec (.pnot g p a) s = .next t ∧ Completes s t i (i.view.withPreds (onePred i (i.effect g) p
      (fun l => !((i.grp.lane l).pred a.toNat)))) g') ∧
  (∀ (g : Guard) (p : BitVec 4) (a : RegField) (s : State) (i : Issue), Passes s i true [.srcLost a] true →
    ∃ t g', exec (.ptst g p a) s = .next t ∧ Completes s t i (i.view.withPreds (onePred i (i.effect g) p
      (fun l => decide (i.src a l ≠ 0)))) g') ∧
  (∀ (g : Guard) (d : RegField) (s : State) (i : Issue), Passes s i true [.dstMem d 1] true →
    ∃ t g', exec (.ptov g d) s = .next t ∧ Completes s t i (i.view.withRegs (i.written (i.effect g) d.toNat 1
      (fun l => [((i.grp.lane l).preds ||| 1).setWidth 32]))) g') ∧
  (∀ (g : Guard) (a : RegField) (s : State) (i : Issue), Passes s i true [.srcLost a] true →
    ∃ t g', exec (.vtop g a) s = .next t ∧ Completes s t i (i.view.withPreds ((fun (l : Nat) =>
      if inMask (i.effect g) l then (i.src a l).extractLsb' 1 15 ++ (i.grp.lane l).preds.extractLsb' 0 1 else (i.grp.lane l).preds))) g'))

/-! ### Lane operations -/


/-- R127, R128, R129: votes and shuffles read A in every executing lane, whatever the guard, and write D where they take effect; a
source lane that does not execute leaves a lane its own A. A shuffle's constant below the group width is the form's condition. R130, R131: the integer reductions combine A of the executing lanes; the floating-point reductions are the root of the fixed
tree over the lanes, and the scans combine its nodes over the positions up to the lane. -/
def Obligations.LaneExchanges : Prop :=
  ((∀ op ∈ voteOps, ∀ (g : Guard) (d a : RegField) (s : State) (i : Issue), Passes s i true [.dstMem d 1, .srcLost a] true →
    ∃ t g', exec (op.1 g d a) s = .next t ∧ Completes s t i (i.view.withRegs (i.written (i.effect g) d.toNat 1 (fun _ => [op.2 i (fun j => i.src a j)]))) g') ∧
  (∀ (g : Guard) (d a : RegField) (s : State) (i : Issue),
    Passes s i true [.dstMem d (if i.width = 64 then 2 else 1), .srcLost a] true →
    ∃ t g', ∃ m : BitVec 64, exec (.vbal g d a) s = .next t ∧
      (∀ l, l < 64 → m.getLsbD l = decide (l ∈ executing i ∧ i.src a l ≠ 0)) ∧
      Completes s t i (i.view.withRegs (i.written (i.effect g) d.toNat (if i.width = 64 then 2 else 1)
        (fun _ => if i.width = 64 then [m.extractLsb' 0 32, m.extractLsb' 32 32] else [m.extractLsb' 0 32]))) g') ∧
  (∀ (g : Guard) (d a : RegField) (s : State) (i : Issue), Passes s i true [.rw d 1, .srcLost a] true →
    ∃ t g', exec (.shflIdx g d a) s = .next t ∧ Completes s t i (i.view.withRegs (i.written (i.effect g) d.toNat 1
      (fun l => [shuffleFrom i (fun j => i.src a j) l (((i.regAt d 0 l).toNat % i.width : Nat) : Int)]))) g') ∧
  (∀ op ∈ shuffleOps, ∀ (g : Guard) (d a : RegField) (k : BitVec 5) (s : State) (i : Issue), k.toNat < i.width →
    Passes s i true [.dstMem d 1, .srcLost a] true →
    ∃ t g', exec (op.1 g d a k) s = .next t ∧ Completes s t i (i.view.withRegs (i.written (i.effect g) d.toNat 1
      (fun l => [shuffleFrom i (fun j => i.src a j) l (op.2 l k.toNat)]))) g')) ∧
  ((∀ op ∈ intReduce, ∀ (g : Guard) (d a : RegField) (s : State) (i : Issue) (k : Nat), i.width = 2 ^ k → k ≤ 6 →
    Passes s i true [.dstMem d 1, .srcLost a] true →
    ∃ t g', exec (op.1 g d a) s = .next t ∧ Completes s t i (i.view.withRegs (i.written (i.effect g) d.toNat 1 (fun _ =>
      [((executing i).foldl (fun acc l => combine op.2 acc (some (i.src a l))) none).getD 0]))) g') ∧
  (∀ op ∈ floatReduce, ∀ (g : Guard) (d a : RegField) (s : State) (i : Issue) (k : Nat), i.width = 2 ^ k → k ≤ 6 →
    Passes s i true [.dstMem d 1, .srcLost a] true →
    ∃ t g', exec (op.1 g d a) s = .next t ∧ Completes s t i (i.view.withRegs (i.written (i.effect g) d.toNat 1 (fun _ =>
      [(treeNode (op.2 (RMode.ofBits i.grp.rm)) (leafOf i (fun j => i.src a j)) k 0).getD 0]))) g') ∧
  (∀ op ∈ scanOps, ∀ (g : Guard) (d a : RegField) (s : State) (i : Issue) (k : Nat), i.width = 2 ^ k → k ≤ 6 →
    Passes s i true [.dstMem d 1, .srcLost a] true →
    ∃ t g', ∃ v : Nat → Word, exec (op.1 g d a) s = .next t ∧
      (∀ l, l < i.width → v l = (scanFrom (op.2.1 (RMode.ofBits i.grp.rm)) (leafOf i (fun j => i.src a j)) 7 0
        (if op.2.2 then l + 1 else l) none).getD 0) ∧
      Completes s t i (i.view.withRegs (i.written (i.effect g) d.toNat 1 (fun l => [v l]))) g'))

/-! ### Memory instructions -/

namespace Sys2Proof.Claims

open Sys2Proof.Machine
open Host (Outcome Cell)

/-- R137: the bytes of a SIZE code. -/
def szBytes (z : BitVec 3) : Nat := [1, 1, 2, 2, 4, 8, 16].getD z.toNat 0

/-- R137: the registers of a SIZE code. -/
def szRegs (z : BitVec 3) : Nat := max 1 (szBytes z / 4)

/-- R144: the index of a lane of GATH and SCAT, of 8 × 2^w bits, extended as the word says. -/
def indexValue (i : Issue) (a : RegField) (w : BitVec 2) (sgn : Bool) (l : Nat) : Int :=
  let bits := 8 * 2 ^ w.toNat
  let u : Nat := (i.pair a l).toNat % 2 ^ bits
  if sgn = true ∧ 2 ^ (bits - 1) ≤ u then Int.ofNat u - Int.ofNat (2 ^ bits) else Int.ofNat u

/-- R144: the lanes of GATH and SCAT with their addresses: the base after the index, plus the index times the element size. -/
def indexedVas (i : Issue) (g : Guard) (a : RegField) (w : BitVec 2) (sgn : Bool) (e : BitVec 2) : List (Nat × Dword) :=
  let n := if w = 3 then 2 else 1
  (i.taking g).map (fun l => (l, (i.regAt a (n + 1) l ++ i.regAt a n l) + BitVec.ofInt 64 (indexValue i a w sgn l * 2 ^ e.toNat)))

/-- The bytes that the registers from D store in a lane, lowest first (R4, R137). -/
def storedBytes (i : Issue) (d : RegField) (n l : Nat) : List Byte :=
  (List.range n).map (fun k => (i.regAt d (k / 4) l).extractLsb' (8 * (k % 4)) 8)

/-- The words that `n` bytes load: one or two bytes extended, longer data as it stands (R137). -/
def loadedWords (signed : Bool) (n : Nat) (m : Nat → Byte) : List Word :=
  if n = 1 then [if signed then (m 0).signExtend 32 else (m 0).setWidth 32] else
  if n = 2 then [if signed then (m 1 ++ m 0).signExtend 32 else (m 1 ++ m 0).setWidth 32] else
  (List.range (n / 4)).map (fun k => m (4 * k + 3) ++ m (4 * k + 2) ++ m (4 * k + 1) ++ m (4 * k))

/-- An outcome begins a load of some lanes: its access is outstanding with its addresses translated, its counter has gone up, its
registers are still to be written, and the group goes on (R138, R141). -/
def BeginsLoad (s : State) (i : Issue) (o : Outcome State Fault Refusal) (xs : List (Nat × Dword)) (kind : AccKind) (ctr : Option Nat)
    (d : RegField) (regs n : Nat) (signed : Bool) : Prop :=
  ∃ t g' a, o = .next t ∧ Begun s i a ctr d.toNat regs n ∧ a.kind = (if xs.isEmpty then .done 0 else kind) ∧ a.signed = signed ∧ a.got = [] ∧
    a.lanes.map (fun x => (x.lane, BitVec.ofNat 64 x.va)) = xs ∧
    (∀ x ∈ a.lanes, s.translate i.team.ctx (BitVec.ofNat 64 x.va) .read = .ok x.loc) ∧
    Acts (s.withAccess a) t i (i.grp.bump ctr) i.view g'

/-- An outcome of a read with a lane at another part, over a state `s1`: its access is outstanding with nothing asked yet, and its group waits for the
answers of the homes, which may refuse it, before the issue goes on (R271, R370; log 17). -/
def AsksAway (s1 : State) (i : Issue) (o : Outcome State Fault Refusal) (xs : List (Nat × Dword)) (u : Use) (kind : AccKind) (dst regs n : Nat)
    (signed : Bool) (data : Nat → List Byte) : Prop :=
  ∃ a, Begun s1 i a none dst regs n ∧ a.kind = kind ∧ a.signed = signed ∧ a.got = [] ∧ a.lanes.map (fun x => (x.lane, BitVec.ofNat 64 x.va)) = xs ∧
    (∀ x ∈ a.lanes, x.data = data x.lane ∧ x.loc = i.locOf s1 (BitVec.ofNat 64 x.va) u) ∧
    o = .next (((s1.withAccess a).onGroup i.cur.team i.cur.grp (fun g => { g with wait := .reply i.cur.exec })).onGroup i.cur.team i.cur.grp
      (fun g => { g with stall := 15 }))

/-- An outcome of a load whose checks pass: it begins, or with a lane at another part asks there (R138, R271). -/
def Loads (s : State) (i : Issue) (o : Outcome State Fault Refusal) (xs : List (Nat × Dword)) (kind : AccKind) (ctr : Option Nat)
    (d : RegField) (regs n : Nat) (signed : Bool) : Prop :=
  (Near s i xs .read → Reachable s i xs n .read → BeginsLoad s i o xs kind ctr d regs n signed) ∧
  (¬ Near s i xs .read → Mapped s i xs n .read → AsksAway s i o xs .read kind d.toNat regs n signed (fun _ => []))

/-- An outcome begins a store or atomic of some lanes over a state `s1`, with its data (R139, R149). -/
def BeginsStore (s1 : State) (i : Issue) (o : Outcome State Fault Refusal) (xs : List (Nat × Dword)) (u : Use) (kind : AccKind)
    (ctr : Option Nat) (dst regs n : Nat) (data : Nat → List Byte) : Prop :=
  ∃ t g' a, o = .next t ∧ Begun s1 i a ctr dst regs n ∧ a.kind = kind ∧ a.got = [] ∧
    a.lanes.map (fun x => (x.lane, BitVec.ofNat 64 x.va)) = xs ∧
    (∀ x ∈ a.lanes, x.data = data x.lane ∧ x.loc = i.locOf s1 (BitVec.ofNat 64 x.va) u) ∧
    Acts (s1.withAccess a) t i (i.grp.bump ctr) i.view g'

/-- An outcome of a release or atomic over a state `s1`: it begins, or as an atomic with a lane at another part asks there (R149, R271). -/
def Stores (s1 : State) (i : Issue) (o : Outcome State Fault Refusal) (xs : List (Nat × Dword)) (u : Use) (kind : AccKind) (dst regs n : Nat)
    (data : Nat → List Byte) : Prop :=
  ((u = .write ∨ Near s1 i xs u) → BeginsStore s1 i o xs u kind none dst regs n data) ∧
  (u = .atomic → ¬ Near s1 i xs u → AsksAway s1 i o xs u kind dst regs n false data)

/-- The state in which a store's lines count on its team's hold quota, and a core-local release is noted (R142, R245). -/
def charged (s : State) (i : Issue) (q : List Nat) (released : Bool) : State :=
  s.onTeam i.cur.team (fun t => { t with quota := q, released := t.released || released })

/-- `s1` is `s` once the lines of a store to some lanes have been counted on the team's hold quota: a committed team counts nothing; in a
deterministic launch a held copy may have been displaced to make a way, and stays held (R142, R294). -/
def CountsLines (s s1 : State) (i : Issue) (xs : List (Nat × Dword)) (u : Use) (released : Bool) : Prop :=
  ∃ q, (∀ k, k ∈ q ↔ k ∈ i.team.quota ∨ (i.team.committed = false ∧ ∃ x ∈ xs, k = s.quotaLine i.team.ctx (i.locOf s x.2 u))) ∧
    { s1 with held := s.held } = charged s i q released ∧ (i.image.det = false → s1.held = s.held) ∧
    s1.held.map (fun h => { h with place := .way }) = s.held.map (fun h => { h with place := .way })

/-- The team has committed, or the store fits its hold quota (R142). -/
def Fits (s : State) (i : Issue) (xs : List (Nat × Dword)) (u : Use) : Prop :=
  i.team.committed = true ∨ i.quota s (xs.map (fun x => i.locOf s x.2 u)) = .ok

/-- R148: what a 32-bit atomic leaves; the old value where a compare fails. -/
def atomic32 (o : Nat) (old v w : Word) : Word :=
  match o with
  | 0 => v | 1 => old + v | 2 => old &&& v | 3 => old ||| v | 4 => old ^^^ v
  | 5 => if old.sle v then old else v
  | 6 => if old.sle v then v else old
  | 7 => if old.ule v then old else v
  | 8 => if old.ule v then v else old
  | 9 => if old = w then v else old
  | _ => f32Of (fun rm x y => Val.add rm x y) .rne old v

/-- R148: what a 64-bit atomic leaves. -/
def atomic64 (o : Nat) (old v w : Dword) : Dword := if o = 0xB then v else if o = 0xC then old + v else if old = w then v else old

/-- R148: the bytes of an atomic operation. -/
def atomicBytes (o : Nat) : Nat := if 0xB ≤ o then 8 else 4

/-- R148: the registers of its operand block. -/
def atomicRegs (o : Nat) : Nat := if o = 0xD then 4 else if 0xB ≤ o then 3 else 2

/-- Byte `k` of what an atomic leaves, from the old bytes and the block's words (R148). -/
def atomicByte (o : Nat) (old : Nat → Byte) (block : Nat → Word) (k : Nat) : Byte :=
  if 0xB ≤ o then
    (atomic64 o (old 7 ++ old 6 ++ old 5 ++ old 4 ++ old 3 ++ old 2 ++ old 1 ++ old 0) (block 1 ++ block 0) (block 3 ++ block 2)).extractLsb' (8 * k) 8
  else (atomic32 o (old 3 ++ old 2 ++ old 1 ++ old 0) (block 0) (block 1)).extractLsb' (8 * k) 8

/-- The words an atomic that is performed writes to its block: the old value, status 0, and 0 to D + 3 of the widest (R149). -/
def atomicWords (o : Nat) (old : Nat → Byte) : List Word :=
  loadedWords false (atomicBytes o) old ++ [0] ++ (if o = 0xD then [0] else [])

/-- R149: the steps of an atomic's lanes in order over bytes: what is left, and what each lane's block gets. -/
def atomicRun (o : Nat) (block : Nat → Nat → Word) : List (Nat × Nat) → (Nat → Byte) → (Nat → Byte) × List (Nat × List Word)
  | [], m => (m, [])
  | (l, at_) :: xs, m =>
    let old := fun k => m (at_ + k)
    let r := atomicRun o block xs (fun b => if at_ ≤ b ∧ b < at_ + atomicBytes o then atomicByte o old (block l) (b - at_) else m b)
    (r.1, (l, atomicWords o old) :: r.2)

/-- The byte that the last of some stored byte strings gives an address. -/
def lastStored (xs : List (Nat × List Byte)) (a : Nat) : Option Byte :=
  xs.reverse.findSome? (fun x => if x.1 ≤ a then x.2[a - x.1]? else none)

/-- R135: what an outcome is when a lane's address fails a row, the lowest such lane giving sr.tval, and each row before the next. -/
structure GlobalRows (s : State) (i : Issue) (o : Outcome State Fault Refusal) (xs : List (Nat × Dword)) (n : Nat) (u : Use) : Prop where
  row1 : ∀ p l va q, xs = p ++ (l, va) :: q → (∀ x ∈ p, x.2.toNat % n = 0) → va.toNat % n ≠ 0 → o = .next (i.traps s ⟨0x03, 0, va⟩)
  row6 : (∀ x ∈ xs, x.2.toNat % n = 0) → ∀ p l va q, xs = p ++ (l, va) :: q →
    (∀ x ∈ p, s.translate i.team.ctx x.2 u ≠ .fault) → (∀ x ∈ p, s.translate i.team.ctx x.2 u ≠ .replay) →
    s.translate i.team.ctx va u = .fault → o = .next (i.traps s ⟨0x04, if u = .read then 0 else 1, va⟩)
  row7 : (∀ x ∈ xs, x.2.toNat % n = 0 ∧ s.translate i.team.ctx x.2 u ≠ .fault) → i.grp.refused = [] →
    (∃ x ∈ xs, s.translate i.team.ctx x.2 u = .replay) → ∃ t ps, o = .next t ∧
      t.group? i.cur.team i.cur.grp = some { i.grp with stall := 12, parked := ps } ∧
      (∀ p, p ∈ ps ↔ ∃ x ∈ xs, s.translate i.team.ctx x.2 u = .replay ∧ p = x.2.toNat / 65536 * 65536) ∧
      (∀ p ∈ ps, ∃ r ∈ t.faultq, r.ctx = i.team.ctx ∧ r.page = p) ∧ (∀ r ∈ s.faultq, r ∈ t.faultq) ∧
      { t with teams := s.teams, faultq := s.faultq, out := s.out } = s
  row8 : (∀ x ∈ xs, x.2.toNat % n = 0 ∧ s.translate i.team.ctx x.2 u ≠ .fault ∧ s.translate i.team.ctx x.2 u ≠ .replay) →
    ∀ p l va q, xs = p ++ (l, va) :: q → (∀ x ∈ p, s.translate i.team.ctx x.2 u ≠ .deny) →
    s.translate i.team.ctx va u = .deny → o = .next (i.traps s ⟨0x05, 0x04, va⟩)

/-- R135, R208: rows 1, 2, 4 and 5 for scratchpad accesses, and the lapse that met the group while it waited. -/
structure ScratchRows (s : State) (i : Issue) (o : Outcome State Fault Refusal) (xs : List (Nat × Nat)) (n : Nat) : Prop where
  row1 : ∀ p l a q, xs = p ++ (l, a) :: q → (∀ x ∈ p, x.2 % n = 0) → a % n ≠ 0 → o = .next (i.traps s ⟨0x03, 0, BitVec.ofNat 64 a⟩)
  row2 : (∀ x ∈ xs, x.2 % n = 0) → ∀ p l a q, xs = p ++ (l, a) :: q → (∀ x ∈ p, x.2 + n ≤ i.image.scratch) → i.image.scratch < a + n →
    o = .next (i.traps s ⟨0x05, 0x03, BitVec.ofNat 64 a⟩)
  row4 : (∀ x ∈ xs, x.2 % n = 0 ∧ x.2 + n ≤ i.image.scratch) → (∀ c, i.grp.lapse = some c → c.2.2.2 ≠ i.cur.exec) → ∀ p l a q, xs = p ++ (l, a) :: q →
    (∀ x ∈ p, ∀ k ∈ linesOf x.2 n, i.team.isUnfilled k = false) → (∃ k ∈ linesOf a n, i.team.isUnfilled k = true) →
    o = .next (i.traps s ⟨0x06, 0, BitVec.ofNat 64 a⟩)
  lapsed : (∀ x ∈ xs, x.2 % n = 0 ∧ x.2 + n ≤ i.image.scratch) → xs ≠ [] → ∀ c d v, i.grp.lapse = some (c, d, v, i.cur.exec) → o = .next (i.traps s ⟨c, d, v⟩)
  row5 : (∀ c, i.grp.lapse = some c → c.2.2.2 ≠ i.cur.exec) → (∀ x ∈ xs, x.2 % n = 0 ∧ x.2 + n ≤ i.image.scratch ∧ ∀ k ∈ linesOf x.2 n, i.team.isUnfilled k = false) →
    (∃ x ∈ xs, ∃ k ∈ linesOf x.2 n, i.team.isPending k = true) → ∃ ks, (∀ k ∈ ks, i.team.isPending k = true) ∧ ks ≠ [] ∧
      o = .next ((s.onGroup i.cur.team i.cur.grp (fun g => { g with lineWait := ks })).onGroup i.cur.team i.cur.grp (fun g => { g with stall := 4 }))

end Sys2Proof.Claims

/-- R133, R137, R138, R144, R145, R146: LD, GATH and LDA, when their checks pass, begin a load: no byte changes, LD and GATH count it
on their counter, LDA is an acquire at its scope, and the registers are written when it completes (AccessesComplete). With a lane at another part, whose home
may refuse it, the group first waits for the answers (the model's reading, log 17). -/
def Obligations.GlobalLoads : Prop :=
  ∀ (s : State) (i : Issue) (g : Guard) (d a : RegField),
  (∀ (h c : BitVec 2) (z : BitVec 3), Passes s i (ldSizeOk z) [.dstMem d (szRegs z), .srcNoLatch a 2] true →
    Unordered s i (i.pairAddrs g a) (some c.toNat) →
    Loads s i (exec (.ld g d a h c z) s) (i.pairAddrs g a) .load (some c.toNat) d (szRegs z) (szBytes z) (decide (z = 1 ∨ z = 3))) ∧
  (∀ (w : BitVec 2) (x : Bool) (e c : BitVec 2),
    Passes s i true [.dstMem d (if e = 3 then 2 else 1), .srcNoLatch a (if w = 3 then 4 else 3)] true →
    Unordered s i (indexedVas i g a w x e) (some c.toNat) →
    Loads s i (exec (.gath g d a w x e c) s) (indexedVas i g a w x e) .load (some c.toNat) d (if e = 3 then 2 else 1) (2 ^ e.toNat) false) ∧
  (∀ (z : BitVec 2) (sc : BitVec 3), Passes s i true [.dstMem d (if z = 3 then 2 else 1), .srcNoLatch a 2] (scopeValid sc) →
    (i.image.det = true → sc.toNat ≤ 2) → Unordered s i (i.pairAddrs g a) none →
    Loads s i (exec (.lda g d a z sc) s) (i.pairAddrs g a) (.acquire sc.toNat) none d (if z = 3 then 2 else 1) (2 ^ z.toNat) false)

/-- R139, R142, R144: ST and SCAT, when their checks pass, begin a store of the registers from D: a team that has not committed counts
the lines on its hold quota; beyond it the team commits first, unless its image says strict-relaunch (AccessRows). -/
def Obligations.GlobalStores : Prop :=
  ∀ (s : State) (i : Issue) (g : Guard) (d a : RegField) (c : BitVec 2) (ins : Instr) (xs : List (Nat × Dword)) (n : Nat),
  ((∃ h z, ins = .st g d a h c z ∧ xs = i.pairAddrs g a ∧ n = szBytes z ∧
      Passes s i (stSizeOk z && stHintOk h) [.rw d (szRegs z), .srcNoLatch a 2] true) ∨
   (∃ w x e, ins = .scat g d a w x e c ∧ xs = indexedVas i g a w x e ∧ n = 2 ^ e.toNat ∧
      Passes s i true [.rw d (if e = 3 then 2 else 1), .srcNoLatch a (if w = 3 then 4 else 3)] true)) →
  Reachable s i xs n .write → Unordered s i xs (some c.toNat) → i.grp.frel = none →
  (Fits s i xs .write → ∃ s1, CountsLines s s1 i xs .write false ∧ BeginsStore s1 i (exec ins s) xs .write
    (if xs.isEmpty then .done 1 else .store) (some c.toNat) 0 0 n (storedBytes i d n)) ∧
  (xs ≠ [] → i.team.committed = false → i.quota s (xs.map (fun x => i.locOf s x.2 .write)) = .commit →
    ∀ s1, s.commit i.cur.team = some s1 → s1.group? i.cur.team i.cur.grp = some i.grp →
    BeginsStore s1 i (exec ins s) xs .write .store (some c.toNat) 0 0 n (storedBytes i d n))

/-- R145, R146, R147, R148, R149: STL and ATOM, when nothing is left that their release waits for, begin: at a scope up to 2, or in a
committed team, over the counted lines; at a scope from 3 the team commits first. ATOM's access carries its whole operand block, and with a lane at another
part it asks there first (log 17). -/
def Obligations.ReleasesAndAtomics : Prop :=
  ∀ (s : State) (i : Issue) (g : Guard) (d a : RegField) (sc : BitVec 3) (ins : Instr) (u : Use) (kind : AccKind) (dst regs n bytes : Nat),
  ((∃ z, ins = .stl g d a z sc ∧ u = .write ∧ kind = .release sc.toNat ∧ dst = 0 ∧ regs = 0 ∧ n = 2 ^ z.toNat ∧ bytes = n ∧
      Passes s i true [.rw d (if z = 3 then 2 else 1), .srcNoLatch a 2] (scopeValid sc)) ∨
   (∃ o : BitVec 4, ins = .atom g d a o sc ∧ u = .atomic ∧ kind = .atomic o.toNat sc.toNat ∧ dst = d.toNat ∧ regs = atomicRegs o.toNat ∧
      n = atomicBytes o.toNat ∧ bytes = 4 * regs ∧ Passes s i (atomOpOk o) [.rw d regs, .srcNoLatch a 2] (scopeValid sc))) →
  (i.image.det = true → sc.toNat ≤ 2) →
  (i.pairAddrs g a = [] → BeginsStore s i (exec ins s) [] u (.done (if u = .write then 1 else 2)) none dst regs n (storedBytes i d bytes)) ∧
  (i.pairAddrs g a ≠ [] → Reachable s i (i.pairAddrs g a) n u → Unordered s i (i.pairAddrs g a) none → i.grp.frel = none → Drained s i sc.toNat →
  (Fits s i (i.pairAddrs g a) u → (sc.toNat ≤ 2 ∨ i.team.committed = true) → ∃ s1, CountsLines s s1 i (i.pairAddrs g a) u (decide (sc.toNat ≤ 2)) ∧
    Stores s1 i (exec ins s) (i.pairAddrs g a) u kind dst regs n (storedBytes i d bytes)) ∧
  (3 ≤ sc.toNat → i.team.committed = false → i.image.strict = false →
    ∀ s1, s.commit i.cur.team = some s1 → s1.group? i.cur.team i.cur.grp = some i.grp →
    Stores s1 i (exec ins s) (i.pairAddrs g a) u kind dst regs n (storedBytes i d bytes)))

/-- R133, R138, R139, R143, R149, R270: the scratchpad instructions are performed at issue. LDS takes its bytes, STS leaves the last lane's
bytes where lanes overlap and every other byte as it was, ATOMS performs its lanes in order; an uncorrectable line is an error. -/
def Obligations.ScratchpadAccesses : Prop :=
  ∀ (s : State) (i : Issue) (g : Guard) (d a : RegField), Memory.wf i.team.scratch = true →
  (∀ (c : BitVec 2) (z : BitVec 3), Passes s i (ldSizeOk z) [.dstMem d (szRegs z), .srcNoLatch a 1] true →
    InScratch s i (i.offsets g a) (szBytes z) false → Unordered s i (i.offsets g a) (some c.toNat) → s.acquiring i = false →
    (i.team.badLine (i.offsets g a) (szBytes z) = none → ∃ t g' acc, exec (.lds g d a c z) s = .next t ∧
      Begun s i acc (some c.toNat) d.toNat (szRegs z) (szBytes z) ∧ acc.kind = .done 0 ∧ acc.lanes = [] ∧
      acc.got.map (fun p => (p.1, bytesWords (szRegs z) p.2.1)) = (i.offsets g a).map (fun x =>
        (x.1, loadedWords (decide (z = 1 ∨ z = 3)) (szBytes z) (fun k => Memory.get i.team.scratch (x.2 + k)))) ∧
      Acts (s.withAccess acc) t i (i.grp.bump (some c.toNat)) i.view g') ∧
    (∀ k, i.team.badLine (i.offsets g a) (szBytes z) = some k →
      exec (.lds g d a c z) s = .next (s.deliverE i.cur.team 0 (BitVec.ofNat 64 k)))) ∧
  (∀ (c : BitVec 2) (z : BitVec 3), Passes s i (stSizeOk z) [.rw d (szRegs z), .srcNoLatch a 1] true →
    InScratch s i (i.offsets g a) (szBytes z) true → Unordered s i (i.offsets g a) (some c.toNat) → i.grp.frel = none →
    ∃ t g' acc m bad, exec (.sts g d a c z) s = .next t ∧ acc.kind = .done 1 ∧ acc.lanes = [] ∧ acc.got = [] ∧
      (∀ b, Memory.get m b = (lastStored ((i.offsets g a).map (fun x => (x.2, storedBytes i d (szBytes z) x.1))) b).getD (Memory.get i.team.scratch b)) ∧
      (∀ k, k ∈ bad → k ∈ i.team.bad) ∧
      Begun s i acc (some c.toNat) 0 0 (szBytes z) ∧
      Acts ((s.onTeam i.cur.team (fun tm => { tm with scratch := m, bad := bad })).withAccess acc) t i (i.grp.bump (some c.toNat)) i.view g') ∧
  (∀ (o : BitVec 4) (sc : BitVec 3), Passes s i (atomOpOk o) [.rw d (atomicRegs o.toNat), .srcNoLatch a 1] (decide (sc.toNat ≤ 2)) →
    InScratch s i (i.offsets g a) (atomicBytes o.toNat) true → Unordered s i (i.offsets g a) none → i.grp.frel = none → Drained s i sc.toNat →
    i.team.badLine (i.offsets g a) (atomicBytes o.toNat) = none →
    ∃ t g' acc m, exec (.atoms g d a o sc) s = .next t ∧ acc.kind = .done 2 ∧ acc.lanes = [] ∧
      (let r := atomicRun o.toNat (fun l k => i.regAt d k l) (i.offsets g a) (Memory.get i.team.scratch)
       (∀ b, Memory.get m b = r.1 b) ∧ acc.got.map (fun p => (p.1, bytesWords (atomicRegs o.toNat) p.2.1)) = r.2) ∧
      Begun s i acc none d.toNat (atomicRegs o.toNat) (atomicBytes o.toNat) ∧
      Acts ((s.onTeam i.cur.team (fun tm => { tm with scratch := m, released := tm.released || !(i.offsets g a).isEmpty })).withAccess acc) t i i.grp i.view g')


/-- R135, R142, R274: the rows of the fault table for global accesses, each for the lowest lane that fails it, and HOLD_QUOTA for a
strict-relaunch team: an access that the host can supply parks its group on its pages. R135: the rows of the fault table for scratchpad accesses; a wait for a pending line holds the group with stall reason 4. -/
def Obligations.AccessRows : Prop :=
  (∀ (s : State) (i : Issue) (g : Guard) (d a : RegField), i.image.det = false →
  (∀ (h c : BitVec 2) (z : BitVec 3), Passes s i (ldSizeOk z) [.dstMem d (szRegs z), .srcNoLatch a 2] true →
    GlobalRows s i (exec (.ld g d a h c z) s) (i.pairAddrs g a) (szBytes z) .read) ∧
  (∀ (h c : BitVec 2) (z : BitVec 3), Passes s i (stSizeOk z && stHintOk h) [.rw d (szRegs z), .srcNoLatch a 2] true →
    GlobalRows s i (exec (.st g d a h c z) s) (i.pairAddrs g a) (szBytes z) .write ∧
    (Reachable s i (i.pairAddrs g a) (szBytes z) .write → ∀ det p l va q, i.pairAddrs g a = p ++ (l, va) :: q →
      i.quota s ((i.pairAddrs g a).map (fun x => i.locOf s x.2 .write)) = .trap p.length det →
      exec (.st g d a h c z) s = .next (i.traps s ⟨0x13, det, va⟩))) ∧
  (∀ (z : BitVec 2) (sc : BitVec 3), Passes s i true [.dstMem d (if z = 3 then 2 else 1), .srcNoLatch a 2] (scopeValid sc) →
    GlobalRows s i (exec (.lda g d a z sc) s) (i.pairAddrs g a) (2 ^ z.toNat) .read) ∧
  (∀ (z : BitVec 2) (sc : BitVec 3), Passes s i true [.rw d (if z = 3 then 2 else 1), .srcNoLatch a 2] (scopeValid sc) →
    GlobalRows s i (exec (.stl g d a z sc) s) (i.pairAddrs g a) (2 ^ z.toNat) .write) ∧
  (∀ (w : BitVec 2) (x : Bool) (e c : BitVec 2),
    (Passes s i true [.dstMem d (if e = 3 then 2 else 1), .srcNoLatch a (if w = 3 then 4 else 3)] true →
      GlobalRows s i (exec (.gath g d a w x e c) s) (indexedVas i g a w x e) (2 ^ e.toNat) .read) ∧
    (Passes s i true [.rw d (if e = 3 then 2 else 1), .srcNoLatch a (if w = 3 then 4 else 3)] true →
      GlobalRows s i (exec (.scat g d a w x e c) s) (indexedVas i g a w x e) (2 ^ e.toNat) .write)) ∧
  (∀ (o : BitVec 4) (sc : BitVec 3), Passes s i (atomOpOk o) [.rw d (atomicRegs o.toNat), .srcNoLatch a 2] (scopeValid sc) →
    GlobalRows s i (exec (.atom g d a o sc) s) (i.pairAddrs g a) (atomicBytes o.toNat) .atomic)) ∧
  (∀ (s : State) (i : Issue) (g : Guard) (d a : RegField),
  (∀ (c : BitVec 2) (z : BitVec 3), Passes s i (ldSizeOk z) [.dstMem d (szRegs z), .srcNoLatch a 1] true →
    ScratchRows s i (exec (.lds g d a c z) s) (i.offsets g a) (szBytes z)) ∧
  (∀ (c : BitVec 2) (z : BitVec 3), Passes s i (stSizeOk z) [.rw d (szRegs z), .srcNoLatch a 1] true →
    ScratchRows s i (exec (.sts g d a c z) s) (i.offsets g a) (szBytes z)) ∧
  (∀ (o : BitVec 4) (sc : BitVec 3), Passes s i (atomOpOk o) [.rw d (atomicRegs o.toNat), .srcNoLatch a 1] (decide (sc.toNat ≤ 2)) →
    ScratchRows s i (exec (.atoms g d a o sc) s) (i.offsets g a) (atomicBytes o.toNat)))


/-- R146, R147, R150, R151, R155, R244: FENCE completes when nothing it orders is left, and waits while an access of its group is outstanding;
FENCE.ACQ waits for loads and atomics alone; FENCE.REL notes what is outstanding and completes; WAITC leaves its group waiting for
its counter; PREF changes no value. At a scope up to 2 a release is noted, from 3 on a committed team has nothing to commit. R152: AWAIT, when its checks pass, watches each lane's word with the value of D: its group waits, and nothing else changes; with no
lane it completes. It completes in WaitsAndWorkComplete. -/
def Obligations.WaitsFencesAndAwait : Prop :=
  (∀ (s : State) (i : Issue) (g : Guard),
  (∀ sc : BitVec 3, Passes s i true [] (scopeValid sc) → (i.image.det = true → sc.toNat ≤ 2) → i.effect g ≠ 0 →
    (i.grp.frel = none → Drained s i sc.toNat → (sc.toNat ≤ 2 ∨ i.team.committed = true) →
      ∃ t g', exec (.fence g sc) s = .next t ∧
        Acts (s.onTeam i.cur.team (fun tm => { tm with released := tm.released || decide (sc.toNat ≤ 2) })) t i i.grp i.view g') ∧
    (i.grp.frel = none → s.outstanding i.cur.team i.cur.grp = true → (sc.toNat ≤ 2 ∨ i.team.committed = true) →
      exec (.fence g sc) s = .next (i.stalls s 6)) ∧
    (i.grp.frel = none → (sc.toNat ≤ 2 ∨ i.team.committed = true) → ∃ t g' ids, exec (.fenceRel g sc) s = .next t ∧
      (∀ k, k ∈ ids ↔ ∃ a ∈ s.accesses, a.team = i.cur.team ∧ a.grp = i.cur.grp ∧ a.id = k) ∧
      Acts (s.onTeam i.cur.team (fun tm => { tm with released := tm.released || decide (sc.toNat ≤ 2) })) t i
        { i.grp with frel := some (sc.toNat, ids) } i.view g') ∧
    ((∀ a ∈ s.accesses, a.team = i.cur.team → a.grp = i.cur.grp → a.kind = .store ∨ a.kind = .done 1 ∨ ∃ c, a.kind = .release c) →
      ∃ t g', exec (.fenceAcq g sc) s = .next t ∧ Completes s t i i.view g') ∧
    ((∃ a ∈ s.accesses, a.team = i.cur.team ∧ a.grp = i.cur.grp ∧ (a.kind = .load ∨ a.kind = .done 0 ∨ ∃ c, a.kind = .acquire c)) →
      exec (.fenceAcq g sc) s = .next (i.stalls s 6))) ∧
  (∀ (k : BitVec 6) (c : BitVec 2), Passes s i true [] true → i.effect g ≠ 0 → s.claimed i.cur.team i.cur.grp = false →
    ∃ t g', exec (.waitc g k c) s = .next t ∧ Completes s t i i.view g' ∧ g'.wait = .counter c.toNat k.toNat) ∧
  (Passes s i true [] true → i.effect g = 0 → ∀ ins ∈ [Instr.fence g 0, .fenceAcq g 0, .fenceRel g 0, .waitc g 0 0, .brk g, .trap g 0],
    ∃ t g', exec ins s = .next t ∧ Completes s t i i.view g') ∧
  (∀ (a : RegField) (h : BitVec 2), Passes s i true [.srcNoLatch a 2] true →
    ∃ t g', exec (.pref g a h) s = .next t ∧ Completes s t i i.view g')) ∧
  (∀ (s : State) (i : Issue) (g : Guard) (d a : RegField) (sc : BitVec 3), Passes s i true [.rw d 1, .srcNoLatch a 2] (scopeValid sc) →
  (i.image.det = true → sc.toNat ≤ 2) →
  (i.pairAddrs g a = [] → ∃ t g', exec (.await g d a sc) s = .next t ∧ Completes s t i i.view g') ∧
  (i.pairAddrs g a ≠ [] → Reachable s i (i.pairAddrs g a) 4 .read → Unordered s i (i.pairAddrs g a) none → ∃ acc t,
    exec (.await g d a sc) s = .next t ∧ acc.id = s.nextId ∧ acc.team = i.cur.team ∧ acc.grp = i.cur.grp ∧ acc.kind = .await sc.toNat ∧
    acc.dstN = 0 ∧ acc.size = 4 ∧ acc.lanes.map (fun x => (x.lane, BitVec.ofNat 64 x.va)) = i.pairAddrs g a ∧
    (∀ x ∈ acc.lanes, s.translate i.team.ctx (BitVec.ofNat 64 x.va) .read = .ok x.loc ∧ x.data = storedBytes i d 4 x.lane) ∧
    { t with teams := s.teams } = s.withAccess acc ∧
    t.group? i.cur.team i.cur.grp = some { i.grp with wait := .await i.cur.exec, stall := 6 }))

/-- R153, R154: SLFIND gives the line of a tag, or all ones; SLSET installs its lanes' entries in order, each removing what holds its
line or its tag, unless a set of a core would hold a ninth; SLDROP removes the entries of its lines; PRESQ gives a line's state. The order of SLSET's checks is the model's
(log 94). -/
def Obligations.ShelfList : Prop :=
  ∀ (s : State) (i : Issue) (g : Guard) (d a : RegField),
  (Passes s i true [.dstMem d 1, .srcNoLatch a 2] true → ∃ t g', ∃ v : Nat → Word, exec (.slfind g d a) s = .next t ∧
    Completes s t i (i.view.withRegs (i.written (i.effect g) d.toNat 1 (fun l => [v l]))) g' ∧
    ∀ l, (∀ e ∈ i.team.shelf, e.tag = (i.pair a l).toNat → (∀ f ∈ i.team.shelf, f.tag = e.tag → f = e) → v l = BitVec.ofNat 32 e.line) ∧
      ((∀ e ∈ i.team.shelf, e.tag ≠ (i.pair a l).toNat) → v l = 0xFFFFFFFF)) ∧
  (Passes s i true [.rw d 1, .srcNoLatch a 2] true →
    (∀ l ∈ i.taking g, (i.regAt d 0 l).toNat < i.image.scratch / 256 ∧ (i.pair a l).toNat < 2 ^ 53) → ∃ es : List ShelfEntry,
      (∀ e, e ∈ es ↔ (∃ p l q, i.taking g = p ++ l :: q ∧ e = ⟨(i.pair a l).toNat, (i.regAt d 0 l).toNat⟩ ∧
          ∀ k ∈ q, (i.pair a k).toNat ≠ e.tag ∧ (i.regAt d 0 k).toNat ≠ e.line) ∨
        (e ∈ i.team.shelf ∧ ∀ k ∈ i.taking g, (i.pair a k).toNat ≠ e.tag ∧ (i.regAt d 0 k).toNat ≠ e.line)) ∧
      ((∀ c k, ((es.filter (fun e => i.team.lineCore e.line == c && shelfSet e.tag == k)) ++
          ((s.otherShelf i.team c).filter (fun e => shelfSet e.tag == k))).length ≤ 8) →
        ∃ t g', exec (.slset g d a) s = .next t ∧ Acts (s.onTeam i.cur.team (fun tm => { tm with shelf := es })) t i i.grp i.view g')) ∧
  (Passes s i true [.srcNoLatch a 1] true → (∀ x ∈ i.offsets g a, x.2 < i.image.scratch / 256) → ∃ t g' es, exec (.sldrop g a) s = .next t ∧
    (∀ e, e ∈ es ↔ e ∈ i.team.shelf ∧ ∀ x ∈ i.offsets g a, x.2 ≠ e.line) ∧
    Acts (s.onTeam i.cur.team (fun tm => { tm with shelf := es })) t i i.grp i.view g') ∧
  (Passes s i true [.dstMem d 1, .srcNoLatch a 1] true → (∀ x ∈ i.offsets g a, x.2 < i.image.scratch / 256) → ∃ t g', ∃ v : Nat → Word,
    exec (.presq g d a) s = .next t ∧ Completes s t i (i.view.withRegs (i.written (i.effect g) d.toNat 1 (fun l => [v l]))) g' ∧
    ∀ l, (i.team.absentLine? (i.regAt a 0 l).toNat = none → v l = 1) ∧
      ∀ x, i.team.absentLine? (i.regAt a 0 l).toNat = some x → v l = if x.pending then 2 else 0)

/-! ### Control flow, special registers and traps -/

namespace Sys2Proof.Claims

open Sys2Proof.Machine
open Host (Outcome Cell)

/-- Where the executing lanes of an issue go: `dest` where the instruction takes effect, else the next word (R108, R109). -/
def gone (i : Issue) (eff : LaneMask) (dest : Nat → Word) (l : Nat) : Word := if inMask i.cur.exec l ∧ inMask eff l then dest l else i.view.pc l

/-- R28, R30, R33: special registers by number with what a lane of an issue reads, the registers that RDSR writes lowest first. -/
def srTable : List (BitVec 7 × (State → Issue → Nat → List Word)) :=
  let n := fun (v : Nat) => [(BitVec.ofNat 32 v)]
  let wide := fun (v : Dword) => [v.extractLsb' 0 32, v.extractLsb' 32 32]
  let at_ := fun (i : Issue) (l : Nat) => i.grp.idx * i.image.width + l
  let ctx := fun (s : State) (i : Issue) => (s.ctx? i.team.ctx)
  [(0x00, fun _ _ l => n l), (0x01, fun _ i l => n (at_ i l)), (0x02, fun _ i l => n (at_ i l % i.image.tx)),
   (0x03, fun _ i l => n (at_ i l / i.image.tx % i.image.ty)), (0x04, fun _ i l => n (at_ i l / (i.image.tx * i.image.ty))),
   (0x05, fun _ i _ => n i.grp.idx), (0x06, fun _ i _ => n i.image.width), (0x07, fun _ i _ => n i.team.groups.length),
   (0x08, fun _ i _ => n (i.team.tlin % i.launch.gx)), (0x09, fun _ i _ => n (i.team.tlin / i.launch.gx % i.launch.gy)),
   (0x0A, fun _ i _ => n (i.team.tlin / (i.launch.gx * i.launch.gy))), (0x0B, fun _ i _ => n i.team.tlin),
   (0x0C, fun _ i _ => n i.launch.gx), (0x0D, fun _ i _ => n i.launch.gy), (0x0E, fun _ i _ => n i.launch.gz),
   (0x10, fun _ i _ => [i.launch.id]), (0x11, fun _ i _ => [i.launch.gen]),
   (0x12, fun s i _ => n (s.denseCore (s.sliceOf i.team.ctx) i.grp.core)), (0x13, fun s i _ => n (s.denseCluster (s.sliceOf i.team.ctx) (i.grp.core / 8))),
   (0x14, fun _ i _ => n (i.grp.core / 40)), (0x15, fun _ i _ => n i.grp.slot), (0x16, fun s i _ => n (s.sliceOf i.team.ctx)),
   (0x17, fun _ i _ => n i.team.ctx), (0x18, fun s i _ => wide (if i.image.det then i.grp.ret else i.grp.cyc + s.cyclesOf i.team.ctx)), (0x1A, fun _ i _ => wide i.grp.ret),
   (0x1C, fun _ i _ => [i.grp.rm.setWidth 32]), (0x1D, fun _ i _ => n i.grp.wb), (0x1E, fun _ i _ => [i.cur.pc]),
   (0x20, fun _ i _ => [i.grp.cause]), (0x21, fun _ i _ => [i.grp.tpc]), (0x22, fun _ i _ => wide i.grp.tval), (0x24, fun _ i _ => wide i.grp.frag),
   (0x26, fun _ i _ => [i.grp.parent]), (0x27, fun _ i _ => [i.grp.chpc]), (0x28, fun s _ _ => [getAt s.cap 0 0]), (0x29, fun s _ _ => [getAt s.cap 1 0]),
   (0x2A, fun s _ _ => [getAt s.cap 2 0]), (0x2B, fun s _ _ => [getAt s.cap 3 0]), (0x2C, fun _ i _ => n i.team.hidx),
   (0x30, fun s i _ => [(s.core i.grp.core).smpctl]), (0x32, fun s i _ => wide (s.core i.grp.core).smpbuf),
   (0x34, fun s i _ => [(s.core i.grp.core).smpdrop]), (0x38, fun s i _ => wide (s.coreCtx i.grp.core i.team.ctx).wdog),
   (0x40, fun s i _ => [((ctx s i).map (fun c => getAt c.bp 0 0xFFFFFFFF)).getD 0xFFFFFFFF]),
   (0x47, fun s i _ => [((ctx s i).map (fun c => getAt c.bp 7 0xFFFFFFFF)).getD 0xFFFFFFFF]),
   (0x48, fun s i _ => wide (((ctx s i).map (fun c => getAt c.wp 0 0)).getD 0)), (0x4E, fun s i _ => wide (((ctx s i).map (fun c => getAt c.wp 3 0)).getD 0))]

/-- The records that a trap is taken in (R218): team, group, launch and image. -/
structure Holds (s : State) (team grp : Nat) (t : Team) (g : Group) (l : Launch) (m : Image) : Prop where
  team : s.team? team = some t
  group : t.group? grp = some g
  launch : s.launch? t.launch = some l
  image : s.image? l.image = some m

/-- Numbers that fit the fields of sr.cause (R31). -/
def Trap.Fits (c : Trap) (level : Nat) : Prop := c.cause < 256 ∧ c.detail < 256 ∧ level < 4

/-- What follows an issue that answered `s2` (R21, R23, R38, R152): the issue is over, and where the instruction has gone out, an AWAIT that
still waits among them, the exclusions outside its fragment end and a deterministic group's rotation moves on. -/
def afterIssue (team grp : Nat) (e : LaneMask) (s2 : State) : State :=
  match s2.group? team grp with
  | some g => if g.went then (({ s2 with cur := none } : State).onGroup team grp (fun g => g.clearYx e)).turn team grp else { s2 with cur := none }
  | none => { s2 with cur := none }

end Sys2Proof.Claims

/-- R105, R108, R109: MOVC loads its pool word; BRA and CALL go to the address plus four times the offset, CALL leaving the next address in
v119; BRX and RET go to their register; lanes where they take no effect go to the next word. -/
def Obligations.BranchesAndConstants : Prop :=
  ∀ (s : State) (i : Issue) (g : Guard),
  (∀ o : BitVec 21, Passes s i true [] true → ∃ t g', exec (.bra g o) s = .next t ∧
    Completes s t i (i.view.withPc (gone i (i.effect g) (fun _ => BitVec.ofInt 32 (i.cur.pc.toNat + 4 * o.toInt)))) g') ∧
  (∀ o : BitVec 21, Passes s i true [.v119] true → ∃ t g', exec (.call g o) s = .next t ∧
    Completes s t i ((i.view.withPc (gone i (i.effect g) (fun _ => BitVec.ofInt 32 (i.cur.pc.toNat + 4 * o.toInt)))).withRegs
      (i.written (i.effect g) 119 1 (fun _ => [i.cur.pc + 4]))) g') ∧
  (∀ a : RegField, Passes s i true [.srcNoLatch a 1] true → ∀ ins ∈ [Instr.brx g a, .ret g a],
    ((∀ l ∈ i.taking g, (i.regAt a 0 l).toNat % 4 = 0) → ∃ t g', exec ins s = .next t ∧
      Completes s t i (i.view.withPc (gone i (i.effect g) (fun l => i.regAt a 0 l))) g') ∧
    (∀ p l q, i.taking g = p ++ l :: q → (∀ k ∈ p, (i.regAt a 0 k).toNat % 4 = 0) → (i.regAt a 0 l).toNat % 4 ≠ 0 →
      exec ins s = .next (i.traps s ⟨0x03, 0, (i.regAt a 0 l).setWidth 64⟩))) ∧
  (∀ (d : BitVec 6) (k : BitVec 14), Passes s i true [.dstMem (d.setWidth 7) 1] true →
    (∀ w, i.image.pool[k.toNat]? = some w → ∃ t g', exec (.movc g d k) s = .next t ∧
      Completes s t i (i.view.withRegs (i.written (i.effect g) d.toNat 1 (fun _ => [w]))) g') ∧
    (i.image.pool[k.toNat]? = none → exec (.movc g d k) s = .next (i.traps s ⟨0x05, 0x02, k.setWidth 64⟩)))

/-- R21, R111, R115, R219: EXIT ends its lanes, which leave every mask and the handler set, and with the last live lane owes the group's end;
YIELD excludes its lanes until another fragment issues. -/
def Obligations.ExitAndYield : Prop :=
  ∀ (s : State) (i : Issue) (g : Guard), Passes s i true [] true →
  (∃ t g', exec (.exit g) s = .next t ∧
    Acts (if ∃ l, l < i.width ∧ (i.grp.lane l).exited = false ∧ ¬ inMask (i.effect g) l then s else { s with due := s.due ++ [.groupEnd i.cur.team i.cur.grp] }) t i
      { i.grp with masks := i.grp.masks.map (fun m => m &&& ~~~(i.effect g)), handler := i.grp.handler &&& ~~~(i.effect g),
                   excl := if i.grp.handler &&& ~~~(i.effect g) = 0 then 0 else i.grp.excl }
      { i.view with exited := (fun l => (i.grp.lane l).exited || inMask (i.effect g) l),
                    pc := (fun l => if inMask (i.effect g) l then (i.grp.lane l).pcv else i.view.pc l) } g') ∧
  (∃ t g', exec (.yield g) s = .next t ∧
    Completes s t i { i.view with yx := (fun l => (i.grp.lane l).yx || inMask (i.effect g) l) } g')


/-- R112, R113, R114, R116: JOIN and LEAVE change one mask by the lanes of their effect; a WAITM blocks its lanes at its address until every
live member of the mask waits there; SETWB sets the window base. A mask number from 12 and a base beyond the file are no instruction. R114: the release test lets a waiting lane go exactly when every live member of its mask waits on that mask at the lane's address;
it changes no other lane and nothing else of the group. -/
def Obligations.MasksAndReleases : Prop :=
  (∀ (s : State) (i : Issue) (g : Guard),
  (∀ m : BitVec 7, Passes s i (maskOk m) [] true →
    (∃ t g', exec (.join g m) s = .next t ∧
      Acts s t i { i.grp with masks := setAt i.grp.masks m.toNat (getAt i.grp.masks m.toNat 0 ||| i.effect g) } i.view g') ∧
    (∃ t g', exec (.leave g m) s = .next t ∧
      Acts s t i { i.grp with masks := setAt i.grp.masks m.toNat (getAt i.grp.masks m.toNat 0 &&& ~~~(i.effect g)) } i.view g') ∧
    ((∀ l, (i.grp.lane l).waitm = none) → (∀ l, inMask i.cur.exec l → (i.grp.lane l).pcv = i.cur.pc ∧ (i.grp.lane l).exited = false) →
      ∃ t g', exec (.waitm g m) s = .next t ∧ t.group? i.cur.team i.cur.grp = some g' ∧ i.grp.Keeps g' ∧
        let met := ∀ l, l < i.width → inMask (getAt i.grp.masks m.toNat 0) l → (i.grp.lane l).exited = false → inMask (i.effect g) l
        ∀ l, l < i.width →
          (inMask (i.effect g) l → met → g'.lane l = { i.grp.lane l with pcv := i.cur.pc + 4 }) ∧
          (inMask (i.effect g) l → ¬ met → g'.lane l = { i.grp.lane l with waitm := some m.toNat }) ∧
          (¬ inMask (i.effect g) l → g'.lane l = { i.grp.lane l with pcv := i.view.pc l }))) ∧
  (∀ b : BitVec 7, Passes s i (windowOk b) [] true → ∃ t g', exec (.setwb g b) s = .next t ∧
    Acts s t i { i.grp with wb := if i.effect g = 0 then i.grp.wb else 8 * b.toNat } i.view g')) ∧
  (∀ (g : Group) (l : Nat), l < g.lanes.length → { g.testMasks with lanes := g.lanes } = g ∧ g.testMasks.lanes.length = g.lanes.length ∧
  (∀ n, n < 12 → (g.lane l).waitm = some n → (g.lane l).exited = false →
    (∀ k, k < g.lanes.length → inMask (getAt g.masks n 0) k → (g.lane k).exited = false → (g.lane k).waitm = some n ∧ (g.lane k).pcv = (g.lane l).pcv) →
    g.testMasks.lane l = { g.lane l with waitm := none, pcv := (g.lane l).pcv + 4 }) ∧
  ((∀ n, (g.lane l).waitm = some n → n < 12 → (g.lane l).exited = false → ∃ k, k < g.lanes.length ∧ inMask (getAt g.masks n 0) k ∧
      (g.lane k).exited = false ∧ ((g.lane k).waitm ≠ some n ∨ (g.lane k).pcv ≠ (g.lane l).pcv)) → g.testMasks.lane l = g.lane l))


/-- R28, R30, R33, R223, R350: RDSR of each special register of the table writes what a lane reads, whoever may write that register and unless
EDIT of a twin has given another value; a number outside the table is ILLEGAL_REG, the number in sr.tval. The cycles that sr.cyc of normal mode
counts since the group's last issue are a free value. R28, R31, R32, R34, R223: WRSR writes the value of the lowest lane of its effect: sr.rm at any time, the trap registers from within the handler
set; their reserved bits stay 0. Another register of the table is ACCESS 0x09, and so are the trap registers outside the handler set. -/
def Obligations.SpecialRegisters : Prop :=
  (∀ (s : State) (i : Issue) (g : Guard) (a : RegField),
  (∀ r ∈ srTable, (∀ e ∈ i.grp.edits, e.2.1 ≠ r.1.toNat) → Passes s i true [.dstMem a (srWidth r.1.toNat)] true → ∃ t g', exec (.rdsr g a r.1) s = .next t ∧
    Completes s t i (i.view.withRegs (i.written (i.effect g) a.toNat (srWidth r.1.toNat) (fun l => r.2 s i l))) g') ∧
  (∀ x : BitVec 7, x.toNat ∈ [0x19, 0x1B, 0x23, 0x25, 0x2D, 0x2E, 0x2F, 0x31, 0x33, 0x35, 0x36, 0x37, 0x39, 0x3F, 0x49, 0x4B, 0x4D, 0x4F] ∨ 0x50 ≤ x.toNat →
    Passes s i true [.dstMem a 1] true → exec (.rdsr g a x) s = .next (i.traps s ⟨0x02, 0, x.setWidth 64⟩))) ∧
  (∀ (s : State) (i : Issue) (g : Guard) (a : RegField) (x : BitVec 7), Passes s i true [.srcNoLatch a (srWidth x.toNat)] true →
  (∀ l q, i.taking g = l :: q → (x = 0x1C ∨ i.cur.exec &&& ~~~i.grp.handler = 0) →
    ∀ p ∈ ([(0x1C, fun (h : Group) => { h with rm := (i.regAt a 0 l).extractLsb' 0 2 }),
            (0x20, fun (h : Group) => { h with cause := i.regAt a 0 l &&& 0xF000FFFF }),
            (0x21, fun (h : Group) => { h with tpc := i.regAt a 0 l &&& 0xFFFFFFFC }),
            (0x22, fun (h : Group) => { h with tval := i.pair a l }),
            (0x24, fun (h : Group) => { h with frag := i.pair a l &&& maskOf (fun _ => true) i.width }),
            (0x26, fun (h : Group) => { h with parent := i.regAt a 0 l })] : List (BitVec 7 × (Group → Group))),
      x = p.1 → ∃ t g', exec (.wrsr g a x) s = .next t ∧ Acts s t i (p.2 i.grp) i.view g') ∧
  (i.effect g = 0 → (x = 0x1C ∨ (x.toNat ∈ [0x20, 0x21, 0x22, 0x24, 0x26] ∧ i.cur.exec &&& ~~~i.grp.handler = 0)) →
    ∃ t g', exec (.wrsr g a x) s = .next t ∧ Completes s t i i.view g') ∧
  (x.toNat ∈ [0x20, 0x21, 0x22, 0x24, 0x26] → i.cur.exec &&& ~~~i.grp.handler ≠ 0 → exec (.wrsr g a x) s = .next (i.traps s ⟨0x05, 0x09, x.setWidth 64⟩)) ∧
  (x.toNat < 0x1C ∨ x.toNat ∈ [0x1D, 0x1E, 0x1F, 0x27, 0x28, 0x2C, 0x30, 0x38, 0x40, 0x47, 0x48] → x ≠ 0x19 → x ≠ 0x1B →
    exec (.wrsr g a x) s = .next (i.traps s ⟨0x05, 0x09, x.setWidth 64⟩)))

/-- R222, R224: without twin forking BRK takes BREAK and TRAP takes its number as the detail; with it BRK goes on, claims a twin and its group
waits for the arbiter; SMPSUSP and SMPRES set and clear their group's suspension of sampling. -/
def Obligations.BreaksAndSampling : Prop :=
  ∀ (s : State) (i : Issue) (g : Guard), Passes s i true [] true → i.effect g ≠ 0 →
  ((∀ c, s.ctx? i.team.ctx = some c → c.twinOn = false) → exec (.brk g) s = .next (i.traps s ⟨0x0E, 0, 0⟩)) ∧
  (∀ c, s.ctx? i.team.ctx = some c → c.num = i.team.ctx → c.twinOn = true → ∃ t g', exec (.brk g) s = .next t ∧ g'.wait = .claim ∧
    Acts { s with ctxs := s.ctxs.map (fun x => if x.num = i.team.ctx then
        { x with claims := x.claims ++ [⟨i.cur.team, i.cur.grp, 0, i.cur.pc, s.gid i.team.ctx i.grp, 0⟩] } else x),
                  due := s.due ++ [.twinClaim i.team.ctx] } t i i.grp i.view g') ∧
  (∀ k : BitVec 7, exec (.trap g k) s = .next (i.traps s ⟨0x0F, k.toNat, 0⟩)) ∧
  (∃ t g', exec (.smpsusp g) s = .next t ∧ Acts s t i { i.grp with susp := true } i.view g') ∧
  (∃ t g', exec (.smpres g) s = .next t ∧ Acts s t i { i.grp with susp := false } i.view g')

/-- R219: TRET in the handler set sends its lanes to sr.tpc, or to where an asynchronous trap stood; they leave the handler set, and with
its last lane the exclusion ends. Outside the handler set it is ILLEGAL_OP 0x19. -/
def Obligations.TrapReturn : Prop :=
  ∀ (s : State) (i : Issue) (g : Guard), Passes s i true [] true →
  (i.cur.exec &&& i.grp.handler = 0 → exec (.tret g) s = .next (i.traps s ⟨0x01, 0x19, 0⟩)) ∧
  (i.cur.exec &&& i.grp.handler ≠ 0 → ∃ t g', exec (.tret g) s = .next t ∧ Retires s t i g' ∧ SameBytes s t ∧
    (let m := i.effect g &&& i.grp.handler
     let left := i.grp.handler &&& ~~~m
     { i.grp with handler := left, excl := if left = 0 then 0 else i.grp.excl }.Keeps g' ∧ g'.latches = List.replicate 8 ⟨false, []⟩ ∧
     LanesAre i g' (i.view.withPc (gone i m (fun _ => if i.grp.cause.getLsbD 31 then i.grp.resume else i.grp.tpc &&& 0xFFFFFFFC)))))


/-- R218, R31: taking a trap outside handler mode: the status goes to sr.cause, the address to sr.tpc, sr.tval, sr.frag and the parent are
written, the fragment becomes the handler set at the image's handler, and no latch is valid. R339: where it cuts short a chain with a claim
that is undecided, the group pauses for it. Nothing else changes. R218, R220: while another fragment is in handler mode a fragment that traps is put back to its instruction and excluded until the handler
has ended; a trap within the handler set, of a kernel without a handler or of an undo run ends the launch: its first cause stays, its teams
stop. -/
def Obligations.TrapsAreTaken : Prop :=
  (∀ (s : State) (team grp : Nat) (f : LaneMask) (pc : Word) (async orphan : Bool) (level : Nat) (tpc parent : Option Word) (c : Trap)
    (t : Team) (g : Group) (l : Launch) (m : Image), Holds s team grp t g l m → Trap.Fits c level →
  m.handler ≠ 0xFFFFFFFF → g.handler = 0 → g.undo = false →
  let s' := s.takeTrap team grp f pc async orphan level tpc parent c
  let at_ := match g.chain with | some k => k.head | none => pc
  ∃ g', s'.group? team grp = some g' ∧
    (g'.cause.extractLsb' 0 8).toNat = c.cause ∧ (g'.cause.extractLsb' 8 8).toNat = c.detail ∧ g'.cause.extractLsb' 16 12 = 0 ∧
    (g'.cause.extractLsb' 28 2).toNat = level ∧ g'.cause.getLsbD 30 = orphan ∧ g'.cause.getLsbD 31 = async ∧
    g'.tpc = tpc.getD at_ ∧ g'.tval = c.tval ∧ g'.frag = g.live &&& ~~~f ∧ g'.parent = parent.getD (s.gid t.ctx g) ∧
    (async = true → g'.resume = at_) ∧ g'.handler = f ∧ (∀ x ∈ g'.latches, x.valid = false) ∧ g'.chain = none ∧ g'.lanes.length = g.lanes.length ∧
    (∀ k, k < g.lanes.length → g'.lane k = if inMask f k then { g.lane k with pcv := m.handler } else g.lane k) ∧
    g'.wait = (if g.chain ≠ none ∧ s.claimed team grp = true then .claim else g.wait) ∧
    { g' with lanes := g.lanes, wait := g.wait, cause := g.cause, tpc := g.tpc, tval := g.tval, frag := g.frag, parent := g.parent, resume := g.resume,
              handler := g.handler, chain := g.chain, stall := g.stall, parked := g.parked, refused := g.refused, lineWait := g.lineWait,
              lapse := g.lapse, bpPass := g.bpPass, twinPass := g.twinPass, latches := g.latches } = g ∧
    { s' with teams := s.teams, twins := s.twins } = s ∧ SameBytes s s' ∧
    (∀ u v, (u ≠ team ∨ v ≠ grp) → s'.group? u v = s.group? u v)) ∧
  (∀ (s : State) (team grp : Nat) (f : LaneMask) (pc : Word) (c : Trap) (t : Team) (g : Group) (l : Launch) (m : Image),
  Holds s team grp t g l m →
  let s' := s.takeTrap team grp f pc false false 0 none none c
  let at_ := match g.chain with | some k => k.head | none => pc
  (m.handler ≠ 0xFFFFFFFF → g.handler ≠ 0 → f &&& g.handler = 0 → g.undo = false → ∃ g', s'.group? team grp = some g' ∧
    g'.excl = g.excl ||| f ∧ (∀ x ∈ g'.latches, x.valid = false) ∧
    (∀ k, k < g.lanes.length → g'.lane k = if inMask f k then { g.lane k with pcv := at_ } else g.lane k) ∧
    { g' with lanes := g.lanes, excl := g.excl, latches := g.latches, chain := g.chain, wait := g.wait, stall := g.stall, parked := g.parked,
              refused := g.refused, lineWait := g.lineWait, bpPass := g.bpPass, twinPass := g.twinPass } = g ∧
    g'.wait = (if g.chain ≠ none ∧ s.claimed team grp = true then .claim else g.wait) ∧ { s' with teams := s.teams, twins := s.twins } = s) ∧
  ((m.handler = 0xFFFFFFFF ∨ f &&& g.handler ≠ 0 ∨ g.undo = true) →
    (∀ x ∈ s'.launches, x.uid = t.launch → x.stopped = true ∧ x.fatal.isSome) ∧
    (∀ x ∈ s.launches, x.uid = t.launch → x.fatal = none → ∃ y ∈ s'.launches, y.uid = t.launch ∧
      y.fatal = some ⟨c.cause, c.detail, t.tlin, at_, c.tval⟩) ∧
    (∀ x ∈ s'.teams, x.launch = t.launch → x.killed = true) ∧ s'.mem = s.mem ∧
    (∀ h ∈ s'.held, h ∈ s.held) ∧ (∀ x ∈ s.launches, x.uid ≠ t.launch → x ∈ s'.launches) ∧
    (∀ x ∈ s.teams, x.launch = t.launch → x.ended = false → ∀ k ∈ x.groups, Instr.groupEnd x.uid k.idx ∈ s'.due)))

/-- R217, R218, R271, R307: a pending trap whose lane lies in the fragment about to issue is taken, the lowest cause first, outside a chain and
outside handler mode; the trap is no longer pending. It is asynchronous and comes back to where the fragment stood, but for the precise ACCESS of
a lane's access, which comes back to its instruction (the model's choice of when it is taken: log 17). -/
def Obligations.AsynchronousTraps : Prop :=
  ∀ (s : State) (team grp : Nat) (t : Team) (g : Group) (l : Launch) (m : Image) (ia : Word) (e : LaneMask) (a : AsyncTrap),
  Holds s team grp t g l m → g.fragment = some (ia, e) → g.chain = none → g.handler = 0 → g.undo = false → m.handler ≠ 0xFFFFFFFF →
  a ∈ g.pend → inMask e (a.lane.getD ((lowest g.live g.lanes.length).getD 0)) →
  (∀ b ∈ g.pend, b ≠ a → inMask e (b.lane.getD ((lowest g.live g.lanes.length).getD 0)) → a.cause < b.cause) →
  (s.coreCtx g.core t.ctx).reports = [] → ∃ t' g', exec (.asyncTrapTaken team grp) s = .next t' ∧ t'.group? team grp = some g' ∧
    (g'.cause.extractLsb' 0 8).toNat = a.cause % 256 ∧ g'.cause.getLsbD 31 = !(decide (a.cause = 0x05) && a.lane.isSome) ∧
    g'.cause.getLsbD 30 = a.orphan ∧ g'.tpc = a.tpc.getD ia ∧ g'.tval = a.tval ∧
    g'.resume = (if a.cause = 0x05 ∧ a.lane ≠ none then a.tpc.getD ia else ia) ∧ g'.handler = e ∧
    (∀ b, b ∈ g'.pend ↔ b ∈ g.pend ∧ b.cause ≠ a.cause) ∧
    (∀ k, k < g.lanes.length → (g'.lane k).pcv = if inMask e k then m.handler else (g.lane k).pcv) ∧
    { t' with teams := s.teams, twins := s.twins } = s

/-- R14, R72, R141: an instruction whose register reaches beyond the file takes ILLEGAL_REG with the register's index, before any effect; one
that names a register an earlier load still writes waits. Said of the three-register operations, LD and ST. -/
def Obligations.IssueChecks : Prop :=
  ∀ (s : State) (i : Issue) (g : Guard) (d a b : RegField), s.issue? = some i →
  (∀ op ∈ intOps, d.toNat < 120 → a.toNat < 120 → b.toNat < 120 →
    (i.image.regs ≤ i.grp.wb + d.toNat → exec (op.1 g d a b) s = .next (i.traps s ⟨0x02, 0, BitVec.ofNat 64 (i.grp.wb + d.toNat)⟩)) ∧
    (i.grp.wb + d.toNat < i.image.regs → i.image.regs ≤ i.grp.wb + a.toNat →
      exec (op.1 g d a b) s = .next (i.traps s ⟨0x02, 0, BitVec.ofNat 64 (i.grp.wb + a.toNat)⟩)) ∧
    (i.grp.wb + d.toNat < i.image.regs → i.grp.wb + a.toNat < i.image.regs → i.grp.wb + b.toNat < i.image.regs →
      (∃ x ∈ s.accesses, x.team = i.cur.team ∧ x.grp = i.cur.grp ∧ x.dst ≤ i.grp.wb + a.toNat ∧ i.grp.wb + a.toNat < x.dst + x.dstN) →
      exec (op.1 g d a b) s = .next (i.stalls s 2))) ∧
  (∀ op ∈ intOps, 120 ≤ d.toNat → d.toNat ≠ 127 → exec (op.1 g d a b) s = .next (i.traps s ⟨0x01, 0, 0⟩)) ∧
  (∀ op ∈ intOps, d.toNat < 120 → i.grp.wb + d.toNat < i.image.regs → 120 ≤ a.toNat → b.toNat < 120 → i.grp.wb + b.toNat < i.image.regs →
    i.grp.chain = none → exec (op.1 g d a b) s = .next (i.traps s ⟨0x15, 0, 0⟩)) ∧
  (∀ (h c : BitVec 2), exec (.ld g d a h c 7) s = .next (i.traps s ⟨0x01, 0, 0⟩)) ∧
  (∀ (z : BitVec 2), d.toNat < 119 → a.toNat < 119 → i.grp.wb + d.toNat + 1 < i.image.regs → i.grp.wb + a.toNat + 1 < i.image.regs →
    exec (.lda g d a z 7) s = .next (i.traps s ⟨0x08, 0, 0⟩))

/-- R20, R21, R35, R38, R54, R72, R218, R304: where the next action is the issue of a group that may have a decision and is not passed over by it,
nothing is pending or waited for, and the fragment's word decodes, the step is that instruction's meaning at the issue, then the clearing of the
yield exclusions outside the fragment and the rotation; a word that decodes to nothing takes ILLEGAL_OP; a decision that is not the group's to have
changes nothing. The step of an event is the event's meaning, after which every stalled group may try again; an event that cannot occur changes
nothing. R270, R271: an error poisons its sector, which the host is told, or counts as a correction of its die. The order of the inbox, issues and
owed completions is the model's (logs 10, 11). -/
def Obligations.StepRunsDecodedInstruction : Prop :=
  ∀ (s : State) (rest : List Act),
  (∀ (team grp : Nat) (t : Team) (g : Group) (l : Launch) (m : Image) (ia : Word) (e : LaneMask),
    let s0 : State := { s with inbox := rest }
    s.inbox = .issue team grp :: rest → Holds s team grp t g l m →
    (s0.mayDecide t g = false → step s = .next s0) ∧ (
    s0.mayDecide t g = true → s0.overdue t g = false → s0.dogBites g.core t.ctx = false → g.wait = .none →
    g.fragment = some (ia, e) → g.pend = [] → ia.toNat / 4 < m.code.length → ia.toNat / 4 < 65536 → chainFrom m.code (ia.toNat / 4) = none →
    (∀ c, s.ctx? t.ctx = some c → c.breakpoint m.addr ia = none) →
    let s1 : State := { (s0.passOver g.core [(team, grp)]).onGroup team grp (fun g => if g.lastExec = e then g else { g with latches := noLatches, lastExec := e })
      with cur := some ⟨team, grp, e, ia, false⟩ }
    (∀ ins s2, decodeWord (getAt m.code (ia.toNat / 4) 0) = some ins → exec ins s1 = .next s2 → step s = .next (afterIssue team grp e s2)) ∧
    (decodeWord (getAt m.code (ia.toNat / 4) 0) = none → ∀ i, s1.issue? = some i →
      step s = .next (afterIssue team grp e (i.traps s1 ⟨0x01, 0, 0⟩))))) ∧
  (∀ team grp g, s.group? team grp = some g → g.fragment = none → g.ended = false → (∃ l, l < g.lanes.length ∧ (g.lane l).exited = false ∧ (g.lane l).yx = true) →
    ∃ t g', exec (.issueDecision team grp) s = .next t ∧ t.group? team grp = some g' ∧ { g' with lanes := g.lanes, age := g.age } = g ∧
      (∀ l, l < g.lanes.length → l < 64 → g'.lane l = { g.lane l with yx := false }) ∧ { t with teams := s.teams } = s) ∧
  (∀ e, s.inbox = .event e :: rest →
    let s0 : State := { s with inbox := rest }
    (∀ s2, exec e (s0.before exec e) = .next s2 →
      step s = .next (if s2.begun then ({ s2 with begun := false, due := s2.due ++ [e] } : State).showBusy e else s2).after) ∧
    (∀ f, exec e (s0.before exec e) = .fault f → Instr.arrives s e = false → step s = .next s0) ∧
    ((∀ core, e ≠ .stallSample core ∧ e ≠ .parkRule core) → (∀ d, e ≠ .powerGood d) → (∀ f a, e ≠ .fundamentalReset f a) → s0.ignores e = false →
      s0.before exec e = s0.unowe e) ∧
    ((∃ d, e = .powerGood d) ∨ (∃ f a, e = .fundamentalReset f a) → s0.before exec e = ({ s0 with attempting := false } : State).unowe e) ∧
    (∀ fn opc, commandOf e = some (fn, opc) → s.mbBusy fn = true → s0.before exec e = s0)) ∧
  (∀ n, s.inbox = .upset (.sector n) :: rest → n < 2 ^ 35 → step s = .next { s with
    inbox := rest, poison := if n ∈ s.poison then s.poison else n :: s.poison, out := .poison (32 * n) :: s.out }) ∧
  (∀ die, s.inbox = .upset (.corrected die) :: rest → die < 8 →
    ∃ errors, step s = .next { s with inbox := rest, errors := errors } ∧ lookupD die 0 errors = lookupD die 0 s.errors + 1 ∧
      ∀ d, d ≠ die → lookupD d 0 errors = lookupD d 0 s.errors)

/-! ### Barriers, engines, launches and tasks -/

namespace Sys2Proof.Claims

open Sys2Proof.Machine
open Host (Outcome Cell)

/-- R201: a barrier after one arrival. -/
def arrived (b : Barrier) : Barrier :=
  if b.arrivals + 1 < b.expected then { b with arrivals := b.arrivals + 1 } else { b with arrivals := 0, phase := b.phase + 1 }

/-- R202: a barrier given the count `n`: its phase ends where its arrivals already fill it. -/
def counted (b : Barrier) (n : Nat) : Barrier :=
  if n ≤ b.arrivals then ⟨n, 0, b.phase + 1⟩ else { b with expected := n }

/-- The state in which an arrival on barrier `n` of the issue's team has been made. -/
def withArrival (s : State) (i : Issue) (n : Nat) : State :=
  s.onTeam i.cur.team (fun t => { t with bars := setAt t.bars n (arrived (i.team.bar n)), released := true })

/-- A matrix operation has acted on its team, of which `tm` is what is left, from `s`, in which the group's earlier matrix work has landed: its work
is outstanding, with the bytes that it is still to write, and nothing else has changed but tiles, lattice and corrected-tile counts (R167, R170). -/
structure MatrixEffect (s s1 : State) (i : Issue) (tm : Team) (writes : List (Nat × List Byte)) : Prop where
  scratch : ∀ t0, s.team? i.cur.team = some t0 → tm.scratch = t0.scratch ∧ tm.absent = t0.absent ∧ (∀ k, k < 65536 → (k ∈ tm.bad ↔ k ∈ t0.bad)) ∧
    (∀ k ∈ tm.bad, k ∈ t0.bad)
  team : s1.team? i.cur.team = some tm
  keeps : { tm with tiles := i.team.tiles, scratch := i.team.scratch, absent := i.team.absent, bad := i.team.bad, badTiles := i.team.badTiles } = i.team
  others : ∀ u, u ≠ i.cur.team → s1.team? u = s.team? u
  rest : { s1 with teams := s.teams, cores := s.cores, ctxs := s.ctxs, works := s.works, due := s.due, nextId := s.nextId } = s
  work : s1.works = s.works ++ [⟨s.nextId, i.cur.team, i.cur.grp, writes⟩] ∧ s1.due = s.due ++ [.matrixWorkCompletion s.nextId] ∧ s1.nextId = s.nextId + 1

/-- Nothing holds back a matrix operation on some tiles and byte ranges (R146, R159, R164, R167, R191): no earlier acquire, slice or restored line, no
TILEOP on an engine of some cores, and none of the group on the bytes. -/
structure MatrixFree (s : State) (i : Issue) (tiles offs : List Nat) (n : Nat) (cores : List Nat) : Prop where
  acquired : s.acquiring i = false
  restored : ∀ k ∈ tiles, i.team.isPending (checksumLine k) = false
  slices : ∀ x ∈ offs, s.sliceMeets i.cur.team x n = false
  engine : s.engineHeld i.team.ctx cores = false
  bytes : ∀ o ∈ s.tileops, o.team = i.cur.team → o.grp = i.cur.grp → ∀ x ∈ offs, ∀ r ∈ o.rows, r.meets x n = false

/-- The lanes of a tile function with tile index and offset: its checks pass, nothing holds it back, and what it reads is correct (R169, R209, R270). -/
structure TilesReady (s : State) (i : Issue) (xs : List (Nat × Nat × Nat)) (useD lattice reads writes : Bool) : Prop where
  tiles : ∀ x ∈ xs, x.2.1 < i.image.accum ∨ (lattice = true ∧ x.2.1 = 0xFFFFFFFF)
  offsets : useD = true → ∀ x ∈ xs, x.2.2 % 256 = 0 ∧ x.2.2 + 1024 ≤ i.image.scratch ∧ x.2.2 < 2 ^ 32 ∧
    (∀ k ∈ linesOf x.2.2 1024, i.team.absentLine? k = none ∧ (writes = false → k ∉ i.team.bad)) ∧
    (writes = true → ∀ a ∈ s.accessions, a.team = i.cur.team → a.offset + 4096 ≤ x.2.2 ∨ x.2.2 + 1024 ≤ a.offset)
  lapse : useD = true → ∀ c, i.grp.lapse = some c → c.2.2.2 ≠ i.cur.exec
  free : MatrixFree s i (xs.map (fun x => x.2.1)) (if useD then xs.map (fun x => x.2.2) else []) 1024
    (xs.map (fun x => if x.2.1 = 0xFFFFFFFF then i.grp.core else i.team.tileCore x.2.1))
  correct : reads = true → ∀ x ∈ xs, x.2.1 ∉ i.team.badTiles ∧ (lattice = false → checksumLine x.2.1 ∉ i.team.bad)

/-- R174, R175, R176: the drains of some lanes in order over tiles: the tiles left and the bytes to write, or the tile that cannot be corrected. -/
def drainRun (tol : Word) : List (Nat × Nat) → (Nat → Tile) → Except (Nat × Nat) ((Nat → Tile) × List (Nat × List Byte))
  | [], t => .ok (t, [])
  | (n, off) :: xs, t =>
    let go := fun (x : Tile) => match drainRun tol xs (fun k => if k = n then Tile.clear else t k) with
      | .ok (f, ws) => .ok (f, (off, wordsBytes x.elems) :: ws)
      | .error e => .error e
    match (t n).check tol with
    | .pass => go (t n)
    | .corrected x => go x
    | .uncorrectable d => .error (n, d)

/-- Nothing holds back the reads of 64 bytes of an instruction that reads memory as it issues (R138, R141, R146, R277, R341): the bytes are homed on this
part, no earlier acquire or store of the group meets them, their pages are in no queue, and no twin is being cut. -/
structure ReadsNow (s : State) (i : Issue) (ls : List LaneAcc) : Prop where
  here : ∀ x ∈ ls, x.loc.part = s.part
  acquired : s.acquiring i = false
  settled : ∀ x ∈ ls, s.storesTo i.cur.team i.cur.grp x.loc 64 = false ∧ s.queueing? x.loc.pa = none
  uncut : ∀ w ∈ s.twins, w.state ≠ .cutting

/-- A 32-bit word of scratchpad, lowest byte first (R4). -/
def scratchWord (t : Team) (at_ : Nat) : Word :=
  Memory.get t.scratch (at_ + 3) ++ Memory.get t.scratch (at_ + 2) ++ Memory.get t.scratch (at_ + 1) ++ Memory.get t.scratch at_

end Sys2Proof.Claims

/-- R19, R200-R205: NBINIT sets the expected count, ending the phase that its arrivals already fill; NBARR, NBSYNC and WAITL arrive, and the two latter
wait for the phase after; WAITL's register is told who arrived last, or in deterministic mode the team's last group; NBRD reads phase
and arrivals. A barrier without a member count is ILLEGAL_OP 0x15, a count outside 1 to 1,023 ILLEGAL_OP 0x14. -/
def Obligations.NamedBarriers : Prop :=
  ∀ (s : State) (i : Issue) (g : Guard) (b : BitVec 4),
  (∀ a : RegField, Passes s i true [.srcLost a] true → ∀ l q, i.taking g = l :: q →
    let n := (i.src a l).toNat
    (1 ≤ n ∧ n ≤ 1023 → ∃ t g', exec (.nbinit g a b) s = .next t ∧
      Acts (s.onTeam i.cur.team (fun t => { t with bars := setAt t.bars b.toNat (counted (i.team.bar b.toNat) n) })) t i i.grp i.view g') ∧
    (n = 0 ∨ 1023 < n → exec (.nbinit g a b) s = .next (i.traps s ⟨0x01, 0x14, 0⟩)) ∧
    (s.claimed i.cur.team i.cur.grp = false → ∃ t g', exec (.nbwait g a b) s = .next t ∧ Completes s t i i.view g' ∧
      g'.wait = .barrier b.toNat (n % 65536) none)) ∧
  (Passes s i true [] true → i.effect g ≠ 0 →
    ((i.team.bar b.toNat).expected = 0 → ∀ ins ∈ [Instr.nbarr g b, .nbsync g b], exec ins s = .next (i.traps s ⟨0x01, 0x15, 0⟩)) ∧
    ((i.team.bar b.toNat).expected ≠ 0 → Drained s i 2 →
      (∃ t g', exec (.nbarr g b) s = .next t ∧ Acts (withArrival s i b.toNat) t i i.grp i.view g') ∧
      (s.claimed i.cur.team i.cur.grp = false → ∃ t g', exec (.nbsync g b) s = .next t ∧ Acts (withArrival s i b.toNat) t i i.grp i.view g' ∧
        g'.wait = .barrier b.toNat (((i.team.bar b.toNat).phase + 1).toNat) none))) ∧
  (∀ d : RegField, Passes s i true [.dstMem d 1] true →
    (∃ t g', exec (.nbrd g d b) s = .next t ∧ Completes s t i (i.view.withRegs (i.written (i.effect g) d.toNat 1
      (fun _ => [BitVec.ofNat 16 ((i.team.bar b.toNat).arrivals % 1024) ++ (i.team.bar b.toNat).phase]))) g') ∧
    (i.effect g ≠ 0 → (i.team.bar b.toNat).expected ≠ 0 → Drained s i 2 → s.claimed i.cur.team i.cur.grp = false →
      ∃ t g', exec (.waitl g d b) s = .next t ∧ Acts (withArrival s i b.toNat) t i i.grp i.view g' ∧
        g'.wait = .barrier b.toNat (((i.team.bar b.toNat).phase + 1).toNat) (some (i.grp.wb + d.toNat, i.effect g,
          if (if i.image.det then decide (i.grp.idx + 1 = i.team.groups.length)
              else decide ((i.team.bar b.toNat).expected ≤ (i.team.bar b.toNat).arrivals + 1)) then 1 else 0))))

/-- R211, R212, R213: HANDOFF, once a team, commits the team and hands its token to the next; HANDWAIT waits for the hand-off of the team before.
A second HANDOFF is ILLEGAL_OP 0x17. -/
def Obligations.HandOffs : Prop :=
  ∀ (s : State) (i : Issue) (g : Guard) (l : Nat) (q : List Nat), i.taking g = l :: q →
  (∀ a : RegField, Passes s i true [.srcLost a] true →
    (i.team.handed = true → exec (.handoff g a) s = .next (i.traps s ⟨0x01, 0x17, 0⟩)) ∧
    (i.team.handed = false → ∀ s1, Releases s i 5 s1 → (∀ w ∈ s1.twins, w.state ≠ .cutting) → ∃ t g', exec (.handoff g a) s = .next t ∧
      Acts ((s1.onLaunch i.team.launch (fun k => { k with hands := k.hands ++ [(i.team.hidx, i.src a l, 0)] })).onTeam i.cur.team
        (fun t => { t with handed := true })) t i i.grp i.view g')) ∧
  (∀ d : RegField, Passes s i true [.rwStrict d 2] true → s.claimed i.cur.team i.cur.grp = false →
    ∃ t g', exec (.handwait g d) s = .next t ∧ Completes s t i i.view g' ∧ g'.wait = .handoff (i.grp.wb + d.toNat) (i.effect g))

/-- R157-R166, R94, R95: MMA, with its operand words alike in its lanes and its checks passed, adds to each element of its tile the products along
its row of A and its column of B, summed exactly and rounded once, or modulo 2^32; with REUSE the collector keeps A. B is read with the writes of the
group's earlier matrix work in place (R167; `landWorks` performs them). -/
def Obligations.MatrixMultiply : Prop :=
  ∀ (s : State) (i : Issue) (g : Guard) (d a b : RegField) (l : Nat) (q : List Nat),
  Passes s i true [.rw d 4, .srcNoLatch a i.aRegs, .srcNoLatch b 1] true → i.taking g = l :: q →
  let fw := i.regAt d 0 l
  let ti := (i.regAt d 1 l).toNat
  let bo := (i.regAt b 0 l).toNat
  let rows := if i.grp.coll.held then i.grp.coll.rows else i.matrixRows g a
  ((∃ k ∈ q, i.regAt d 0 k ≠ fw) → exec (.mma g d a b) s = .next (i.traps s ⟨0x07, 0, 0⟩)) ∧
  ((∀ k ∈ q, (∀ n, n < 4 → i.regAt d n k = i.regAt d n l) ∧ i.regAt b 0 k = i.regAt b 0 l) →
    (fmtValid fw = false → exec (.mma g d a b) s = .next (i.traps s ⟨0x01, 0x10, 0⟩)) ∧
    (fmtValid fw = true → (i.grp.coll.held = true → i.grp.coll.fmt = fwA fw) →
      (i.image.accum ≤ ti → exec (.mma g d a b) s = .next (i.traps s ⟨0x0D, 0, BitVec.ofNat 64 ti⟩)) ∧
      (ti < i.image.accum → bo % 32 = 0 → bo + bBytes fw ≤ i.image.scratch → (∀ k ∈ linesOf bo (bBytes fw), i.team.absentLine? k = none ∧ k ∉ i.team.bad) →
        ti ∉ i.team.badTiles → checksumLine ti ∉ i.team.bad → (∀ c, i.grp.lapse = some c → c.2.2.2 ≠ i.cur.exec) → MatrixFree s i [ti] [bo] (bBytes fw) [i.team.tileCore ti] → (i.team.tile ti).elems.length = 256 →
        let s0 := s.landWorks i.cur.team i.cur.grp
        ∃ t g' s1 tm, exec (.mma g d a b) s = .next t ∧ MatrixEffect s0 s1 i tm [] ∧
          (∀ n, n ≠ ti → tm.tile n = i.team.tile n) ∧
          (∀ r c, r < 16 → c < 16 → getAt (tm.tile ti).elems (16 * r + c) 0 = accAdd (fwAcc fw) (getAt (i.team.tile ti).elems (16 * r + c) 0)
            (products (getAt (mmaRows fw (i.regAt d 2 l) rows) r [])
              (getAt (mmaColumns fw (i.regAt d 3 l) (i.lattice s) (Memory.read tm.scratch bo (bBytes fw))) c []))) ∧
          (fwCksum fw = false → (tm.tile ti).v = false) ∧
          Acts s1 t i { i.grp with coll := if fwReuse fw then ⟨true, rows, fwA fw⟩ else { i.grp.coll with held := false } } i.view g')))


/-- R159, R167, R169-R176: MXCLR clears its tiles, MXLD loads them, or the lattice table, from the scratchpad, MXST stores them there, and MXDRN stores
and clears them in lane order after comparing each with its checksums: a tile that cannot be corrected is CHECKSUM and drains none. What they store is
written when their work completes; each acts with the writes of the group's earlier matrix work in place. R172: MXTOL sets the group's tolerance from its lowest lane, -0 as 0, and takes no negative, infinite or NaN one; MXRTOL reads it; MXWAIT waits for the
group's matrix work. R174, R175: a tile of i32 elements whose checksums are the sums of its columns and rows, with one element changed to any other value, is corrected
by the compare to exactly what it was. -/
def Obligations.MatrixTilesAndChecks : Prop :=
  (∀ (s : State) (i : Issue) (g : Guard) (d a : RegField), i.effect g ≠ 0 → Memory.wf i.team.scratch = true →
  let xs := (i.taking g).map (fun l => (l, (i.regAt a 0 l).toNat, (i.regAt d 0 l).toNat))
  let s0 := s.landWorks i.cur.team i.cur.grp
  (Passes s i true [.srcNoLatch a 1] true → TilesReady s i xs false false false false → ∃ t g' s1 tm, exec (.mxclr g a) s = .next t ∧
    MatrixEffect s0 s1 i tm [] ∧
    (∀ n, tm.tile n = if ∃ x ∈ xs, x.2.1 = n then ⟨List.replicate 256 0, List.replicate 16 0, List.replicate 16 0, true, 0⟩ else i.team.tile n) ∧
    Acts s1 t i i.grp i.view g') ∧
  (Passes s i true [.srcNoLatch d 1, .srcNoLatch a 1] true →
    (TilesReady s i xs true true false false → ∃ t g' s1 tm, exec (.mxld g d a) s = .next t ∧ MatrixEffect s0 s1 i tm [] ∧
      (∀ n, n ≠ 0xFFFFFFFF → (∀ x ∈ xs, x.2.1 ≠ n) → tm.tile n = i.team.tile n) ∧
      (∀ p x q, xs = p ++ x :: q → (∀ y ∈ q, y.2.1 ≠ x.2.1) → ∀ k, k < 256 →
        (x.2.1 ≠ 0xFFFFFFFF → getAt (tm.tile x.2.1).elems k 0 = scratchWord tm (x.2.2 + 4 * k) ∧ (tm.tile x.2.1).v = true ∧ (tm.tile x.2.1).ty = 1) ∧
        (x.2.1 = 0xFFFFFFFF → ∀ c, s1.ctx? i.team.ctx = some c → getAt c.lattice k 0 = scratchWord tm (x.2.2 + 4 * k))) ∧
      Acts s1 t i i.grp i.view g') ∧
    (TilesReady s i xs true true true true → ∃ t g' s1 tm, exec (.mxst g d a) s = .next t ∧ tm.tiles = i.team.tiles ∧
      MatrixEffect s0 s1 i tm (xs.map (fun x => (x.2.2, wordsBytes (if x.2.1 = 0xFFFFFFFF then i.lattice s else (i.team.tile x.2.1).elems)))) ∧
      Acts s1 t i i.grp i.view g') ∧
    (TilesReady s i xs true false true true →
      match drainRun i.grp.tol (xs.map (fun x => x.2)) i.team.tile with
      | .error (n, det) => exec (.mxdrn g d a) s = .next (i.traps s0 ⟨0x14, det, BitVec.ofNat 64 n⟩)
      | .ok (tf, ws) => ∃ t g' s1 tm, exec (.mxdrn g d a) s = .next t ∧ MatrixEffect s0 s1 i tm ws ∧ (∀ n, tm.tile n = tf n) ∧
          Acts s1 t i i.grp i.view g'))) ∧
  (∀ (s : State) (i : Issue) (g : Guard),
  (∀ a : RegField, Passes s i true [.srcNoLatch a 1] true → ∀ l q, i.taking g = l :: q → let v := i.regAt a 0 l
    (v.toNat < 0x7F800000 ∨ v = 0x80000000 → ∃ t g', exec (.mxtol g a) s = .next t ∧
      Acts s t i { i.grp with tol := if v = 0x80000000 then 0 else v } i.view g') ∧
    (0x7F800000 ≤ v.toNat → v ≠ 0x80000000 → exec (.mxtol g a) s = .next (i.traps s ⟨0x01, 0x13, 0⟩))) ∧
  (∀ d : RegField, Passes s i true [.dstMem d 1] true → ∃ t g', exec (.mxrtol g d) s = .next t ∧
    Completes s t i (i.view.withRegs (i.written (i.effect g) d.toNat 1 (fun _ => [i.grp.tol]))) g') ∧
  (Passes s i true [] true → i.effect g ≠ 0 → s.claimed i.cur.team i.cur.grp = false → ∃ t g', exec (.mxwait g) s = .next t ∧
    Completes s t i i.view g' ∧ g'.wait = .matrix)) ∧
  (∀ (t : Tile) (tol w : Word) (r c : Nat), t.v = true → t.ty = 2 → t.elems.length = 256 → r < 16 → c < 16 →
  t.chc = (List.range 16).map (fun j => (t.column j).foldl (· + ·) 0) → t.chr = (List.range 16).map (fun i => (t.row i).foldl (· + ·) 0) →
  t.check tol = .pass ∧
  (w ≠ getAt t.elems (16 * r + c) 0 → ({ t with elems := setAt t.elems (16 * r + c) w } : Tile).check tol = .corrected t))

/-- R177, R178, R179: a TILEOP whose block and parameters pass their checks starts: its counter goes up and its completion is owed. It reads its
block, its group's tolerance and the lattice table at issue. WaitsAndWorkComplete says how it ends. The model's choice: a sum of TILE and the base beyond
32 bits wraps (log 23), and the tolerance and table are those at issue (log 51). -/
def Obligations.TileOpsStart : Prop :=
  ∀ (s : State) (i : Issue) (g : Guard) (a : RegField) (c : BitVec 2) (l : Nat) (q : List Nat),
  Passes s i true [.srcStrict a 2] true → i.taking g = l :: q →
  ∀ p ∈ ([(.tileopGemm, 0), (.tileopTrq, 1), (.tileopCkv, 2), (.tileopDrn, 3)] : List ((Guard → RegField → BitVec 2 → Instr) × Nat)),
  let off := (i.regAt a 0 l).toNat
  let o : TileOp := ⟨s.nextId, i.cur.team, i.cur.grp, l, i.cur.pc, c.toNat, p.2, off, i.regAt a 1 l,
    (List.range 16).map (fun k => scratchWord i.team (off + 4 * k)) ++ [i.grp.tol] ++ i.lattice s, 0, [], []⟩
  off % 64 = 0 → off + 64 ≤ i.image.scratch → (∀ k ∈ linesOf off 64, i.team.absentLine? k = none ∧ k ∉ i.team.bad) → (∀ c, i.grp.lapse = some c → c.2.2.2 ≠ i.cur.exec) →
  s.acquiring i = false → s.sliceMeets i.cur.team off 64 = false → s.tileMeets i.cur.team i.cur.grp off 64 = false →
  (i.tileopStop o = none → (∀ a ∈ s.accessions, a.team ≠ i.cur.team) → getAt i.grp.ctrs c.toNat 0 < 63 → ∃ t g', exec (p.1 g a c) s = .next t ∧
    Acts { s with nextId := s.nextId + 1, tileops := s.tileops ++ [o], due := s.due ++ [.tileopCompletion s.nextId] } t i (i.grp.bump (some c.toNat)) i.view g') ∧
  (∀ k, i.tileopStop o = some (.trap k) → exec (p.1 g a c) s = .next (i.traps s k))

/-- R185-R191: a COPY whose record passes its checks gives its group's slice to the team's copy of the group's count, which is made if it is the first;
the destination lines that the slice covers wholly become absent and pending. Where it takes no effect it gives an empty slice. -/
def Obligations.CopiesIssue : Prop :=
  ∀ (s : State) (i : Issue) (g : Guard) (a : RegField) (b : BitVec 4), Passes s i true [.srcStrict a 2] true →
  (∀ l q, i.taking g = l :: q →
    let off := (i.regAt a 0 l).toNat
    let comp := if i.regAt a 1 l = 0xFFFFFFFF then none else some (i.regAt a 1 l).toNat
    let r := i.team.words off 8
    let sl : Slice := ⟨i.cur.grp, l, i.cur.pc, r, b.toNat, comp, 0, 0, false, false, 0, s.nextId, false, []⟩
    i.recordStop s (engineRecords off 32 32 comp) = none → (i.team.bar b.toNat).expected ≠ 0 → (∀ k ∈ linesOf off 32, k ∉ i.team.bad) →
    (recordOk r = false → exec (.copy g a b) s = .next (i.traps s ⟨0x01, 0x18, 0⟩)) ∧
    (recordOk r = true → i.sliceStop sl = none → (∀ x ∈ s.accessions, x.team ≠ i.cur.team) → s.queueFull i.team.core = false → ∃ t g' s1 tm, exec (.copy g a b) s = .next t ∧ s1.team? i.cur.team = some tm ∧
      (∀ k ∈ sl.whole, tm.isPending k = true) ∧ (∀ k, k ∉ sl.whole → tm.absentLine? k = i.team.absentLine? k) ∧
      { tm with absent := i.team.absent } = i.team ∧
      (∃ c ∈ s1.copies, c.team = i.cur.team ∧ c.n = i.grp.copies ∧ sl ∈ c.slices ∧ i.cur.grp ∈ c.issued) ∧
      s1.nextId = s.nextId + 1 ∧ { s1 with teams := s.teams, copies := s.copies, due := s.due, nextId := s.nextId } = s ∧
      Acts s1 t i { i.grp with copies := i.grp.copies + 1 } i.view g')) ∧
  (i.effect g = 0 → ∃ t g' s1, exec (.copy g a b) s = .next t ∧ (∃ c ∈ s1.copies, c.team = i.cur.team ∧ c.n = i.grp.copies ∧ i.cur.grp ∈ c.issued) ∧
    { s1 with copies := s.copies, due := s.due } = s ∧ Acts s1 t i { i.grp with copies := i.grp.copies + 1 } i.view g')


/-- R193, R194, R196-R199: PUBLISH of a registered region releases at system scope, commits its team and waits for the exchange, which the team's
engine writes to the shadow that it had issued by then hold back; a base that is not registered is ACCESS 0x08. An MCAST whose record and receivers pass their checks is in flight to each bit of its mask. R206, R207, R209, R210: CALLSLIP leaves a slip in force or ended for each lane, its lines absent; ACCESSION releases what its whole team has done at
system scope, commits it and leaves the tiles of its lanes to be read; SLIPCAN ends the slips of its names. -/
def Obligations.SharingOperations : Prop :=
  (∀ (s : State) (i : Issue) (g : Guard) (a : RegField) (l : Nat) (q : List Nat), i.taking g = l :: q →
  (Passes s i true [.srcStrict a 2] true → let va := i.pair a l
    (s.region? (s.pubCtx i.team.ctx) va.toNat = none → exec (.publish g a) s = .next (i.traps s ⟨0x05, 0x08, va⟩)) ∧
    (∀ p s1, s.region? (s.pubCtx i.team.ctx) va.toNat = some p → Releases s i 6 s1 → s1.claimed i.cur.team i.cur.grp = false →
      let before := s1.shadowWrites i.cur.team p
      ∃ t g', exec (.publish g a) s = .next t ∧
        Acts { s1 with due := s1.due ++ [.publishExchange i.cur.team i.cur.grp] } t i i.grp i.view g' ∧ g'.wait = .publish va.toNat before.1 before.2)) ∧
  (∀ (d : RegField) (b : BitVec 4), Passes s i true [.rw d 1, .srcStrict a 2] true →
    let off := (i.regAt a 0 l).toNat
    let comp := if i.regAt a 1 l = 0xFFFFFFFF then none else some (i.regAt a 1 l).toNat
    let r := i.team.words off 8
    let w := fun k => (getAt r k (0 : Word)).toNat
    let bits := (List.range 32).filter (fun n => (i.regAt d 0 l).getLsbD n)
    i.recordStop s (engineRecords off 32 32 comp) = none → (i.team.bar b.toNat).expected ≠ 0 → (∀ k ∈ linesOf off 32, k ∉ i.team.bad) →
    (sendOk r = false → exec (.mcast g d a b) s = .next (i.traps s ⟨0x01, 0x18, 0⟩)) ∧
    (sendOk r = true → i.sendStop (i.regAt d 0 l) r = none → i.sendWaits s (i.regAt d 0 l) r = false → ∃ t g', exec (.mcast g d a b) s = .next t ∧
      Acts { s with nextId := s.nextId + 1,
                    sends := s.sends ++ [⟨s.nextId, i.cur.team, i.cur.grp, b.toNat, comp, w 0, w 1, w 2, w 3, w 4, bits, 0, 0⟩],
                    due := s.due ++ bits.map (fun n => Instr.mcastReceipt s.nextId n) ++ [Instr.mcastSendEnd s.nextId] } t i i.grp i.view g'))) ∧
  (∀ (s : State) (i : Issue) (g : Guard) (a : RegField),
  (∀ d : RegField, Passes s i true [.rwStrict d 2, .srcStrict a 3] true → let xs := i.tileOffsets g d
    ((∀ x ∈ xs, x.2 % 256 = 0 ∧ x.2 + 4096 ≤ i.image.scratch ∧ x.2 < 2 ^ 32) →
      ((xs = [] ∨ s.acquiring i = false) → (∀ x ∈ xs, 1 ≤ (i.regAt d 1 x.1).toNat ∧ (i.regAt d 1 x.1).toNat ≤ 1048576) →
        (∀ x ∈ xs, ∀ y ∈ xs, x.1 ≠ y.1 → x.2 + 4096 ≤ y.2 ∨ y.2 + 4096 ≤ x.2) → ∃ t g' s1, exec (.callslip g d a) s = .next t ∧
          s1 = xs.foldl (fun s x => s.callSlip i x.2 (i.regAt d 1 x.1).toNat (i.name a x.1)) s ∧
          (s1.group? i.cur.team i.cur.grp = some i.grp → Acts s1 t i i.grp i.view g')) ∧
      ((∃ x ∈ xs, (i.regAt d 1 x.1).toNat = 0 ∨ 1048576 < (i.regAt d 1 x.1).toNat) → exec (.callslip g d a) s = .next (i.traps s ⟨0x01, 0x16, 0⟩)))) ∧
  (∀ d : RegField, Passes s i true [.rw d 1, .srcStrict a 3] true → let xs := i.tileOffsets g d
    (xs ≠ [] → (∀ x ∈ xs, x.2 % 256 = 0 ∧ x.2 + 4096 ≤ i.image.scratch ∧ x.2 < 2 ^ 32 ∧ (∀ k ∈ linesOf x.2 4096, i.team.absentLine? k = none) ∧
        s.sliceMeets i.cur.team x.2 4096 = false ∧ s.tileMeets i.cur.team i.cur.grp x.2 4096 = false) → (∀ c, i.grp.lapse = some c → c.2.2.2 ≠ i.cur.exec) →
      (∀ x ∈ s.accesses, x.team = i.cur.team → x.kind = .packet) → (∀ e ∈ s.heldOut, e.team ≠ i.cur.team) →
      (∀ c ∈ (if i.team.pair then [i.team.core, i.team.core + 1] else [i.grp.core]), s.drainsFor c i.cur.team 6 = [] ∧ s.awaits c i.cur.team 6 = false) →
      (i.image.strict = true → i.team.committed = true) → ∀ s1, s.commit i.cur.team = some s1 → s1.group? i.cur.team i.cur.grp = some i.grp → ∃ t g' s2, exec (.accession g d a) s = .next t ∧
        s2.accessions = s1.accessions ++ mapFrom (fun k (x : Nat × Nat) => AccessionOp.mk (s1.nextId + k) i.cur.team (i.name a x.1) x.2 (i.grp.core / 40)) 0 xs ∧
        s2.due = s1.due ++ mapFrom (fun k (_ : Nat × Nat) => Instr.accessionHoldingReady (s1.nextId + k)) 0 xs ∧
        { s2 with accessions := s1.accessions, due := s1.due, nextId := s1.nextId } = s1 ∧ Acts s2 t i i.grp i.view g')) ∧
  (Passes s i true [.srcStrict a 3] true → (∀ k ∈ i.team.groups, k.lineWait = []) → ∃ t g' s1, exec (.slipcan g a) s = .next t ∧
    (∀ x ∈ s1.slips, x ∈ s.slips ∧ ¬ (x.team = i.cur.team ∧ ∃ l ∈ i.taking g, x.name = i.name a l)) ∧
    (∀ x ∈ s.slips, ¬ (x.team = i.cur.team ∧ ∃ l ∈ i.taking g, x.name = i.name a l) → x ∈ s1.slips ∨ ∃ y ∈ s.slips, y.id = x.id ∧ y ≠ x) ∧
    { s1 with slips := s.slips, teams := s.teams } = s ∧ Acts s1 t i i.grp i.view g'))

/-- R211, R215: a collective whose record, descriptor and barrier pass their checks is issued, with its source as a slice of one row; one part alone
completes by itself. A descriptor
outside the table is ILLEGAL_OP 0x18; in deterministic mode one of several parts is CROSS_TEAM_DET. The model's reading: CROSS_TEAM_DET of a
collective of several parts (log 22). -/
def Obligations.CollectivesIssue : Prop :=
  ∀ (s : State) (i : Issue) (g : Guard) (a : RegField) (l : Nat) (q : List Nat), Passes s i true [.srcStrict a 2] true → i.taking g = l :: q →
  ∀ p ∈ ([(.collred, 2), (.collrsc, 3), (.collgat, 4), (.collbc, 5)] : List ((Guard → RegField → Instr) × Nat)),
  let off := (i.regAt a 0 l).toNat
  let comp := if i.regAt a 1 l = 0xFFFFFFFF then none else some (i.regAt a 1 l).toNat
  let r := i.team.words off 16
  let n := (getAt r 5 (0 : Word)).toNat / 16 % 16
  let bytes := fun (x : CollOp) => { x with src := { x.src with
    record := [getAt r 0 0, getAt r 1 0, 0, getAt r 4 0, if p.2 = 3 then getAt r 6 0 else 1, getAt r 4 0, 0, 0] } }
  i.recordStop s (engineRecords off 64 64 comp) = none → (∀ k ∈ linesOf off 64, k ∉ i.team.bad) →
  (descriptorOk p.2 i.launch.repl r = false → exec (p.1 g a) s = .next (i.traps s ⟨0x01, 0x18, 0⟩)) ∧
  (descriptorOk p.2 i.launch.repl r = true → (i.team.bar n).expected ≠ 0 →
    (i.image.det = true → 1 < i.launch.repl → exec (p.1 g a) s = .next (i.traps s ⟨0x0A, 0, 0⟩)) ∧
    ((i.image.det = true → i.launch.repl ≤ 1) → ∃ t g', exec (p.1 g a) s = .next t ∧
      Acts { s with nextId := s.nextId + 1, colls := s.colls ++ [bytes ⟨s.nextId, i.cur.team, i.cur.grp, p.2, r, comp, n,
                      ⟨i.cur.grp, l, i.cur.pc, [], n, none, 0, 0, false, false, 0, s.nextId, false, []⟩, none⟩],
                    due := if i.launch.repl = 1 then s.due ++ [.collectiveEnd s.nextId true [[]]] else s.due } t i i.grp i.view g'))


/-- R226, R285: LAUNCH of packets on this part releases at device scope, commits its team, then appends each lane's 64 bytes in lane order: held until its
task commits in a boosted launch; else NEXT of the queue's tail is written, and the packet is the new tail. R227, R228: a FACSIM whose list passes its checks on this part releases at system scope, commits its team, and waits for the launch's cut, which
takes the regions of the lowest waiting team. -/
def Obligations.LaunchesAppendAndFacsimWaits : Prop :=
  ((∀ (s : State) (i : Issue) (g : Guard) (a : RegField), Passes s i true [.srcStrict a 2] true → let xs := i.pairAddrs g a
    Mapped s i xs 64 .read → (xs = [] → ∃ t g', exec (.launch g a) s = .next t ∧ Completes s t i i.view g') ∧
    (xs ≠ [] → ∀ s1, Releases s i 5 s1 →
      let ls := xs.map (fun x => (⟨x.1, x.2.toNat, i.locOf s1 x.2 .read, []⟩ : LaneAcc))
      ReadsNow s1 i ls →
      let packets := ls.map (fun x => (x.va, s1.teamRead i.cur.team i.team.ctx i.grp.core x.loc.pa 64))
      let s3 := s1.tap (ls.map (fun x => x.loc))
      (i.image.boosted = true → i.team.uid = i.cur.team → ∃ t g', exec (.launch g a) s = .next t ∧
        Acts (s3.onTeam i.cur.team (fun tm => { tm with heldLaunches := tm.heldLaunches ++ packets })) t i i.grp i.view g') ∧
      (∀ s2, i.image.boosted = false → s3.launchAll i.team false packets = some s2 → s2.group? i.cur.team i.cur.grp = some i.grp →
        ∃ t g', exec (.launch g a) s = .next t ∧ Acts s2 t i i.grp i.view g'))) ∧
  (∀ (s : State) (ctx addr : Nat) (packet : List Byte) (q : Queue) (s1 : State), s.queue? (pkQueue packet) = some q → q.deviceFed = true →
    s.vaWrite q.ctx q.tail (leBytes 8 addr) = some s1 → s1.queues = s.queues → ∃ t, s.append ctx addr packet = some t ∧
      t.queue? (pkQueue packet) = some { q with tail := addr, linked := q.linked ++ [⟨pkPrio packet % 8, addr, packet, false, false, []⟩] } ∧
      { t with queues := s1.queues, due := s1.due } = s1)) ∧
  (∀ (s : State) (i : Issue) (g : Guard) (a : RegField) (l : Nat) (q : List Nat), Passes s i true [.srcStrict a 2] true → i.taking g = l :: q →
  let va := i.pair a l
  let ls := i.listPieces s va.toNat
  let read := fun (k : Nat) => ((ls.take k).map (fun x => s.teamRead i.cur.team i.team.ctx i.grp.core x.loc.pa 64)).flatten
  let n := (16 + 16 * bytesAt (read 1) 0 4 + 63) / 64
  let list := read n
  va.toNat % 64 = 0 → i.pieceStop s l va 1 = none → ReadsNow s i ls →
  (5 < n → exec (.facsim g a) s = .next (i.traps s ⟨0x01, 0x1A, 0⟩)) ∧
  (n ≤ 5 → i.pieceStop s l va n = none →
    (listOk list = false → exec (.facsim g a) s = .next (i.traps s ⟨0x01, 0x1A, 0⟩)) ∧
    (listOk list = true → i.image.boosted = true → exec (.facsim g a) s = .next (i.traps s ⟨0x01, 0x1F, 0⟩)) ∧
    (listOk list = true → i.image.boosted = false → i.regionStop s l ((listRegions list).map regionPages).flatten = none →
      ∀ s1, Releases s i 6 s1 → s1.claimed i.cur.team i.cur.grp = false → ∃ t g' s2, exec (.facsim g a) s = .next t ∧
        { s2 with teams := s1.teams, launches := s1.launches, due := s1.due } =
          { s1.tap ((ls.take n).map (fun x => x.loc)) with teams := s1.teams, launches := s1.launches, due := s1.due } ∧
        Acts s2 t i i.grp i.view g' ∧ g'.wait = .facsim va.toNat false ∧ Instr.facsimCut i.team.launch ∈ s2.due ∧
        (∀ k ∈ s2.launches, k.uid = i.team.launch → ∃ j rs, k.facWait = some (j, rs) ∧ j ≤ i.team.tlin) ∧
        (∀ tm, s2.team? i.cur.team = some tm → tm.facsim = true))))

/-- R229, R230, R231: outside a boosted launch or in an undo run the task functions are ILLEGAL_OP 0x1E; OPREG registers an offset once; CONLD takes
its 1,024 bytes as the launch's concordance; OPDO enters its lanes' operations, and on the errata stack unless its task is the oldest. The model's
readings: lanes are declared together, and launches have no order between them (log 34). -/
def Obligations.TaskOperations : Prop :=
  ∀ (s : State) (i : Issue) (g : Guard) (k : BitVec 7) (a : RegField),
  ((i.image.boosted = false ∨ i.grp.undo = true) →
    (Passes s i (kindOk k) [.srcNoLatch a 1] true → exec (.opreg g k a) s = .next (i.traps s ⟨0x01, 0x1E, 0⟩)) ∧
    (Passes s i (kindOk k) [.srcStrict a 3] true → exec (.opdo g k a) s = .next (i.traps s ⟨0x01, 0x1E, 0⟩)) ∧
    (Passes s i true [.srcStrict a 2] true → exec (.conld g a) s = .next (i.traps s ⟨0x01, 0x1E, 0⟩))) ∧
  (i.image.boosted = true → i.grp.undo = false → ∀ l q, i.taking g = l :: q →
    (Passes s i (kindOk k) [.srcNoLatch a 1] true → let off := i.regAt a 0 l
      off.toNat % 4 = 0 → off.toNat < 4 * i.image.code.length →
      (i.launch.kindOf k.toNat = none → ∃ t g', exec (.opreg g k a) s = .next t ∧
        Acts (s.onLaunch i.team.launch (fun x => { x with kinds := x.kinds ++ [(k.toNat, off)] })) t i i.grp i.view g') ∧
      (i.launch.kindOf k.toNat = some off → ∃ t g', exec (.opreg g k a) s = .next t ∧ Completes s t i i.view g') ∧
      (∀ o, i.launch.kindOf k.toNat = some o → o ≠ off → exec (.opreg g k a) s = .next (i.traps s ⟨0x01, 0x1C, 0⟩))) ∧
    (Passes s i (kindOk k) [.srcStrict a 3] true →
      (i.launch.kindOf k.toNat = none → exec (.opdo g k a) s = .next (i.traps s ⟨0x01, 0x1D, 0⟩)) ∧
      (∀ off, i.launch.kindOf k.toNat = some off → i.team.uid = i.cur.team →
        let entries := ((i.taking g).map (fun j => Errata.mk k.toNat (i.pair a j) (i.regAt a 2 j) off)).reverse
        (∀ e ∈ s.objects, ∀ j ∈ i.taking g, e.team ≠ i.cur.team → e.id = i.pair a j →
          s.entryTask i.team.launch e = none ∨ i.launch.conflictCode k.toNat e.kind = 0 ∨ (i.launch.conflictCode k.toNat e.kind = 1 ∧ e.arg ≠ i.regAt a 2 j)) →
        s.objects.length + (i.taking g).length ≤ 4096 → i.team.errata.length + (i.taking g).length ≤ 256 → ∃ t g', exec (.opdo g k a) s = .next t ∧
          Acts ({ s with objects := s.objects ++ (i.taking g).map (fun j => ObjEntry.mk i.cur.team k.toNat (i.pair a j) (i.regAt a 2 j)) }.onTeam i.cur.team
            (fun tm => { tm with errata := if i.team.tlin = i.launch.oldest then tm.errata else entries ++ tm.errata })) t i i.grp i.view g')) ∧
    (Passes s i true [.srcStrict a 2] true → let pieces := fun (x : Nat × Dword) => (List.range 16).map (fun j => (x.1, x.2 + BitVec.ofNat 64 (64 * j)))
      let all := ((i.pairAddrs g a).map pieces).flatten
      Mapped s i all 64 .read → ReadsNow s i (all.map (fun x => ⟨x.1, x.2.toNat, i.locOf s x.2 .read, []⟩)) → ∃ t g' bytes, exec (.conld g a) s = .next t ∧
        (∀ x, (i.pairAddrs g a).getLast? = some x → bytes = ((pieces x).map (fun y => s.teamRead i.cur.team i.team.ctx i.grp.core (i.locOf s y.2 .read).pa 64)).flatten) ∧
        Acts ((s.tap (all.map (fun x => i.locOf s x.2 .read))).onLaunch i.team.launch (fun y => { y with concord := bytes })) t i i.grp i.view g'))

/-! ### Completions of accesses and work -/

namespace Sys2Proof.Claims

open Sys2Proof.Machine
open Host (Outcome Cell)

/-- Nothing outside one part's ordinary memory is about: no twin, no migrating page, no local-release mark. -/
structure Plain (s : State) : Prop where
  twins : s.twins = []
  migrations : s.migrations = []
  marks : s.marks = []

/-- An outstanding access is next at its home: it is found by its number, nothing earlier of its group is to the same bytes, no issue waits for it, and its
lanes lie on this part, in no metered page, each lane once, a lane's bytes within one line (R141, R135). -/
structure AtHome (s : State) (a : Access) : Prop where
  found : s.access? a.id = some a
  first : s.behind a = false
  issued : s.holdsIssue a = false
  here : ∀ x ∈ a.lanes, x.loc.part = s.part ∧ x.loc.met = false ∧ x.loc.pa % 256 + a.size ≤ 256 ∧ x.lane < 64
  once : (a.lanes.map (fun x => x.lane)).Nodup

/-- What an access gives the registers of its lanes: the words of `vals` from its first register on, and nothing else (R14). -/
def given (a : Access) (vals : Nat → Option (List Word)) (g : Group) (l p : Nat) : Word :=
  match vals l with
  | some ws => if a.dst ≤ p ∧ p < a.dst + ws.length then getAt ws (p - a.dst) 0 else (g.lane l).reg p
  | none => (g.lane l).reg p

/-- An access has ended: it is no longer outstanding, its counter is one less, its lanes' registers hold what it gives them, and every
other group, and everything else of its own, is as before (R138, R139, R141). -/
structure AccessEnds (s t : State) (a : Access) (vals : Nat → Option (List Word)) : Prop where
  gone : t.accesses = s.accesses.filter (fun b => b.id != a.id)
  group : ∀ g, s.group? a.team a.grp = some g → ∃ g', t.group? a.team a.grp = some g' ∧
    { g' with lanes := g.lanes, ctrs := g.ctrs } = g ∧ g'.lanes.length = g.lanes.length ∧
    g'.ctrs = (match a.ctr with | some k => setAt g.ctrs k (getAt g.ctrs k 0 - 1) | none => g.ctrs) ∧
    ∀ l, l < g.lanes.length → l < 64 → { g'.lane l with regs := (g.lane l).regs } = g.lane l ∧
      ∀ p, p < (g.lane l).regs.length → (g'.lane l).reg p = given a vals g l p
  others : ∀ u k, u ≠ a.team ∨ k ≠ a.grp → t.group? u k = s.group? u k

/-- The issue that has waited for an access goes on (R138, R152): the access has ended, its counter is one less, its lanes' registers hold what it gives
them, its executing lanes are past the instruction, which is counted, and nothing else has changed. -/
structure GoesOn (s t : State) (a : Access) (m : Image) (g g' : Group) (vals : Nat → Option (List Word)) : Prop where
  group : t.group? a.team a.grp = some g'
  wait : g'.wait = .none ∧ g'.stall = 0
  ctrs : g'.ctrs = (match a.ctr with | some k => setAt g.ctrs k (getAt g.ctrs k 0 - 1) | none => g.ctrs)
  regs : ∀ k, k < g.lanes.length → k < 64 → ∀ p, p < (g.lane k).regs.length → (g'.lane k).reg p = given a vals g k p
  pcs : (∀ k, k < g.lanes.length → (g.lane k).waitm = none) → ∀ k, k < g.lanes.length →
    (g'.lane k).pcv = if inMask a.exec k then (g.lane k).pcv + 4 else (g.lane k).pcv
  count : g.chain = none → chainFrom m.code (a.pc.toNat / 4) = none → g'.ret = g.ret + 1
  others : ∀ u k, u ≠ a.team ∨ k ≠ a.grp → t.group? u k = s.group? u k
  gone : t.accesses = s.accesses.filter (fun b => b.id != a.id)
  rest : { t with teams := s.teams, accesses := s.accesses, cores := s.cores, coreCtxs := s.coreCtxs, issues := s.issues,
                  freeTick := s.freeTick } = { s with cur := none }

/-- The issue of a group waits for its latest access, whose lanes at other parts have all been answered, and meets no watchpoint (R271, R337, R370). -/
structure AllAnswered (s : State) (a : Access) (tm : Team) (g : Group) : Prop where
  found : s.access? a.id = some a
  first : s.behind a = false
  waits : (∃ e, g.wait = .reply e) ∧ a.waiting = true ∧ (∀ b ∈ s.accesses, b.team = a.team → b.grp = a.grp → b.id ≤ a.id) ∧
    s.claimed a.team a.grp = false
  away : ∃ x ∈ a.lanes, x.loc.part ≠ s.part
  lanes : ∀ x ∈ a.lanes, x.loc.met = false ∧ x.lane < 64 ∧ (x.loc.part ≠ s.part → ∃ y, a.got.find? (fun y => y.1 == x.lane) = some y)
  once : (a.lanes.map (fun x => x.lane)).Nodup
  unwatched : ∀ c, s.ctx? tm.ctx = some c → c.twinOf = none → g.twinPass = false → ∀ x ∈ a.lanes,
    c.watchpoint (BitVec.ofNat 64 x.va).toNat a.size true false = none

/-- What another part answered to a lane: the bytes and the status. -/
def answerOf (a : Access) (l : Nat) : List Byte × Nat := ((a.got.find? (fun y => y.1 == l)).map (fun y => y.2)).getD ([], 0)

/-- The words of lanes by lane number. -/
def byLane (xs : List (Nat × List Word)) (l : Nat) : Option (List Word) := (xs.find? (fun x => x.1 == l)).map (fun x => x.2)

/-- The cells that the lanes of a store write, in lane order. -/
def storeCells (s : State) (xs : List LaneAcc) : List Cell :=
  (xs.map (fun x => (List.range x.data.length).map (fun k => (s.place (x.loc.pa + k), getAt x.data k 0)))).flatten

/-- The byte that the last of some cells gives an address. -/
def lastCell (cs : List Cell) (a : Nat) : Option Byte := (cs.reverse.find? (fun c => c.1 == a)).map (fun c => c.2)

/-- A byte of a team's held lines (R142). -/
def heldByte (s : State) (team a : Nat) : Option Byte := (s.held.filter (fun h => h.team == team)).findSome? (fun h => cellAt a h.cells)

/-- The buffers are as every run leaves them: entries once for each core, team, part and line, with identifiers of their own and the cells of
their line, rising; held lines of HBM with the cells of theirs; none for a team that holds nothing; lines of the core's own die in no
entry (R142, R268, R367). -/
structure TidyBuffers (s : State) : Prop where
  cells : ∀ e ∈ s.wc, e.id < s.nextId ∧ (∀ c ∈ e.cells, c.1 / 256 = e.line) ∧ e.cells.Pairwise (fun c d => c.1 < d.1)
  once : s.wc.Pairwise (fun e f => e.id ≠ f.id ∧ ¬ (e.core = f.core ∧ e.team = f.team ∧ e.part = f.part ∧ e.line = f.line))
  held : ∀ h ∈ s.held, s.holds h.team = true ∧ h.line * 256 < Config.hostBase ∧ ∀ c ∈ h.cells, c.1 / 256 = h.line
  far : ∀ e ∈ s.wc, e.part = s.part → Config.hostBase ≤ e.line * 256 ∨ homeDie (e.line * 256) ≠ dieOfCore e.core

/-- A word of an operand block that an atomic carries (R148). -/
def blockOf (a : Access) (l k : Nat) : Word :=
  let d := ((a.lanes.find? (fun x => x.lane == l)).map (fun x => x.data)).getD []
  getAt d (4 * k + 3) 0 ++ getAt d (4 * k + 2) 0 ++ getAt d (4 * k + 1) 0 ++ getAt d (4 * k) 0

/-- An element of a tile after the chunks of a GEMM (R165, R180). -/
def gemmElem (o : TileOp) (m : List Cell) (mi ni r k : Nat) (x : Word) : Word :=
  (List.range o.kc).foldl (fun acc c => accAdd (fwAcc o.fw) acc (products (getAt (o.aRows m mi c) r []) (getAt (o.bColumns m ni c) k []))) x

/-- The rows that a DRN stores when all its tiles pass, in the order of its tiles (R182). -/
def drnRows (o : TileOp) (tm : Team) : List (Nat × List Byte) :=
  (o.order.map (fun x => (List.range 16).map (fun r =>
    (o.w 5 + (16 * x.1 + r) * o.w 6 + 64 * x.2, wordsBytes ((tm.tile (o.first + x.1 * o.nt + x.2)).row r))))).flatten

end Sys2Proof.Claims

/-- R138-R141, R149, R241, R367: a load gives its registers what its team reads at its homes; a store puts its bytes where the team reads them: into
the line, or the held line of a team that holds its stores, when the home is the core's own die; an atomic steps lane by lane and gives the old
values; what was performed at issue gives its results. The counter drops, and nothing else changes. With lanes at another part an LD, LDA, GATH or ATOM goes
on when all have been answered, or raises ACCESS at its instruction where the home refused a lane. The model's readings: errors found at the home
(log 17), one step at the home (log 76). -/
def Obligations.AccessesComplete : Prop :=
  ∀ (s : State) (a : Access), s.access? a.id = some a →
  (∀ k, k ≤ 2 → a.kind = .done k → (a.got.map (fun x => x.1)).Nodup → (∀ x ∈ a.got, x.1 < 64) → s.twins = [] →
    ∃ t, exec (if k = 0 then .loadCompletion a.id else if k = 1 then .storeCompletion a.id else .atomCompletion a.id) s = .next t ∧
      AccessEnds s t a (byLane (a.got.map (fun x => (x.1, bytesWords a.dstN x.2.1)))) ∧ { t with teams := s.teams, accesses := s.accesses } = s) ∧
  (AtHome s a → Plain s →
    ((a.kind = .load ∨ ∃ c, a.kind = .acquire c) → a.size ∈ [1, 2, 4, 8, 16] → (∀ x ∈ a.lanes, s.poisonedFor a.team (s.ctxOf a.team) a.core x.loc.pa a.size = false) →
      ∃ t, exec (.loadCompletion a.id) s = .next t ∧ { t with teams := s.teams, accesses := s.accesses } = s ∧
        AccessEnds s t a (byLane (a.lanes.map (fun x => (x.lane, loadedWords a.signed a.size (fun k =>
          s.teamByte a.team (s.ctxOf a.team) a.core (x.loc.pa + k))))))) ∧
    ((∀ x ∈ a.lanes, s.direct a x = true) → (a.kind = .store ∨ ∃ c, a.kind = .release c) →
      ∃ t, exec (.storeCompletion a.id) s = .next t ∧ AccessEnds s t a (fun _ => none) ∧
        (if s.holds a.team = true then (∀ h ∈ s.held, ∀ c ∈ h.cells, c.1 / 256 = h.line) →
            (∀ b, heldByte t a.team b = (lastCell (storeCells s a.lanes) b).orElse (fun _ => heldByte s a.team b)) ∧
            (∀ u, u ≠ a.team → ∀ b, heldByte t u b = heldByte s u b) ∧ t.mem = s.mem ∧ t.poison = s.poison
         else (∀ b, Memory.wf s.mem = true → Memory.get t.mem b = (lastCell (storeCells s a.lanes) b).getD (Memory.get s.mem b)) ∧ t.held = s.held ∧
            ∀ p, p ∈ t.poison ↔ p ∈ s.poison ∧ ∃ k, k < 32 ∧ lastCell (storeCells s a.lanes) (32 * p + k) = none) ∧
        (∀ m ∈ t.marks, m.core = a.core ∧ m.part = s.part ∧ (∃ c, a.kind = .release c ∧ c ≤ 2) ∧ ∃ x ∈ a.lanes, m.line = x.loc.pa / 256) ∧
        (∀ c, a.kind = .release c → c ≤ 2 → ∀ x ∈ a.lanes, Mark.mk (x.loc.pa / 256) a.core s.part false ∈ t.marks) ∧
        { t with teams := s.teams, accesses := s.accesses, mem := s.mem, held := s.held, poison := s.poison, marks := s.marks } = s) ∧
    (a.kind = .store → TidyBuffers s → Memory.wf s.mem = true → s.pubs = [] → (∀ x ∈ a.lanes, x.data.length = a.size) →
      (s.wc.filter (fun e => e.core == a.core)).length + a.lanes.length ≤ 64 →
      ∃ t, exec (.storeCompletion a.id) s = .next t ∧ AccessEnds s t a (fun _ => none) ∧
        (∀ b, t.teamByte a.team (s.ctxOf a.team) a.core b =
          (lastStored (a.lanes.map (fun x => (x.loc.pa, x.data))) b).getD (s.teamByte a.team (s.ctxOf a.team) a.core b)) ∧
        { t with teams := s.teams, accesses := s.accesses, mem := s.mem, held := s.held, poison := s.poison, wc := s.wc, reqs := s.reqs,
                 due := s.due, nextId := s.nextId } = s) ∧
    (∀ o c, a.kind = .atomic o c → a.signed = false → a.got = [] → o ≤ 0xD → TidyBuffers s → Memory.wf s.mem = true → s.pubs = [] → a.size = atomicBytes o →
      (∀ x ∈ a.lanes, x.data.length = 4 * atomicRegs o ∧ s.poisonedFor a.team (s.ctxOf a.team) a.core x.loc.pa a.size = false) →
      ∃ t, exec (.atomCompletion a.id) s = .next t ∧
        (let r := atomicRun o (blockOf a) (a.lanes.map (fun x => (x.lane, x.loc.pa))) (s.teamByte a.team (s.ctxOf a.team) a.core)
         AccessEnds s t a (byLane r.2) ∧ ∀ b, t.teamByte a.team (s.ctxOf a.team) a.core b = r.1 b) ∧
        { t with teams := s.teams, accesses := s.accesses, mem := s.mem, held := s.held, poison := s.poison, wc := s.wc, reqs := s.reqs,
                 marks := s.marks, nextId := s.nextId } = s)) ∧
  (∀ (tm : Team) (g : Group) (l : Launch) (m : Image), Holds s a.team a.grp tm g l m → Plain s → AllAnswered s a tm g →
    ((a.kind = .load ∨ ∃ c, a.kind = .acquire c) → a.size ∈ [1, 2, 4, 8, 16] →
      ((∀ x ∈ a.lanes, x.loc.part ≠ s.part → (answerOf a x.lane).2 = 0) →
        let byte := fun (x : LaneAcc) (k : Nat) => if x.loc.part = s.part then s.teamByte a.team (s.ctxOf a.team) a.core (x.loc.pa + k)
          else ((s.ownFar a.team a.core x.loc.part).findSome? (fun e => cellAt (x.loc.pa + k) e.cells)).getD (getAt (answerOf a x.lane).1 k 0)
        ∃ t g', exec (.loadCompletion a.id) s = .next t ∧
          GoesOn s t a m g g' (byLane (a.lanes.map (fun x => (x.lane, loadedWords a.signed a.size (byte x)))))) ∧
      (∀ x d, a.lanes = [x] → ((answerOf a x.lane).2, d) ∈ [(2, 0x04), (5, 0x0B), (6, 0x0C)] → m.handler ≠ 0xFFFFFFFF → g.handler = 0 → g.undo = false →
        g.chain = none → ∃ t g', exec (.loadCompletion a.id) s = .next t ∧ t.group? a.team a.grp = some g' ∧ (g'.cause.extractLsb' 0 8).toNat = 0x05 ∧
          (g'.cause.extractLsb' 8 8).toNat = d ∧ g'.cause.getLsbD 31 = false ∧ g'.tpc = a.pc ∧ g'.tval = BitVec.ofNat 64 x.va ∧ g'.handler = a.exec ∧
          g'.wait = .none ∧ g'.ret = g.ret ∧ t.accesses = s.accesses.filter (fun b => b.id != a.id) ∧
          { t with teams := s.teams, accesses := s.accesses } = { s with cur := none })) ∧
    (∀ o c, a.kind = .atomic o c → o ≤ 0xD → a.signed = false → (∀ x ∈ a.lanes, x.loc.part ≠ s.part ∧ (answerOf a x.lane).2 ≤ 1) →
      ∃ t g', exec (.atomCompletion a.id) s = .next t ∧
        GoesOn s t a m g g' (byLane (a.lanes.map (fun x => (x.lane, atomWords o ((answerOf a x.lane).1.take a.size) (answerOf a x.lane).2))))))

/-- R146, R152, R167, R177, R182, R245, R310, R368: how what waits or works goes on. An AWAIT whose lanes have all read another value completes and is
counted, and lanes that have are done; matrix work completes with what it and the group's earlier work write; host stores are acknowledged; a line
arrives; a window of code is fetched; an entry drains; a refused store is retired; a release of another part leaves its mark, and a core that is asked
promotes; a TILEOP writes its tiles or bytes, its STATUS, and drops its counter. The model's readings: drains
at a home that has cut (log 18), one step at the home (log 76). -/
def Obligations.WaitsAndWorkComplete : Prop :=
  ∀ (s : State),
  (∀ (a : Access) (c : Nat) (tm : Team) (g : Group) (l : Launch) (m : Image), a.kind = .await c → Plain s → Holds s a.team a.grp tm g l m →
    s.accesses.find? (fun b => b.team == a.team && b.grp == a.grp && (match b.kind with | .await _ => true | _ => false)) = some a →
    a.ctr = none → a.size = 4 → s.claimed a.team a.grp = false → s.behind a = false → (∃ e, g.wait = .await e) → s.watches a = true → a.got = [] →
    (∀ x ∈ a.lanes, x.loc.part = s.part ∧ x.loc.met = false ∧ s.poisonedFor a.team (s.ctxOf a.team) a.core x.loc.pa 4 = false) →
    let same := fun (x : LaneAcc) => (List.range 4).map (fun k => s.teamByte a.team (s.ctxOf a.team) a.core (x.loc.pa + k)) = x.data
    (a.lanes ≠ [] → (∀ x ∈ a.lanes, ¬ same x) → ∃ t g', exec (.awaitCompletion a.team a.grp) s = .next t ∧ GoesOn s t a m g g' (fun _ => none)) ∧
    ((∃ x ∈ a.lanes, same x) → (∃ x ∈ a.lanes, ¬ same x) → s.accesses.Pairwise (fun b d => b.id ≠ d.id) → a.waiting = false →
      ∃ left, (∀ x, x ∈ left ↔ x ∈ a.lanes ∧ same x) ∧ exec (.awaitCompletion a.team a.grp) s = .next { s with
        accesses := s.accesses.map (fun b => if b.id = a.id then { b with lanes := left } else b), due := s.due ++ [.awaitCompletion a.team a.grp] })) ∧
  (∀ (w : Work) (tm : Team), s.works.find? (fun x => x.id == w.id) = some w → s.team? w.team = some tm → Memory.wf tm.scratch = true →
    ∃ t t', exec (.matrixWorkCompletion w.id) s = .next t ∧ t.team? w.team = some t' ∧
      (∀ b, Memory.get t'.scratch b =
        (lastStored ((s.works.filter (fun x => x.team == w.team && x.grp == w.grp)).map (fun x => x.writes)).flatten b).getD (Memory.get tm.scratch b)) ∧
      t.works = (s.works.filter (fun x => x.id != w.id)).map (fun x => if x.team = w.team ∧ x.grp = w.grp then { x with writes := [] } else x) ∧
      { t' with scratch := tm.scratch, absent := tm.absent, bad := tm.bad } = tm ∧ (∀ u, u ≠ w.team → t.team? u = s.team? u) ∧
      { t with teams := s.teams, works := s.works } = s) ∧
  (∀ r ∈ s.reqs, r.host = true → exec (.cxlMemCompletion r.id) s = .next { s with reqs := s.reqs.filter (fun x => x.id != r.id) }) ∧
  (∀ (u core : Nat) (tm : Team) (b : AbsentLine), s.team? u = some tm → tm.uid = u → tm.absentLine? b.line = some b → b.pending = true → b.owner = .free →
    core ∈ tm.cores → b.line ∈ s.swapLines tm core → (s.core core).active = some tm.ctx →
    (∀ x ∈ (s.lineSeq tm.ctx core).takeWhile (fun x => x != (u, b.line)), s.restoring x = false) → (∀ c ∈ s.coreCtxs, c.core = core → s.spilling core c.ctx = false) →
    exec (.lineArrival u b.line) s = .next (s.onTeam u (fun t => { t with absent := t.absent.filter (fun x => x.line != b.line) }))) ∧
  (∀ (u k : Nat) (tm : Team) (g : Group) (l : Launch) (m : Image) (ia : Word) (e : LaneMask), Holds s u k tm g l m → g.fragment = some (ia, e) →
    262144 ≤ ia.toNat → (l.image, ia.toNat / 256) ∉ (s.core g.core).fetched → ∃ t, exec (.instructionFetch u k) s = .next t ∧
      (t.core g.core).fetched = (l.image, ia.toNat / 256) :: (s.core g.core).fetched ∧ { t with cores := s.cores } = s) ∧
  (∀ e ∈ s.wc, Plain s → s.pubs = [] → TidyBuffers s → Memory.wf s.mem = true → e.part = s.part → ∃ t, exec (.wcAgeExpiry e.id) s = .next t ∧
    t.wc = s.wc.filter (fun x => x.id != e.id) ∧
    (∀ b, t.teamByte e.team e.ctx e.core b = s.teamByte e.team e.ctx e.core b) ∧
    (s.holds e.team = false → ∀ b, Memory.get t.mem b = (cellAt b e.cells).getD (Memory.get s.mem b)) ∧
    (s.holds e.team = true → e.line * 256 < Config.hostBase → t.mem = s.mem) ∧
    { t with wc := s.wc, mem := s.mem, held := s.held, poison := s.poison, reqs := s.reqs, nextId := s.nextId } = s) ∧
  (∀ (r : Req) (e : WcEntry), r.wc = some e → r.host = false → s.reqs.find? (fun x => x.id == r.id && x.wc.isSome && !x.host) = some r →
    (∀ b : Bool, ∃ t, exec (.storeRefusal r.id b) s = .next t ∧ t.reqs = s.reqs.filter (fun x => x.id != r.id) ∧
      t.heldOut = s.heldOut.filter (fun x => x.id != e.id) ∧ { t with reqs := s.reqs, heldOut := s.heldOut, launches := s.launches, teams := s.teams, coreCtxs := s.coreCtxs } = s ∧
      (∀ x tm g, e.stores = [x] → s.team? x.team = some tm → tm.ended = false → tm.group? x.grp = some g → g.ended = false →
        g.pend = [] → ∃ g', t.group? x.team x.grp = some g' ∧
          g'.pend = [⟨0x11, if b then 1 else 0, 0, false, some x.pc, x.addr, none, some x.gid⟩] ∧ { g' with pend := [] } = g))) ∧
  (∀ (p : Packet) (core scope : Nat), p.kind = 7 → p.dstPart = s.part → p.payload = promotionPayload core scope → core < 65536 → scope < 256 →
    (p.srcPart ≠ s.part → scope < 3 → exec (.promotionRequest core scope p) s = .next { s with
      marks := ⟨p.key / 256, core, p.srcPart, false⟩ :: s.marks.filter (fun m => m.line != p.key / 256), out := .packet (s.stamped (replyTo p 0 [])) :: s.out }) ∧
    (3 ≤ scope → s.wc = [] → s.heldOut = [] → s.awaits core 0 scope = false → s.promotees core = [] →
      (p.srcPart ≠ s.part → exec (.promotionRequest core scope p) s = .next { s with out := .packet (s.stamped (replyTo p 0 [])) :: s.out }) ∧
      (p.srcPart = s.part → p.cut = false → (∃ b, ⟨p.key / 256, core, s.part, b⟩ ∈ s.marks) →
        exec (.promotionRequest core scope p) s = .next { s with marks := s.marks.filter (fun x => x.line != p.key / 256) }))) ∧
  (∀ (o : TileOp) (tm : Team) (g : Group), s.tileops.find? (fun x => x.id == o.id) = some o → s.team? o.team = some tm → tm.uid = o.team →
    s.group? o.team o.grp = some g → s.tileops.takeWhile (fun x => x.id != o.id) = [] → s.engineRuns o.team = true → (∀ x ∈ o.order, s.engineActive tm (tm.tileCore (o.first + x.1 * o.nt + x.2)) = true) →
    o.kind ≤ 3 → o.at_ = 0 → o.cor = [] → o.unc = [] → (∀ c ∈ s.copies, c.team ≠ o.team) → (∀ w ∈ s.works, w.team ≠ o.team) → tm.absent = [] → tm.bad = [] → tm.badTiles = [] → Memory.wf tm.scratch = true →
    (o.kind = 2 ∨ o.kind = 3 → ∀ x ∈ o.order, (tm.tile (o.first + x.1 * o.nt + x.2)).check o.tol = .pass) →
    ∃ t t' g', exec (.tileopCompletion o.id) s = .next t ∧ t.team? o.team = some t' ∧ t'.group? o.grp = some g' ∧
      g' = { g with ctrs := setAt g.ctrs o.ctr (getAt g.ctrs o.ctr 0 - 1) } ∧ t.tileops = s.tileops.filter (fun x => x.id != o.id) ∧
      { t with tileops := s.tileops, teams := s.teams } = s ∧ { t' with groups := tm.groups, scratch := tm.scratch, tiles := tm.tiles } = tm ∧
      (∀ k, k < 4 → Memory.get t'.scratch (o.block + 0x3C + k) = if k = 3 then 0x80 else 0) ∧
      (o.kind = 0 → (∀ b, b < o.block + 0x3C ∨ o.block + 0x40 ≤ b → Memory.get t'.scratch b = Memory.get tm.scratch b) ∧
        ∀ x ∈ o.order, ∀ r k, r < 16 → k < 16 → (tm.tile (o.first + x.1 * o.nt + x.2)).elems.length = 256 →
          getAt (t'.tile (o.first + x.1 * o.nt + x.2)).elems (16 * r + k) 0 =
            gemmElem o tm.scratch x.1 x.2 r k (getAt (tm.tile (o.first + x.1 * o.nt + x.2)).elems (16 * r + k) 0)) ∧
      (o.kind = 2 → t'.tiles = tm.tiles ∧ ∀ b, b < o.block + 0x3C ∨ o.block + 0x40 ≤ b → Memory.get t'.scratch b = Memory.get tm.scratch b) ∧
      (o.kind = 3 → (∀ x ∈ o.order, t'.tile (o.first + x.1 * o.nt + x.2) = Tile.clear) ∧
        ∀ b, b < o.block + 0x3C ∨ o.block + 0x40 ≤ b → Memory.get t'.scratch b = (lastStored (drnRows o tm) b).getD (Memory.get tm.scratch b)))

/-! ### Engines -/

namespace Sys2Proof.Claims

open Sys2Proof.Machine
open Host (Outcome Cell)

/-- The bytes of a completion record, where one is wanted (R186): DONE, FAULT and cause; bytes; refused and delivered bits. -/
def compBytes (comp : Option Nat) (fault : Bool) (cause bytes refused delivered : Nat) : List (Nat × List Byte) :=
  comp.toList.map (fun c => (c, wordsBytes [BitVec.ofNat 32 (2 ^ 31 + (if fault then 2 ^ 30 else 0) + cause % 256), BitVec.ofNat 32 bytes,
    BitVec.ofNat 32 refused, BitVec.ofNat 32 delivered]))

/-- A barrier after a transfer unit's arrival: one without a member count takes none (R201, R203). -/
def barAfter (bars : List Barrier) (n : Nat) : List Barrier :=
  if (getAt bars n ⟨0, 0, 0⟩).expected = 0 then bars else setAt bars n (arrived (getAt bars n ⟨0, 0, 0⟩))

/-- A team's scratchpad holds some byte strings over what it held, the last of them uppermost. -/
def Lands (tm tm' : Team) (xs : List (Nat × List Byte)) : Prop :=
  ∀ b, Memory.get tm'.scratch b = (lastStored xs b).getD (Memory.get tm.scratch b)

/-- A team copy of one slice, of which nothing has moved, is at its turn in a team that holds no store back (R189, R191). -/
structure OneSlice (s : State) (u n : Nat) (tm : Team) (m : Image) (sl : Slice) : Prop where
  copy : ∃ c, s.teamCopy? u n = some c ∧ c.started = true ∧ c.slices = [sl]
  next : ∀ c ∈ s.copies, c.team = u → n ≤ c.n
  fresh : sl.ended = false ∧ sl.fault = false ∧ sl.landed = 0 ∧ recordOk sl.record = true ∧ 0 < sl.sectors
  free : s.compWaits u sl.comp = false
  team : s.team? u = some tm ∧ s.imageOf tm = some m ∧ tm.uid = u
  plain : Plain s
  scratch : Memory.wf tm.scratch = true

/-- An address of an engine is ordinary readable memory of this part (R187). -/
structure EngineReads (s : State) (ctx va pa : Nat) : Prop where
  mapped : ∃ l, s.translate ctx (BitVec.ofNat 64 va) .read = .ok l ∧ l.part = s.part ∧ l.pa = pa ∧ l.met = false
  unmetered : ∀ m l, s.translate ctx (BitVec.ofNat 64 va) .read = .ok l → s.meterRefuses l m = false
  correct : s.poisoned (s.placeFor ctx pa) 32 = false

/-- An address of an engine is ordinary writable memory of this part (R187). -/
structure EngineWrites (s : State) (ctx va pa : Nat) : Prop where
  mapped : ∃ l, s.translate ctx (BitVec.ofNat 64 va) .write = .ok l ∧ l.part = s.part ∧ l.pa = pa ∧ l.met = false
  unmetered : ∀ m l, s.translate ctx (BitVec.ofNat 64 va) .write = .ok l → s.meterRefuses l m = false

end Sys2Proof.Claims

/-- R187-R191, R186, R201: a team copy starts when all groups have supplied their slices, and its slices move: each sector to its place, the
completion record after them, the lines it fills present, one arrival on its barrier; a sector that cannot be reached stops its slice with the trap of
that fault, its lines left absent. The model's readings: rows of another part are asked for first (log 19), sr.tval of a lapse (log 50), a write with PUB outside every region (log 92), and a copy ends after the team's earlier ones (log 96). -/
def Obligations.CopiesComplete : Prop :=
  ∀ (s : State) (u n : Nat),
  (∀ (c : TeamCopy) (tm : Team), s.teamCopy? u n = some c → s.team? u = some tm → c.started = false →
    (∀ g ∈ tm.groups, g.idx ∈ c.issued ∨ g.ended = true) → (∀ k ∈ s.copies, k.team = u → k.n < n → k.started = true) →
    ∃ t, exec (.teamCopyStart u n) s = .next t ∧ t.teamCopy? u n = some { c with started := true } ∧
      t.due = s.due ++ [.teamCopyEnd u n] ∧ { t with copies := s.copies, due := s.due } = s) ∧
  (∀ (tm : Team) (m : Image) (sl : Slice) (pa : Nat → Nat), OneSlice s u n tm m sl →
    (sl.dir = 0 → (∀ k, k < sl.sectors → EngineReads s tm.ctx (sl.gaddr k) (pa k)) → ∃ t tm', exec (.teamCopyEnd u n) s = .next t ∧
      t.team? u = some tm' ∧
      Lands tm tm' ((List.range sl.sectors).map (fun k => (sl.soff k, s.teamRead u tm.ctx tm.core (pa k) 32)) ++ compBytes sl.comp false 0 (32 * sl.sectors) 0 0) ∧
      tm'.absent = tm.absent.filter (fun a => !(a.pending && a.owner == .copy n sl.grp)) ∧ tm'.bars = barAfter tm.bars sl.bar ∧
      (∀ l, l ∈ tm'.bad ↔ l ∈ tm.bad ∧ l ∉ sl.whole) ∧
      { tm' with scratch := tm.scratch, absent := tm.absent, bad := tm.bad, bars := tm.bars } = tm ∧ (∀ v, v ≠ u → t.team? v = s.team? v) ∧
      t.copies = s.copies.filter (fun k => !(k.team == u && k.n == n)) ∧ { t with teams := s.teams, copies := s.copies } = s) ∧
    (sl.sectors = 1 → sl.dir = 2 → tm.absentLine? (sl.gaddr 0 / 256) = none → sl.gaddr 0 / 256 ∉ tm.bad → ∃ t tm', exec (.teamCopyEnd u n) s = .next t ∧
      t.team? u = some tm' ∧ Lands tm tm' ([(sl.soff 0, Memory.read tm.scratch (sl.gaddr 0) 32)] ++ compBytes sl.comp false 0 32 0 0) ∧
      tm'.bars = barAfter tm.bars sl.bar ∧ { t with teams := s.teams, copies := s.copies } = s) ∧
    (sl.sectors = 1 → sl.dir = 1 → sl.pub = false → tm.committed = true → Memory.wf s.mem = true → EngineWrites s tm.ctx (sl.gaddr 0) (pa 0) →
      tm.absentLine? (sl.soff 0 / 256) = none → sl.soff 0 / 256 ∉ tm.bad → ∃ t tm', exec (.teamCopyEnd u n) s = .next t ∧ t.team? u = some tm' ∧
      Lands tm tm' (compBytes sl.comp false 0 32 0 0) ∧ tm'.bars = barAfter tm.bars sl.bar ∧
      (∀ b, Memory.get t.mem b = (lastStored [(s.place (pa 0), Memory.read tm.scratch (sl.soff 0) 32)] b).getD (Memory.get s.mem b)) ∧
      { t with teams := s.teams, copies := s.copies, mem := s.mem, poison := s.poison } = s) ∧
    (sl.dir = 0 → s.translate tm.ctx (BitVec.ofNat 64 (sl.gaddr 0)) .read = .fault → (∀ g, tm.group? sl.grp = some g → g.pend = []) →
      ∃ t tm', exec (.copyFault u n sl.grp) s = .next t ∧ t.team? u = some tm' ∧ Lands tm tm' (compBytes sl.comp true 0x04 0 0 0) ∧
      (∀ g, tm.group? sl.grp = some g → tm'.group? sl.grp = some { g with pend := [⟨0x04, 0, 0, false, some sl.pc, BitVec.ofNat 64 (sl.gaddr 0), none, none⟩] }) ∧
      (∀ a ∈ tm'.absent, a.owner = .copy n sl.grp → a.pending = false ∧ (∃ b ∈ tm.absent, b.line = a.line)) ∧
      (∃ c sl', t.teamCopy? u n = some c ∧ c.slices = [sl'] ∧ sl'.ended = true ∧ sl'.fault = true ∧ sl'.cause = 0x04) ∧
      { t with teams := s.teams, copies := s.copies } = s))

/-- R193-R195, R197, R199, R276: once the writes to the shadow that it waited for have landed, PUBLISH's exchange turns the selector and lets its group
go on, then the visible copy is copied into the shadow; a send
reaches its receivers in the order of its bits, each taking it whole with an arrival or refusing it whole; its end writes the
record and arrives on the sender's barrier. -/
def Obligations.ExchangesAndSendsComplete : Prop :=
  ∀ (s : State),
  (∀ (u k : Nat) (tm : Team) (g : Group) (p : PubRegion) (slices : List (Nat × Nat)) (colls : List Nat), s.team? u = some tm → tm.group? k = some g →
    g.wait = .publish p.va slices colls → s.region? (s.pubCtx tm.ctx) p.va = some p → p.copying = false →
    (∀ x ∈ slices, x ∉ (s.shadowWrites u p).1) → (∀ x ∈ colls, x ∉ (s.shadowWrites u p).2) → s.twins = [] →
    ∃ t, exec (.publishExchange u k) s = .next t ∧ t.region? (s.pubCtx tm.ctx) p.va = some { p with sel := !p.sel, copying := true } ∧
      t.group? u k = some { g with wait := .none } ∧ Instr.publishBackgroundCopy tm.ctx p.va ∈ t.due ∧
      { t with teams := s.teams, pubs := s.pubs, due := s.due } = s) ∧
  (∀ (p : PubRegion), s.pubCtx p.ctx = p.ctx → s.region? p.ctx p.va = some p → p.copying = true → s.twins = [] → Memory.wf s.mem = true →
    p.moves = [] → s.migrations = [] → p.bytes % 65536 = 0 →
    ∃ t, exec (.publishBackgroundCopy p.ctx p.va) s = .next t ∧ t.region? p.ctx p.va = some { p with copying := false } ∧
      (∀ b, let sh := if p.sel then p.pa else p.pa + p.bytes
        let vis := if p.sel then p.pa + p.bytes else p.pa
        Memory.get t.mem b = if sh ≤ b ∧ b < sh + p.bytes then Memory.get s.mem (b - sh + vis) else Memory.get s.mem b) ∧
      { t with mem := s.mem, pubs := s.pubs, poison := s.poison } = s) ∧
  (∀ (x : Send) (tm : Team) (bit : Nat) (rest : List Nat), s.sends.find? (fun y => y.id == x.id) = some x → s.team? x.team = some tm → s.twins = [] →
    x.left = bit :: rest → (∀ l ∈ linesOf x.soff x.bytes, tm.absentLine? l = none ∧ l ∉ tm.bad) →
    (s.receiver? tm (x.base + bit) = none → exec (.mcastReceipt x.id bit) s = .next { s with
      sends := s.sends.map (fun y => if y.id = x.id then { y with left := y.left.drop 1, refused := y.refused ||| BitVec.ofNat 32 (2 ^ bit) } else y) }) ∧
    (∀ r, s.receiver? tm (x.base + bit) = some r → s.team? r.uid = some r →
      (s.refuses x r = true → exec (.mcastReceipt x.id bit) s = .next { s with
        sends := s.sends.map (fun y => if y.id = x.id then { y with left := y.left.drop 1, refused := y.refused ||| BitVec.ofNat 32 (2 ^ bit) } else y) }) ∧
      (s.refuses x r = false → (∀ a ∈ s.accessions, a.team ≠ r.uid) → Memory.wf r.scratch = true → ∃ t r', exec (.mcastReceipt x.id bit) s = .next t ∧ t.team? r.uid = some r' ∧
        Lands r r' [(x.doff, Memory.read tm.scratch x.soff x.bytes)] ∧ r'.bars = barAfter r.bars x.rbar ∧
        (∀ a, a ∈ r'.absent ↔ a ∈ r.absent ∧ ¬ (x.doff ≤ a.line * 256 ∧ a.line * 256 + 256 ≤ x.doff + x.bytes)) ∧
        (∀ l ∈ r'.bad, l ∈ r.bad) ∧ { r' with scratch := r.scratch, bars := r.bars, absent := r.absent, bad := r.bad } = r ∧
        (∀ v, v ≠ r.uid → t.team? v = s.team? v) ∧
        t.sends = s.sends.map (fun y => if y.id = x.id then { y with left := y.left.drop 1, delivered := y.delivered ||| BitVec.ofNat 32 (2 ^ bit) } else y) ∧
        { t with teams := s.teams, sends := s.sends } = s))) ∧
  (∀ (x : Send) (tm : Team), s.sends.find? (fun y => y.id == x.id) = some x → s.team? x.team = some tm → s.twins = [] → x.left = [] →
    s.compWaits x.team x.comp = false → Memory.wf tm.scratch = true → ∃ t tm', exec (.mcastSendEnd x.id) s = .next t ∧ t.team? x.team = some tm' ∧
      Lands tm tm' (compBytes x.comp false 0 (x.bytes * ((List.range 32).filter (fun k => x.delivered.getLsbD k)).length) x.refused.toNat x.delivered.toNat) ∧
      tm'.bars = barAfter tm.bars x.bar ∧ { tm' with scratch := tm.scratch, bars := tm.bars } = tm ∧
      t.sends = s.sends.filter (fun y => y.id != x.id) ∧ { t with teams := s.teams, sends := s.sends } = s)

/-- R187, R207-R209, R215, R344, R375: a tile that has arrived fills the lines that wait for its slip; a slip whose lifetime has passed leaves them
unfilled and its waiting groups with the lapse; an ACCESSION's tile is read into its slice's share of the hub's
holdings; a collective that does not agree ends with the
fault, and one of a single part stores its source at its destination and arrives, a release of which nothing is left to wait for. The model's readings: a faulty collective only writes its record (log 49), and a strict-relaunch team's is refused first (log 91). -/
def Obligations.TilesAndCollectivesComplete : Prop :=
  ∀ (s : State),
  (∀ (x : Slip) (tm : Team), s.slips.find? (fun y => y.id == x.id) = some x → s.team? x.team = some tm → Memory.wf tm.scratch = true →
    (∀ bs, x.data = some bs → bs.length = 4096 → (∀ a ∈ s.accessions, a.team ≠ x.team) → (∀ l ∈ tm.slipLines x.id, x.line ≤ l ∧ l < x.line + 16) → ∃ t tm', exec (.tileDelivery x.id) s = .next t ∧
      t.team? x.team = some tm' ∧
      (∀ b, Memory.get tm'.scratch b = if b / 256 ∈ tm.slipLines x.id then getAt bs (b - x.line * 256) 0 else Memory.get tm.scratch b) ∧
      (∀ a, a ∈ tm'.absent ↔ a ∈ tm.absent ∧ a.line ∉ tm.slipLines x.id) ∧ (∀ l, l ∈ tm'.bad ↔ l ∈ tm.bad ∧ l ∉ tm.slipLines x.id) ∧
      { tm' with scratch := tm.scratch, absent := tm.absent, bad := tm.bad } = tm ∧
      t.slips = s.slips.filter (fun y => y.id != x.id) ∧ { t with teams := s.teams, slips := s.slips } = s) ∧
    (x.data = none → ∃ t tm', exec (.slipLapse x.id) s = .next t ∧ t.team? x.team = some tm' ∧
      tm'.absent = tm.absent.map (fun a => if a.pending ∧ a.owner = .slip x.id then { a with pending := false, why := 0 } else a) ∧
      tm'.groups = tm.groups.map (fun g => if ∃ l ∈ g.lineWait, l ∈ tm.slipLines x.id then { g with lapse := some (0x0B, 0, x.name.tile ++ x.name.tensor, g.lastExec) } else g) ∧
      { tm' with absent := tm.absent, groups := tm.groups } = tm ∧
      t.slips = s.slips.filter (fun y => y.id != x.id) ∧ { t with teams := s.teams, slips := s.slips } = s)) ∧
  (∀ (x : AccessionOp) (tm : Team), s.accessions.find? (fun y => y.id == x.id) = some x → s.team? x.team = some tm → s.twins = [] →
    (∀ l ∈ linesOf x.offset 4096, l ∉ tm.bad) → (∀ e ∈ (s.router (.hub x.die)).pending, e.name ≠ x.name) →
    let k := s.sliceOf tm.ctx
    let room := s.holdShare (.hub x.die) k
    let mine := fun (q : RouterSt) => q.holdings.filter (fun h => h.slice == k)
    0 < room → ∃ t h, exec (.accessionHoldingReady x.id) s = .next t ∧ t.accessions = s.accessions.filter (fun y => y.id != x.id) ∧
      h ∈ (t.router (.hub x.die)).holdings ∧ h.name = x.name ∧ h.slice = k ∧ h.data = Memory.read tm.scratch x.offset 4096 ∧
      (∀ k ∈ (s.router (.hub x.die)).holdings, k.used < h.used) ∧
      (∀ y ∈ (s.router (.hub x.die)).holdings, y.slice ≠ k ∨ (mine (s.router (.hub x.die))).length < room → y ∈ (t.router (.hub x.die)).holdings) ∧
      (mine (t.router (.hub x.die))).length ≤ max room (mine (s.router (.hub x.die))).length ∧
      (∀ r, r ≠ .hub x.die → t.router r = s.router r) ∧ { t with accessions := s.accessions, routers := s.routers, bguse := s.bguse } = s) ∧
  (∀ (c : CollOp) (tm : Team) (l : Launch) (m : Image), s.colls.find? (fun y => y.id == c.id) = some c → s.team? c.team = some tm →
    s.launch? tm.launch = some l → s.image? l.image = some m → s.twins = [] → Memory.wf tm.scratch = true →
    c.landed = none → s.compWaits c.team c.comp = false → (∀ parts, ∃ t tm', exec (.collectiveEnd c.id false parts) s = .next t ∧ t.team? c.team = some tm' ∧ Lands tm tm' (compBytes c.comp true 0x01 0 0 0) ∧
      tm'.bars = barAfter tm.bars c.bar ∧ t.colls = s.colls.filter (fun y => y.id != c.id) ∧ { t with teams := s.teams, colls := s.colls } = s) ∧
    (∀ src dst, 2 ≤ c.kind → c.kind ≤ 5 → l.replica = 0 → (getAt c.words 4 0).toNat = 32 → (getAt c.words 6 0).toNat = 1 → (getAt c.words 5 0).toNat / 256 = 0 →
      Plain s → s.pubs = [] → tm.committed = true → Memory.wf s.mem = true → c.src.fault = false →
      c.src.record = [getAt c.words 0 0, getAt c.words 1 0, 0, 32, 1, 32, 0, 0] →
      (∀ e ∈ s.wc, e.core ≠ tm.core) → (∀ r ∈ s.reqs, r.team ≠ c.team) → (∀ e ∈ s.heldOut, e.team ≠ c.team) → s.awaits tm.core c.team 6 = false →
      let va := fun (k : Nat) => (getAt c.words k 0).toNat + 2 ^ 32 * (getAt c.words (k + 1) 0).toNat
      EngineReads s tm.ctx (va 0) src → EngineWrites s tm.ctx (va 2) dst → ∃ t tm', exec (.collectiveEnd c.id true [[]]) s = .next t ∧ t.team? c.team = some tm' ∧
        (∀ b, Memory.get t.mem b = (lastStored [(dst, s.teamRead c.team tm.ctx tm.core src 32)] b).getD (Memory.get s.mem b)) ∧
        Lands tm tm' (compBytes c.comp false 0 32 0 0) ∧ tm'.bars = barAfter tm.bars c.bar ∧
        t.colls = s.colls.filter (fun y => y.id != c.id) ∧ { t with teams := s.teams, colls := s.colls, mem := s.mem, poison := s.poison } = s))

/-! ### Launches, teams and facsimiles -/

namespace Sys2Proof.Claims

open Sys2Proof.Machine
open Host (Outcome Cell)

/-- A virtual address of a context at which the part may write `n` bytes of one line, at its own home `pa`. -/
structure PartWrites (s : State) (ctx va n pa : Nat) : Prop where
  plain : Plain s
  line : va % 256 + n ≤ 256
  mapped : ∃ l, s.translate ctx (BitVec.ofNat 64 va) .write = .ok l ∧ l.part = s.part ∧ l.pa = pa
  unheld : s.team? s.nextId = none
  mem : Memory.wf s.mem = true

/-- Memory after bytes have been written at a home: those bytes, and everything else as before. -/
def Wrote (s t : State) (pa : Nat) (bs : List Byte) : Prop :=
  ∀ b, Memory.get t.mem b = (lastCell ((List.range bs.length).map (fun k => (s.place (pa + k), getAt bs k 0))) b).getD (Memory.get s.mem b)

/-- Between two states a completion record or refusal has been written to COMPL, or nothing where COMPL is 0 (R288). -/
def Answered (s t : State) (ctx compl : Nat) (bs : List Byte) : Prop :=
  (compl = 0 → t.mem = s.mem) ∧ (compl ≠ 0 → ∀ pa, PartWrites s ctx compl 32 pa → Wrote s t pa bs)

/-- COMPL of a packet is 0 or lies where the part may write a record. -/
def CanAnswer (s : State) (ctx compl : Nat) : Prop := compl ≠ 0 → ∃ pa, PartWrites s ctx compl 32 pa

/-- R288: the words of a record, lowest address first. -/
def recordWords (status tlin : Nat) (tpc gen : Word) (tval : Dword) (launch : Word) (teams : Nat) : List Byte :=
  wordsBytes [BitVec.ofNat 32 status, BitVec.ofNat 32 tlin, tpc, gen, tval.extractLsb' 0 32, tval.extractLsb' 32 32, launch, BitVec.ofNat 32 teams]

/-- A queue's packet has been taken off its list, and the next of its priority may be looked at (R286). -/
def unlinked (q : Queue) (h : Linked) : Queue := { q with linked := q.linked.filter (fun k => k.addr != h.addr) }

/-- A launch has been admitted from a packet with a generation number and the placement that it has reserved (R286, R289). -/
def Enters (s t : State) (q : Queue) (h : Linked) (gen : Word) (res : List GangRes) (l : Launch) : Prop :=
  t.launches = s.launches ++ [l] ∧ l.uid = s.nextId ∧ l.ctx = q.ctx ∧ l.queue = q.num ∧ l.prio = bytesAt h.packet 0x1E 1 ∧ l.gen = gen ∧
  (∀ c, s.ctx? q.ctx = some c → l.id = c.launches ∧ t.ctx? q.ctx = some { c with launches := c.launches + 1 }) ∧
  l.image = bytesAt h.packet 0x08 8 ∧ l.gx = bytesAt h.packet 0x10 4 ∧ l.gy = bytesAt h.packet 0x14 4 ∧ l.gz = bytesAt h.packet 0x18 4 ∧
  l.compl = bytesAt h.packet 0x28 8 ∧ l.repl = bytesAt h.packet 0x30 2 ∧ (l.repl ≤ 1 → l.replica = 0) ∧ l.res = res ∧ l.next = 0 ∧ l.again = [] ∧ l.ended = [] ∧ l.placed = [] ∧ l.hands = [] ∧
  l.fatal = none ∧ l.report = none ∧ l.stopped = false ∧ l.kinds = [] ∧ l.concord = List.replicate 1024 0xFF ∧ l.oldest = 0 ∧
  Instr.dispatchDecision (s.sliceOf q.ctx) ∈ t.due

/-- The state of the dependences that a head names, each at this part (R287): its record's address and its STATUS. -/
def DepAt (s : State) (ctx : Nat) (h : Linked) (k addr status : Nat) : Prop :=
  (∃ l, s.translate ctx (BitVec.ofNat 64 (bytesAt h.packet 0x20 8 + 8 * k)) .read = .ok l ∧ l.part = s.part ∧ s.viewRead ctx l.pa 8 = leBytes 8 addr) ∧
  addr < 2 ^ 64 ∧ status < 2 ^ 32 ∧
  (∃ l, s.translate ctx (BitVec.ofNat 64 addr) .read = .ok l ∧ l.part = s.part ∧ s.viewRead ctx l.pa 4 = leBytes 4 status)

/-- A lane of a group right after its team has been placed: zero registers, no predicate but p0, running from offset 0 (R39). -/
def FreshLane (l : Lane) (regs : Nat) : Prop :=
  l.regs = List.replicate regs 0 ∧ l.preds = 1 ∧ l.pcv = 0 ∧ l.exited = false ∧ l.waitm = none ∧ l.yx = false

/-- A team right after it has been placed (R19, R39, R229, R265). -/
structure FreshTeam (tm : Team) (m : Image) : Prop where
  barriers : tm.bars = List.replicate 16 ⟨0, 0, 0⟩
  empty : tm.scratch = [] ∧ tm.absent = [] ∧ tm.tiles = [] ∧ tm.shelf = [] ∧ tm.errata = [] ∧ tm.quota = [] ∧ tm.heldLaunches = []
  flags : tm.committed = m.boosted ∧ tm.handed = false ∧ tm.ended = false ∧ tm.killed = false ∧ tm.pair = m.paired
  groups : tm.groups.length = m.lanes / max m.width 1
  lanes : ∀ g ∈ tm.groups, g.lanes.length = m.width ∧ (∀ l ∈ g.lanes, FreshLane l m.regs) ∧ g.masks = List.replicate 12 0 ∧ g.ctrs = [0, 0, 0, 0] ∧
    g.rm = 0 ∧ g.wb = 0 ∧ g.handler = 0 ∧ g.tol = 0x37800000 ∧ g.ret = 0 ∧ g.wait = .none ∧ g.ended = false ∧ g.undo = false

/-- A team that may end: its last group ends with nothing outstanding, in no twin (R22). -/
structure LastGroup (s : State) (u k : Nat) (tm : Team) (g : Group) : Prop where
  running : tm.ended = false ∧ tm.killed = false ∧ tm.aborting = none ∧ g.ended = false ∧ g.undo = false
  done : s.quiet u k = true ∧ g.live = 0 ∧ (∀ c ∈ g.ctrs, c = 0)
  out : ∀ e ∈ s.heldOut, e.team ≠ u
  reports : (∀ a ∈ g.pend, a.cause ≠ 0x11) ∧ (s.coreCtx g.core tm.ctx).reports = []
  plain : Plain s
  others : ∀ h ∈ tm.groups, h.idx ≠ k → h.ended = true
  engines : s.engineBusy u = false
  drained : (∀ e ∈ s.wc, e.team ≠ u) ∧ ∀ r ∈ s.reqs, r.team ≠ u
  mem : Memory.wf s.mem = true

/-- The cells of some teams' held lines, in the order in which they are released (R269, R294). -/
def heldCells (s : State) (us : List Nat) : List Cell := ((us.map (fun u => (s.held.filter (fun h => h.team == u)).map (fun h => h.cells))).flatten).flatten

end Sys2Proof.Claims

/-- R226, R263, R285-R294, R313: a host's packet is linked at its queue's tail; a head that passes its checks waits for its dependences, and one that
fails them, or whose dependence failed, is refused with its code, or tells its replica set; the next ready head of the highest priority is admitted,
with a start count, or refused where a cooperative grid cannot fit, or goes to the start barrier, whose result admits or refuses it; a decision seats
the next team on the free core with the most slots, with a save area; a gang ages. The model's readings: the monitor's own packets (log 24), PRIO above 7 (log 25), HOST_FED_APPEND (log 26), placements of R293 and
R379 (logs 27, 28), what a waiting replica holds (log 54), and when the hold overflow area is drawn (log 93). -/
def Obligations.LaunchesAreDispatched : Prop :=
  ∀ (s : State) (q : Queue), s.queue? q.num = some q →
  (∀ (addr : Nat) (bs : List Byte), q.deviceFed = false → addr ≠ 0 → s.vaRead q.ctx addr 64 = some bs →
    (∀ s1 next, s.vaRead q.ctx q.tail 8 = some next → (leNat next = addr ∧ s1 = s ∨ leNat next = 0 ∧ addr ≠ 0 ∧ s.vaWrite q.ctx q.tail (leBytes 8 addr) = some s1) →
      s1.queue? q.num = some q → ∃ t, exec (.hostFedAppend q.num addr) s = .next t ∧
        t.queue? q.num = some { q with tail := addr, linked := q.linked ++ [⟨bytesAt bs 0x1E 1 % 8, addr, bs, false, false, []⟩] } ∧
        Instr.dependenceReady q.num (bytesAt bs 0x1E 1 % 8) ∈ t.due ∧ { t with queues := s1.queues, due := s1.due } = s1)) ∧
  (∀ (prio : Nat) (h : Linked), q.head? prio = some h → h.ready = false → q.waits h.addr = false →
    (∀ code, h.checked = false → s.headStatus q h = some code → bytesAt h.packet 0x30 2 ≤ 1 ∨ 0x0B < code → CanAnswer s q.ctx (bytesAt h.packet 0x28 8) →
      ∃ t, exec (.dependenceReady q.num prio) s = .next t ∧ t.queue? q.num = some (unlinked q h) ∧
        Answered s t q.ctx (bytesAt h.packet 0x28 8) (recordWords (0xC0000000 + code) 0 0 0 0 0 0) ∧
        { t with queues := s.queues, due := s.due, mem := s.mem, poison := s.poison } = s) ∧
    (∀ code, h.checked = false → s.headStatus q h = some code → 1 < bytesAt h.packet 0x30 2 → code ≤ 0x0B → s.quarantined q.ctx = false →
      ∃ t, exec (.dependenceReady q.num prio) s = .next t ∧
        t.queue? q.num = some { q with barrier := q.barrier ++ [⟨h.prio, h.addr, bytesAt h.packet 0x08 8, false, [], none⟩] } ∧
        { t with queues := s.queues, out := s.out } = s) ∧
    (∀ (addr st : Nat → Nat), h.checked = true ∨ s.headStatus q h = none → (∀ k, k < bytesAt h.packet 0x1F 1 → DepAt s q.ctx h k (addr k) (st k) ∧ (st k).testBit 31 = true) →
      ((∀ k, k < bytesAt h.packet 0x1F 1 → (st k).testBit 30 = false ∧ (st k).testBit 29 = false) → ∃ t, exec (.dependenceReady q.num prio) s = .next t ∧
        t.queue? q.num = some { q with linked := q.linked.map (fun k => if k.addr = h.addr then { k with checked := true, ready := true } else k) } ∧
        Instr.launchAdmission (s.sliceOf q.ctx) ∈ t.due ∧ { t with queues := s.queues, due := s.due } = s) ∧
      (∀ k, k < bytesAt h.packet 0x1F 1 → ((st k).testBit 30 = true ∨ (st k).testBit 29 = true) →
        (∀ j, j < k → (st j).testBit 30 = false ∧ (st j).testBit 29 = false) → CanAnswer s q.ctx (bytesAt h.packet 0x28 8) →
        ∃ t, exec (.dependenceReady q.num prio) s = .next t ∧ (∃ q', t.queue? q.num = some q' ∧ ∀ x ∈ q'.linked, x.addr ≠ h.addr) ∧
          Answered s t q.ctx (bytesAt h.packet 0x28 8) (recordWords 0xC0000023 0 0 0 (BitVec.ofNat 64 (addr k)) 0 0)))) ∧
  (∀ (slice : Nat) (h : Linked) (m : Image), s.admitted slice + s.starting slice < 64 → s.nextHead slice = some (q, h) →
    s.image? (bytesAt h.packet 0x08 8) = some m →
    (h.ready = true ∧ h ∈ q.linked ∧ s.sliceOf q.ctx = slice ∧ s.isRecalled q.ctx = false ∧ ∀ p, h.prio < p → p < 8 → s.readyHeads slice p = []) ∧
    let teams := bytesAt h.packet 0x10 4 * bytesAt h.packet 0x14 4 * bytesAt h.packet 0x18 4
    (∀ s1, m.coop = false ∨ teams ≤ s.sliceCapacity m slice → s.overflowArea q.ctx m.det = some s1 → { s1 with areas := s.areas } = s ∧
      ((∀ a ∈ s.areas, a.kind = .overflow → a.ctx ≠ q.ctx) → m.det = true → ∀ k, k < 16 → (s.sliceStacks q.ctx).getLsbD k = true →
        (⟨.overflow, q.ctx, k, 1024⟩ : Area) ∈ s1.areas) ∧
      (bytesAt h.packet 0x30 2 ≤ 1 → ∃ t l, exec (.launchAdmission slice) s = .next t ∧
        Enters s t q h (q.nextGen.getD (BitVec.ofNat 32 (q.starts + 1))) [] l ∧
        t.queue? q.num = some { unlinked q h with barrier := q.barrier.filter (fun w => w.addr != h.addr), nextGen := none, starts := q.starts + 1 } ∧
        t.areas = s1.areas ∧
        { t with launches := s.launches, ctxs := s.ctxs, queues := s.queues, served := s.served, due := s.due, nextId := s.nextId, areas := s.areas } = s) ∧
      (1 < bytesAt h.packet 0x30 2 → s.quarantined q.ctx = false → ∃ t res, exec (.launchAdmission slice) s = .next t ∧
        t.queue? q.num = some { q with barrier := q.barrier ++ [⟨h.prio, h.addr, bytesAt h.packet 0x08 8, true, res, none⟩] } ∧
        { t with queues := s.queues, out := s.out, due := s.due } = s1)) ∧
    (m.coop = true → s.sliceCapacity m slice < teams → 1 < bytesAt h.packet 0x30 2 → s.quarantined q.ctx = false →
      ∃ t, exec (.launchAdmission slice) s = .next t ∧
        t.queue? q.num = some { q with barrier := q.barrier ++ [⟨h.prio, h.addr, bytesAt h.packet 0x08 8, false, [], none⟩] } ∧
        { t with queues := s.queues, out := s.out, due := s.due } = s) ∧
    (m.coop = true → s.sliceCapacity m slice < teams → bytesAt h.packet 0x30 2 ≤ 1 → CanAnswer s q.ctx (bytesAt h.packet 0x28 8) → ∃ t, exec (.launchAdmission slice) s = .next t ∧
      t.queue? q.num = some (unlinked q h) ∧ t.launches = s.launches ∧
      Answered s t q.ctx (bytesAt h.packet 0x28 8) (recordWords 0xC000000C 0 0 0 0 0 0))) ∧
  (∀ (h : Linked) (w : StartWait), q.barrier.find? (fun x => x.go.isNone) = some w → q.linked.find? (fun k => k.addr == w.addr) = some h →
    q.barrier.find? (fun x => x.addr == h.addr) = some w →
    (∀ count, s.isRecalled q.ctx = false → ∃ t l, exec (.startBarrierRelease q.num true 0 count) s = .next t ∧
      Enters s t q h (q.nextGen.getD (BitVec.ofNat 32 count)) w.res l ∧
      t.queue? q.num = some { unlinked q h with barrier := q.barrier.filter (fun x => x.addr != h.addr), nextGen := none }) ∧
    (∀ count, s.isRecalled q.ctx = true → ∃ t, exec (.startBarrierRelease q.num true 0 count) s = .next t ∧
      t.queue? q.num = some { q with barrier := q.barrier.map (fun v => if v = w then { v with go := some count } else v) } ∧
      { t with queues := s.queues } = s) ∧
    (CanAnswer s q.ctx (bytesAt h.packet 0x28 8) → ∀ e ∈ [((.startBarrierTimeout q.num : Instr), 0x24)] ++ (List.range 256).map (fun c => (.startBarrierRelease q.num false c 0, c)),
      ∃ t, exec e.1 s = .next t ∧ t.queue? q.num = some { unlinked q h with barrier := q.barrier.filter (fun x => x.addr != h.addr) } ∧
        t.launches = s.launches ∧ Answered s t q.ctx (bytesAt h.packet 0x28 8) (recordWords (0xC0000000 + e.2) 0 0 0 0 0 0))) ∧
  (∀ (slice core : Nat) (l : Launch) (m : Image) (s1 : State), s.serving slice = [l] → s.launches.Pairwise (fun x y => x.uid ≠ y.uid) → s.launch? l.uid = some l → s.image? l.image = some m → m.inGangs = false → m.coop = false →
    l.res = [] → l.again = [] → l.next < l.teamCount → l.next ∉ l.placed → s.storeBufs = [] → s.twinOf? l.ctx = none → core ∈ s.sliceCores m (s.sliceOf l.ctx) → s.canPlace l m core = true →
    (if m.paired then m.evenSlots (s.pairUse core l.ctx).1 ≤ (s.freeSlots core l.ctx).length ∧
        m.slots - m.evenSlots (s.pairUse core l.ctx).1 ≤ (s.freeSlots (core + 1) l.ctx).length
      else m.slots ≤ (s.freeSlots core l.ctx).length) →
    (s.saveArea l.ctx core).bind (fun x => if m.paired then x.saveArea l.ctx (core + 1) else some x) = some s1 →
    (∀ c ∈ s.sliceCores m (s.sliceOf l.ctx), s.canPlace l m c = true → s.freeCount m c l.ctx < s.freeCount m core l.ctx ∨
      s.freeCount m c l.ctx = s.freeCount m core l.ctx ∧ core ≤ c) → ∃ t tm, exec (.dispatchDecision slice) s = .next t ∧ t.teams = s.teams ++ [tm] ∧
      FreshTeam tm m ∧ tm.launch = l.uid ∧ tm.tlin = l.next ∧ tm.ctx = l.ctx ∧ tm.core = core ∧ tm.uid = s.nextId ∧ tm.slots.length = m.slots ∧
      (∀ x ∈ tm.slots, (x.1 = core ∨ m.paired = true ∧ x.1 = core + 1) ∧ ∀ u ∈ s.teams, u.ctx = l.ctx → x ∉ u.slots) ∧
      t.launch? l.uid = some { l with next := l.next + 1, placed := l.placed ++ [l.next] } ∧ (s.core core).active = some l.ctx ∧
      t.areas = s1.areas ∧ (∀ c, c = core ∨ m.paired = true ∧ c = core + 1 → (∃ a ∈ t.areas, a.kind = .save c ∧ a.ctx = l.ctx) ∧
        ((s.teamsOn l.ctx c).isEmpty = true → (t.coreCtx c l.ctx).rot = none)) ∧
      (∀ c x, { t.coreCtx c x with rot := (s.coreCtx c x).rot } = s.coreCtx c x) ∧
      (∃ r, t.plog.getLast? = some r ∧ r.event = 0 ∧ r.tlin = l.next ∧ r.core = core ∧ r.ctx = l.ctx ∧ r.launch = l.id ∧ r.gen = l.gen) ∧
      lookupD slice 0 t.decisions = lookupD slice 0 s.decisions + 1 ∧
      { t with teams := s.teams, launches := s.launches, coreCtxs := s.coreCtxs, areas := s.areas, stamps := s.stamps, plog := s.plog, decisions := s.decisions, due := s.due,
               nextId := s.nextId, freeTick := s.freeTick } = s) ∧
  (∀ (l : Launch) (r : GangRes) (n : Nat), s.launch? l.uid = some l → r ∈ l.res → r.aged = false → r.first = some n → n + 4096 ≤ lookupD (s.sliceOf l.ctx) 0 s.decisions →
    ∃ t, exec (.gangAged l.uid r.gang) s = .next t ∧
      t.launch? l.uid = some { l with res := l.res.map (fun x => if x.gang = r.gang then { x with aged := true } else x) } ∧
      Instr.dispatchDecision (s.sliceOf l.ctx) ∈ t.due ∧ { t with launches := s.launches, due := s.due } = s)

/-- R22, R220, R229, R231, R232, R242, R265, R288, R294, R382: a group ends; with a team's last group its held lines are released, a hand-off that it
has not sent is made, and it leaves its slots at once, its lines and tiles to the scrubber; a deterministic gang's lines are released at its
retirement in order; a task stays until it commits in order; an aborted task runs its inverses and is relaunched; the record of a launch says how it
ended. The model's readings: late store reports (log 29), engine work at a team's end (log 30), a task's slots (log 33), tiles of a relaunched task
(log 58). -/
def Obligations.TeamsAndLaunchesEnd : Prop :=
  ∀ (s : State),
  (∀ (u k : Nat) (tm : Team) (g h : Group), s.team? u = some tm → tm.group? k = some g → h ∈ tm.groups → h.idx ≠ k → h.ended = false →
    tm.ended = false → tm.killed = false → tm.aborting = none → g.ended = false → g.undo = false → s.quiet u k = true → g.live = 0 → (∀ c ∈ g.ctrs, c = 0) →
    (∀ a ∈ g.pend, a.cause ≠ 0x11) → (s.coreCtx g.core tm.ctx).reports = [] → s.twins = [] → ∃ t, exec (.groupEnd u k) s = .next t ∧
      t.group? u k = some { g with ended := true } ∧ (∀ v j, v ≠ u ∨ j ≠ k → t.group? v j = s.group? v j) ∧
      (∀ c x, t.coreCtx c x = s.coreCtx c x) ∧ { t with teams := s.teams, coreCtxs := s.coreCtxs } = s) ∧
  (∀ (u k : Nat) (tm : Team) (g : Group) (l : Launch) (m : Image), Holds s u k tm g l m → LastGroup s u k tm g → ∃ t l', exec (.groupEnd u k) s = .next t ∧
    t.launch? l.uid = some l' ∧ (∀ x, x ∈ l'.ended ↔ x = tm.tlin ∨ x ∈ l.ended) ∧
    l'.hands = (if tm.handed = true then l.hands else l.hands ++ [(tm.hidx, 0xFFFFFFFF, 1)]) ∧
    { l' with ended := l.ended, hands := l.hands, sumTime := l.sumTime } = l ∧
    (∃ r, t.plog.getLast? = some r ∧ r.event = 1 ∧ r.tlin = tm.tlin ∧ r.core = tm.core ∧ r.ctx = l.ctx ∧ r.launch = l.id) ∧
    (m.det = false → (∀ b, Memory.get t.mem b = (lastCell (heldCells s [u]) b).getD (Memory.get s.mem b)) ∧ t.held = s.held.filter (fun h => h.team != u)) ∧
    (m.det = true → t.mem = s.mem ∧ t.held = s.held ∧ Instr.gangRetirement l.uid tm.gang ∈ t.due) ∧
    (m.boosted = true → m.det = false → Instr.taskCommit u ∈ t.due ∧ ∃ tm', t.team? u = some tm' ∧ tm'.ended = true ∧ tm'.slots = tm.slots) ∧
    (m.boosted = false → m.det = false → t.teams = s.teams.filter (fun x => x.uid != u)) ∧
    (m.boosted = false → (∀ x ∈ t.slips, x.team ≠ u) ∧ ∀ c, tm.slots ≠ [] → c = tm.core ∨ tm.pair = true ∧ c = tm.core + 1 →
      (m.share (decide (c ≠ tm.core))).bytes ≠ 0 ∨ (m.share (decide (c ≠ tm.core))).tiles ≠ 0 →
      ∃ x ∈ t.scrubs, x.core = c ∧ x.ctx = tm.ctx ∧ x.bytes = (m.share (decide (c ≠ tm.core))).bytes ∧ x.tiles = (m.share (decide (c ≠ tm.core))).tiles ∧
        Instr.lineScrub x.id ∈ t.due) ∧
    Instr.dispatchDecision (s.sliceOf tm.ctx) ∈ t.due ∧ t.wc = s.wc ∧ t.accesses = s.accesses) ∧
  (∀ x ∈ s.scrubs, ∃ t, exec (.lineScrub x.id) s = .next t ∧ t.scrubs = s.scrubs.filter (fun y => y.id != x.id) ∧
    { t with scrubs := s.scrubs, due := s.due } = s) ∧
  (∀ (l : Launch) (m : Image), s.launch? l.uid = some l → s.image? l.image = some m → l.stopped = false → getAt (l.order m) l.retired [] ≠ [] →
    (∀ x ∈ getAt (l.order m) l.retired [], x ∈ l.ended) → Plain s → Memory.wf s.mem = true → s.teams.Pairwise (fun x y => x.uid ≠ y.uid) →
    let mine := s.teams.filter (fun x => x.launch == l.uid && x.gang == l.retired)
    (∀ e ∈ s.heldOut, ∀ x ∈ mine, e.team ≠ x.uid) → (∀ x ∈ mine, x.ended = true) → ∃ t, exec (.gangRetirement l.uid l.retired) s = .next t ∧ t.launch? l.uid = some { l with retired := l.retired + 1 } ∧
      t.teams = s.teams.filter (fun x => !(x.launch == l.uid && x.gang == l.retired)) ∧
      t.held = s.held.filter (fun h => !(mine.any (fun x => x.uid == h.team))) ∧
      (∀ us : List Team, us.Perm mine → us.Pairwise (fun x y => x.tlin < y.tlin) →
        ∀ b, Memory.get t.mem b = (lastCell (heldCells s (us.map (fun x => x.uid))) b).getD (Memory.get s.mem b))) ∧
  (∀ (l : Launch), s.launch? l.uid = some l → l.ended.length = l.teamCount → (∀ x ∈ s.teams, x.launch ≠ l.uid) → (∀ b ∈ s.storeBufs, b.launch ≠ l.uid) →
    (∀ r ∈ s.reqs, r.wc.isSome = true → r.pkt.ctx = l.ctx → (s.team? r.team).isSome = true) → (∀ e ∈ s.heldOut, e.ctx = l.ctx → (s.team? e.team).isSome = true) →
    s.twins = [] → CanAnswer s l.ctx l.compl → ∃ t, exec (.launchCompletion l.uid) s = .next t ∧ t.launches = s.launches.filter (fun x => x.uid != l.uid) ∧
      (l.fatal = none → l.report = none → Answered s t l.ctx l.compl (recordWords (2 ^ 31) 0 0 l.gen 0 l.id l.ended.length)) ∧
      (∀ r, l.fatal = some r → r.code < 256 → r.detail < 256 → Answered s t l.ctx l.compl
        (recordWords (2 ^ 31 + 2 ^ 29 + r.detail * 256 + r.code) r.tlin r.tpc l.gen r.tval l.id l.ended.length)) ∧
      (∀ r, l.fatal = none → l.report = some r → r.code < 256 → r.detail < 256 → Answered s t l.ctx l.compl
        (recordWords (2 ^ 31 + 2 ^ 28 + r.detail * 256 + r.code) r.tlin r.tpc l.gen r.tval l.id l.ended.length)) ∧
      (1 < l.repl → (∀ k ∈ s.launches, k.uid ≠ l.uid → k.repl ≤ 1 ∨ s.replicas k ≠ s.replicas l) → s.replicas l ∈ t.facEnded ∧
        ∃ p, t.out = .packet p :: s.out ∧ p.kind = 0x0C ∧ p.srcPart = s.part ∧ p.payload = [1, 0x80] ++ leBytes 2 s.part ++ ((s.replicas l).map (leBytes 2)).flatten) ∧
      Instr.launchAdmission (s.sliceOf l.ctx) ∈ t.due ∧ (l.repl ≤ 1 → t.out = s.out ∧ t.facEnded = s.facEnded) ∧
      { t with launches := s.launches, due := s.due, mem := s.mem, poison := s.poison, out := s.out, facEnded := s.facEnded } = s) ∧
  (∀ (u : Nat) (tm : Team) (l : Launch) (s1 : State), s.team? u = some tm → s.launch? tm.launch = some l → tm.ended = true → tm.aborting = none → l.oldest = tm.tlin →
    l.stopped = false → s.launchAll tm false tm.heldLaunches = some s1 → s1.launch? l.uid = some l → ∃ t, exec (.taskCommit u) s = .next t ∧
      t.teams = s1.teams.filter (fun x => x.uid != u) ∧ t.objects = s1.objects.filter (fun o => o.team != u) ∧
      t.launch? l.uid = some { l with oldest := l.oldest + 1 } ∧ t.mem = s1.mem ∧ Instr.dispatchDecision (s1.sliceOf tm.ctx) ∈ t.due) ∧
  (∀ (u : Nat) (tm : Team) (m : Image) (l : Launch), s.team? u = some tm → s.launch? tm.launch = some l → s.image? l.image = some m → tm.killed = false → s.twins = [] →
    (∀ g ∈ tm.groups, s.quiet u g.idx = true) → s.engineBusy u = false →
    (∀ e rest c k cs, s.storeBufs = [] → tm.aborting = some 0 → tm.errata = e :: rest → tm.slots = (c, k) :: cs → ∃ t tm' g, exec (.undoRunEnd u) s = .next t ∧ t.team? u = some tm' ∧
      tm'.aborting = some 1 ∧ tm'.groups = [g] ∧ tm'.errata = tm.errata ∧ g.undo = true ∧ g.lanes.length = m.width ∧ g.core = c ∧ g.slot = k ∧
      (∀ j, 0 < j → j < m.width → (g.lane j).exited = true) ∧
      (0 < m.width → 4 ≤ m.regs → (g.lane 0).exited = false ∧ (g.lane 0).pcv = e.offset ∧ (g.lane 0).reg 0 = e.id.extractLsb' 0 32 ∧
        (g.lane 0).reg 1 = e.id.extractLsb' 32 32 ∧ (g.lane 0).reg 2 = e.arg ∧ (g.lane 0).reg 3 = BitVec.ofNat 32 e.kind ∧
        ∀ p, 4 ≤ p → (g.lane 0).reg p = 0) ∧ Instr.undoRunEnd u ∈ t.due) ∧
    (tm.aborting = some 0 → tm.errata = [] → ∃ t tm', exec (.undoRunEnd u) s = .next t ∧ t.team? u = some tm' ∧ tm'.aborting = some 2 ∧
      t.objects = s.objects.filter (fun o => o.team != u) ∧ Instr.undoRunEnd u ∈ t.due) ∧
    (∀ e rest, tm.aborting = some 1 → tm.errata = e :: rest → tm.slots ≠ [] → (∀ g ∈ tm.groups, g.live = 0) → s.wc = [] → s.reqs = [] → s.storeBufs = [] → ∃ t tm', exec (.undoRunEnd u) s = .next t ∧
      t.team? u = some tm' ∧ tm'.errata = rest ∧ tm'.aborting = (if rest = [] then some 2 else some 1)) ∧
    (s.storeBufs = [] → tm.aborting = some 2 → tm.errs = 0 → tm.errCores = [] → (∀ k, tm.afterTask = some k → k < l.oldest) → ∃ t tm', exec (.undoRunEnd u) s = .next t ∧
      t.team? u = some tm' ∧ FreshTeam tm' m ∧ tm'.tlin = tm.tlin ∧ tm'.slots = tm.slots ∧ tm'.aborting = none))

namespace Sys2Proof.Claims

open Sys2Proof.Machine

/-- A facsimile's copies in the areas of its stacks (R386): the pages of a stack one after another in list order, then its template (log 117). -/
def areaCopies (s : State) (f : Facsimile) (r : FacReg) : List (Nat × List Byte) :=
  let pages := (f.regions.map (fun x => (List.range (x.2.length / 65536)).map (fun k => (x.1 + 65536 * k, (x.2.drop (65536 * k)).take 65536)))).flatten
  ((List.range 16).map (fun st =>
    let mine := ((pages.filter (fun x => s.stackOf f.ctx x.1 == st)).map (fun x => x.2)).flatten ++ (if s.stackOf f.ctx r.template = st then f.template else [])
    ((r.areas.find? (fun a => a.1 / 2 ^ 36 == st && decide (mine.length ≤ a.2))).map (fun a => (a.1, mine))).toList)).flatten

/-- The copies of a launch's facsimile have been put into the areas, or its cut had no room and nothing was copied (R228, R386). -/
def FilledAreas (s u : State) (l : Launch) : Prop :=
  (l.facCut ≠ 1 → u = s) ∧ (l.facCut = 1 → Memory.wf s.mem = true ∧ { u with mem := s.mem } = s ∧ ∃ f c r, s.facs.find? (fun x => x.ctx == l.ctx) = some f ∧
    s.ctx? l.ctx = some c ∧ c.fac = some r ∧ (∀ x ∈ f.regions, x.2.length % 65536 = 0) ∧
    ∀ b, Memory.get u.mem b = (lastStored (areaCopies s f r) b).getD (Memory.get s.mem b))

end Sys2Proof.Claims

/-- R228, R371, R386-R389: with every team of the launch at its FACSIM, the cut copies the regions' pages, or takes NOROOM; the copies fill the areas, STATUS
is written to the lists and the groups go on; the copies drain to the target behind their manifest line by line within budget 1, DONE after them; and the parity chunk of
a group of parts, the exclusive or of its members' chunks, is built within budget 2 and drains, CHUNK and PDIGEST after it, before PDONE. The model's
choices: the drain's layout and order (log 32), STATUS after a failed barrier (log 37) and the order in an area (log 117). -/
def Obligations.FacsimilesAreTaken : Prop :=
  ∀ (s : State),
  (∀ (l : Launch) (lead : Nat) (rs : List (Nat × Nat)), s.launch? l.uid = some l → l.facWait = some (lead, rs) → l.facCut = 0 → l.facSent = false → l.repl ≤ 1 →
    s.twins = [] → (∀ x ∈ s.teams, x.launch = l.uid → x.ended = false → x.facsim = true) → ∃ t l', exec (.facsimCut l.uid) s = .next t ∧ t.launch? l.uid = some l' ∧
      l'.facWait = none ∧ { l' with facWait := l.facWait, facCut := l.facCut } = l ∧ Instr.facsimCopyComplete l.uid ∈ t.due ∧
      (∀ f, s.facsimileOf l rs = some f → l'.facCut = 1 ∧ t.facs = f :: s.facs.filter (fun x => x.ctx != l.ctx) ∧ f.gen = l.gen + 1 ∧ f.ctx = l.ctx ∧
        f.done = false ∧ f.pdone = false ∧ f.regions.map (fun r => (r.1, r.2.length)) = rs.map (fun r => (r.1, r.2 / 65536 * 65536)) ∧
        (∀ r ∈ f.regions, ∀ j, j < r.2.length / 65536 → ∃ x, s.translate l.ctx (BitVec.ofNat 64 (r.1 + 65536 * j)) .read = .ok x ∧
          (r.2.drop (65536 * j)).take 65536 = s.viewRead l.ctx x.pa 65536)) ∧
      (s.facsimileOf l rs = none → l'.facCut = 2 ∧ t.facs = s.facs) ∧ t.mem = s.mem) ∧
  (∀ (l : Launch) (tm : Team) (g : Group) (a pa : Nat) (u : State), s.launch? l.uid = some l → l.facCut ≠ 0 → s.teams = [tm] → tm.launch = l.uid → tm.groups = [g] →
    g.wait = .facsim a true → FilledAreas s u l → PartWrites u l.ctx (a + 4) 4 pa → ∃ t, exec (.facsimCopyComplete l.uid) s = .next t ∧
      (let gen := if l.facCut = 1 then l.gen + 1 else l.gen
       Wrote u t pa (leBytes 4 (2 ^ 31 + (if l.facCut = 2 then 2 ^ 30 else 0) + gen.toNat % 65536)) ∧ t.launch? l.uid = some { l with gen := gen, facCut := 0 }) ∧
      t.group? tm.uid g.idx = some { g with wait := .none } ∧ (l.facCut = 1 → Instr.facsimileDrain l.ctx ∈ t.due) ∧
      { t with mem := s.mem, poison := s.poison, launches := s.launches, teams := s.teams, due := s.due } = s) ∧
  (∀ (f : Facsimile) (c : Ctx) (r : FacReg), s.facs.find? (fun x => x.ctx == f.ctx && !x.pdone) = some f → s.ctx? f.ctx = some c → c.fac = some r →
    s.twins = [] → Memory.wf s.mem = true →
    let bytes := (f.regions.map (fun x => x.2)).flatten
    let lines := 16 + bytes.length / 256
    let stack := if f.drained < 16 ∨ lines ≤ f.drained then s.stackOf f.ctx r.template
      else s.stackOf f.ctx (getAt ((f.regions.map (fun x => (List.range (x.2.length / 65536)).map (fun k => x.1 + 65536 * k))).flatten) ((f.drained - 16) / 256) 0)
    let put := fun (t : State) (xs : List (Nat × List Byte)) => ∀ b, Memory.get t.mem b = (lastStored xs b).getD (Memory.get s.mem b)
    let Counted := fun (t : State) => t.bguseOf 1 stack = s.bguseOf 1 stack + 1 ∧
      t.facs = s.facs.map (fun x => if x.ctx = f.ctx then { f with drained := f.drained + 1 } else x) ∧
      { t with mem := s.mem, poison := s.poison, facs := s.facs, bguse := s.bguse, begun := s.begun } = s
    (∀ bs, s.spent 1 stack = false →
      (f.drained < 16 ∧ bs = (({ f with done := false, pdone := false } : Facsimile).manifest.drop (256 * f.drained)).take 256 ∨
        16 ≤ f.drained ∧ f.drained < lines ∧ bs = (bytes.drop (256 * (f.drained - 16))).take 256 ∨
        lines ≤ f.drained ∧ f.done = true ∧ f.parity.length = f.chunk ∧ f.drained < lines + f.chunk / 256 ∧
          bs = (f.parity.drop (256 * (f.drained - lines))).take 256) →
      ∃ t, exec (.facsimileDrain f.ctx) s = .next t ∧ put t [(r.target + 256 * f.drained, bs)] ∧ Counted t) ∧
    (∀ x, s.spent 1 stack = false → f.done = true → f.chunk ≠ 0 → f.parity.length = f.chunk →
      f.drained = lines + f.chunk / 256 ∧ x = (r.target + 0x18, leBytes 8 f.chunk) ∨
        f.drained = lines + f.chunk / 256 + 1 ∧ x = (r.target + 0x540, sha384 f.parity) →
      ∃ t, exec (.facsimileDrain f.ctx) s = .next t ∧ put t [x] ∧ Counted t) ∧
    (∀ f', (f.done = false ∧ f.drained = lines ∧ f' = { f with done := true } ∨
        f.done = true ∧ f.chunk ≠ 0 ∧ f.parity.length = f.chunk ∧ f.drained = lines + f.chunk / 256 + 2 ∧ f' = { f with pdone := true }) → f.pdone = false →
      ∃ t, exec (.facsimileDrain f.ctx) s = .next t ∧
        put t [(r.target + 4, leBytes 4 (if f'.pdone then 2 ^ 31 + 2 ^ 30 else 2 ^ 31))] ∧
        t.facs = s.facs.map (fun x => if x.ctx = f.ctx then f' else x) ∧
        { t with mem := s.mem, poison := s.poison, facs := s.facs } = s)) ∧
  (∀ (f : Facsimile) (c : Ctx) (r : FacReg) (others : List (Nat × List Byte)), s.facs.find? (fun x => x.ctx == f.ctx && x.done && !x.pdone) = some f → s.ctx? f.ctx = some c →
    c.fac = some r → 2 ≤ f.ngrp → s.spent 2 0 = false → (others.map (fun o => o.1)).Nodup → f.member < f.ngrp →
    (∀ o, (∃ bs, (o, bs) ∈ others) ↔ o < f.ngrp ∧ o ≠ f.member) → s.twins = [] →
    let big := (others.map (fun o => o.2.length)).foldl max (f.regions.map (fun x => x.2)).flatten.length
    let C := (big + 65536 * (f.ngrp - 1) - 1) / (65536 * (f.ngrp - 1)) * 65536
    f.parity.length < C →
    ∃ t line, exec (.parityBuild f.ctx others) s = .next t ∧ line.length = min 256 (C - f.parity.length) ∧
      (∀ b, b < line.length → getAt line b 0 =
        others.foldl (fun x o => x ^^^ getAt o.2 ((f.member + 2 * f.ngrp - o.1 - 1) % f.ngrp * C + f.parity.length + b) 0) 0) ∧
      t.facs = s.facs.map (fun x => if x.ctx = f.ctx then { f with chunk := C, parity := f.parity ++ line } else x) ∧
      t.bguseOf 2 0 = s.bguseOf 2 0 + 1 ∧ (f.parity.length + line.length = C → Instr.facsimileDrain f.ctx ∈ t.due) ∧
      { t with facs := s.facs, bguse := s.bguse, due := s.due, begun := s.begun } = s)

/-! ### Banks, the ladder, recalls and sampling -/

namespace Sys2Proof.Claims

open Sys2Proof.Machine
open Host (Outcome Cell)

/-- A function may start a command, and the command is permitted to it (R396, R398-R400). -/
structure Accepts (s : State) (fn : Nat) (v own : Bool) : Prop where
  there : fn ≤ 8 ∧ s.up = true
  idle : (s.mailbox fn).ctl.getLsbD 30 = false
  permitted : fn = 0 ∨ (v = true ∧ own = true)

/-- Over a state `s1` a command has been answered (R398, R400): GO and BUSY are 0, STATUS and OPC are set, IRQ and the argument kept, the
result stands at the start of MBRES, the interrupt is sent if IRQ is set, and no other mailbox or part of the state changes. -/
structure HostAnswer (s1 t : State) (fn opc status : Nat) (res : List Byte) : Prop where
  ctl : (t.mailbox fn).ctl = (if (s1.mailbox fn).ctl.getLsbD 29 then 0x20000000 else 0) + BitVec.ofNat 32 (status % 256 * 65536 + opc % 65536)
  arg : (t.mailbox fn).arg = (s1.mailbox fn).arg
  res : ∀ k, k < 256 → getAt (t.mailbox fn).res k 0 = if k < res.length then getAt res k 0 else getAt (s1.mailbox fn).res k 0
  others : ∀ f, f ≠ fn → t.mailbox f = s1.mailbox f
  out : t.out = if (s1.mailbox fn).ctl.getLsbD 29 then .interrupt fn :: s1.out else s1.out
  rest : { t with mailboxes := s1.mailboxes, out := s1.out } = s1

/-- A command has completed with STATUS 0x00 over a state with its effect. -/
def DoneOver (s1 : State) (o : Outcome State Fault Refusal) (fn opc : Nat) (res : List Byte) : Prop :=
  ∃ t, o = .next t ∧ HostAnswer s1 t fn opc 0 res

/-- No launch of a context is cooperative, so its cores are swapped each by itself (R319). -/
def Single (s : State) (ctx : Nat) : Prop :=
  ∀ l ∈ s.launches, l.ctx = ctx → ∀ m, s.image? l.image = some m → m.coop = false

/-- The ladder of a context on a core has moved to a state, and its other fields and every other pair of core and context are as before. -/
def LadderAt (s t : State) (core ctx : Nat) (x : Ladder) : Prop :=
  t.coreCtx core ctx = { s.coreCtx core ctx with ladder := x } ∧ ∀ c y, c ≠ core ∨ y ≠ ctx → t.coreCtx c y = s.coreCtx c y

/-- A context has been told to leave its core: HALT, and a swap is owed (R322). -/
def Halts (s t : State) (core ctx : Nat) : Prop :=
  LadderAt s t core ctx .halt ∧ Instr.swap core ∈ t.due ∧ { t with coreCtxs := s.coreCtxs, due := s.due } = s

/-- A context's part on a core has been killed (R324): none of its teams is left there, those that may be run again are unplaced teams of their
launch, unless all are lost, and the others end their launches with the cause, at 0. -/
structure Killed (s t : State) (core ctx : Nat) (all : Bool) (code detail : Nat) (tval : Dword) : Prop where
  banks : (t.core core).active ≠ some ctx ∧ (t.core core).shadow ≠ some ctx ∧
    (if (t.core core).shadow.isSome then Instr.swap core else Instr.restoreComplete core) ∈ t.due
  ladder : (t.coreCtx core ctx).ladder = .out ∧ (t.coreCtx core ctx).saved = false ∧ (t.coreCtx core ctx).reports = []
  gone : ∀ tm ∈ t.teams, tm.ctx = ctx → tm.ended = false → core ∉ tm.cores
  again : ∀ tm ∈ s.teams, tm.ctx = ctx → tm.ended = false → core ∈ tm.cores → ∀ l m, s.launch? tm.launch = some l →
    s.image? l.image = some m → ∃ l', t.launch? tm.launch = some l' ∧
      ((all = false ∧ (m.idem = true ∨ tm.committed = false)) → ⟨tm.tlin, tm.errs, tm.errCores⟩ ∈ l'.again ∧ tm.tlin ∉ l'.placed) ∧
      (¬ (all = false ∧ (m.idem = true ∨ tm.committed = false)) → l'.stopped = true ∧ ∃ r, l'.fatal = some r ∧
        (l.fatal = none → r.code = code ∧ r.detail = detail ∧ r.tpc = 0 ∧ r.tval = tval ∧ r.tlin ≤ tm.tlin) ∧ ∀ q, l.fatal = some q → r = q)

/-- A core after a change of its sampling unit or banks; every other core is as before. -/
def CoreAfter (s t : State) (core : Nat) (x : CoreSt) : Prop :=
  t.core core = x ∧ ∀ c, c ≠ core → t.core c = s.core c

end Sys2Proof.Claims

/-- R312-R317, R319, R320, R322-R325, R335, R368: the empty shadow bank takes the next context of the run list; a context leaves by HALT, which the
quantum, a request, the grace timer and the park rule cause; a swap saves the outgoing context, abandons its AWAITs and makes the restored one active,
its saved lines pending and its held copies in held ways that are free; the spill moves every line, those that an incoming line claims first, reports a
bad line or tile, and with a recall saves the held copies, and ends OUT; the kill timer and a watchdog whose count has reached its limit end what is left. The model's choices: timers are events and idle cycles are free (log 61), and the
lines that a spill moves are counted (log 62). -/
def Obligations.BanksAndLadder : Prop :=
  ∀ (s : State) (core ctx : Nat),
  ((s.core core).shadow = none → ∀ x, s.nextContext core = some x →
    ((∃ c ∈ s.ctxs, c.num = x ∧ s.listed c core = true) ∧ (s.core core).active ≠ some x ∧
      ∀ c ∈ s.ctxs, s.listed c core = true → (s.core core).active ≠ some c.num → ((s.coreCtx core c.num).ladder = .run ∨ (s.coreCtx core c.num).ladder = .out) →
        match (s.core core).active with
        | some a => (a < c.num → a < x ∧ x ≤ c.num) ∧ (x ≤ a → x ≤ c.num)
        | none => x ≤ c.num) ∧
    ∃ t, exec (.restoreComplete core) s = .next t ∧ CoreAfter s t core { s.core core with shadow := some x } ∧ LadderAt s t core x .run ∧
      ((s.core core).active = none → Instr.swap core ∈ t.due) ∧ { t with cores := s.cores, coreCtxs := s.coreCtxs, due := s.due } = s) ∧
  ((s.core core).active = some ctx → Single s ctx → ∀ c, s.ctx? ctx = some c →
    (((s.coreCtx core ctx).ladder = .run → (∃ tm ∈ s.teams, tm.ctx = ctx ∧ core ∈ tm.cores) →
      ∀ e ∈ [((.quantumExpiry core ctx : Instr), true), (.preemptRequest 0 ctx [core], false)],
        (if e.2 then c.cxtime.extractLsb' 16 8 ≠ 0 ∧ (s.core core).shadow.isSome = true else Accepts s 0 false false) →
        ∃ t, exec e.1 s = .next t ∧ (∃ u, (c.cxtime.extractLsb' 40 16 = 0 → Halts s u core ctx) ∧
          (c.cxtime.extractLsb' 40 16 ≠ 0 → LadderAt s u core ctx .soft ∧ { u with coreCtxs := s.coreCtxs } = s) ∧
          (if e.2 then t = u else HostAnswer u t 0 ((s.mailbox 0).ctl.toNat % 65536) 0 []))) ∧
     ((s.coreCtx core ctx).ladder = .soft → ∃ t, exec (.graceTimerExpiry core ctx) s = .next t ∧ Halts s t core ctx) ∧
     (c.cxpark.getLsbD 31 = true → c.cxpark.extractLsb' 16 8 ≠ 0 → c.cxpark.extractLsb' 0 16 ≠ 0 → (s.core core).shadow.isSome = true → (s.coreCtx core ctx).ladder = .run →
      (let gs := ((s.teams.filter (fun t => t.ctx == ctx && !t.ended)).map (fun t => (t.groups.filter (fun g => g.core == core && !g.ended)).map (fun g => (t, g)))).flatten
       gs ≠ [] ∧ (c.cxpark.extractLsb' 16 8).toNat * gs.length ≤ 256 * (gs.filter (fun x => s.isParked x.1 x.2)).length) →
      ∃ t, exec (.parkRule core) s = .next t ∧ t.coreCtx core ctx = { s.coreCtx core ctx with ladder := .halt, park := true } ∧
        (∀ c y, c ≠ core ∨ y ≠ ctx → t.coreCtx c y = s.coreCtx c y) ∧ Instr.swap core ∈ t.due ∧ { t with coreCtxs := s.coreCtxs, due := s.due } = s) ∧
     (c.wdogLimit ≠ 0 → s.twins = [] →
      (c.wdogLimit ≤ (s.coreCtx core ctx).wdog → ∃ t, exec (.watchdog core ctx) s = .next t ∧
        Killed s t core ctx true 0x10 0 (s.coreCtx core ctx).wdog ∧ (t.coreCtx core ctx).wdog = 0) ∧
      ((s.coreCtx core ctx).wdog < c.wdogLimit → ∃ (t : State) (n : Dword), exec (.watchdog core ctx) s = .next t ∧ t.coreCtx core ctx =
        { s.coreCtx core ctx with wdog := if c.wdogLimit - (s.coreCtx core ctx).wdog ≤ n then c.wdogLimit else (s.coreCtx core ctx).wdog + n } ∧
        { t with coreCtxs := s.coreCtxs, freeTick := s.freeTick, begun := s.begun } = s)))) ∧
  ((s.coreCtx core ctx).ladder = .halt →
    (s.twins = [] → ∃ t, exec (.killTimerExpiry core ctx) s = .next t ∧ Killed s t core ctx false 0x00 0x01 0) ∧
    ((s.coreCtx core ctx).saved = true → (s.core core).active ≠ some ctx →
      ((s.coreCtx core ctx).spill < s.bankLines ctx core + s.padLines ctx core → (s.coreCtx core ctx).park = false ∨ s.isRecalled ctx = true ∨ s.spent 5 (core / 40) = false →
        (if (s.coreCtx core ctx).spill < (s.claims core ctx).length then
          s.transferring core ctx = false ∧ ∀ x ∈ (s.claims core ctx).take (s.coreCtx core ctx).spill, s.restoring x = false
         else s.spillHeld core ctx = false) →
        ∀ i ∈ [(.spillLine core ctx : Instr), .spillComplete core ctx], ∃ t, exec i s = .next t ∧
          t.coreCtx core ctx = { s.coreCtx core ctx with spill := (s.coreCtx core ctx).spill + 1 } ∧ t.bguseOf 5 (core / 40) = s.bguseOf 5 (core / 40) + 1 ∧
          { t with coreCtxs := s.coreCtxs, bguse := s.bguse, begun := s.begun } = s) ∧
      (s.spillHeld core ctx = false → s.bankLines ctx core + s.padLines ctx core ≤ (s.coreCtx core ctx).spill → ∀ u d v, s.spillBad core ctx = some (u, d, v) →
        (d = 0 ∨ d = 1) ∧ ∃ tm ∈ s.teams, tm.uid = u ∧ tm.ctx = ctx ∧ core ∈ tm.cores ∧ (if d = 0 then v ∈ tm.bad else v ∈ tm.badTiles ∧ tm.tileCore v = core) ∧
        (∀ m l, s.team? u = some tm → s.imageOf tm = some m → s.launch? tm.launch = some l → tm.killed = false → tm.ended = false → m.boosted = false →
          (m.idem = false ∧ tm.committed = true ∨ 3 ≤ tm.errs) → (∀ g ∈ tm.groups, g.undo = false) → l.fatal = none →
          ∃ t l' r, exec (.spillComplete core ctx) s = .next t ∧ t.launch? tm.launch = some l' ∧ l'.stopped = true ∧ l'.fatal = some r ∧
            r.code = 0x12 ∧ r.detail = d ∧ r.tlin = tm.tlin ∧ r.tval = BitVec.ofNat 64 v)) ∧
      (∀ s1, s.spillHeld core ctx = false → s.spillBad core ctx = none → s.bankLines ctx core + s.padLines ctx core ≤ (s.coreCtx core ctx).spill →
        s.spillCopies core ctx = some s1 →
        ∃ t, exec (.spillComplete core ctx) s = .next t ∧ LadderAt s t core ctx .out ∧ Instr.restoreComplete core ∈ t.due ∧
          (s.isRecalled ctx = false → t.held = s.held ∧ t.areas = s.areas) ∧
          (s.isRecalled ctx = true → ∀ h ∈ t.held, h.ctx = ctx → (∀ tm, s.team? h.team = some tm → tm.slots = [] ∨ core ∈ tm.cores) → h.place ≠ .way) ∧
          { t with coreCtxs := s.coreCtxs, due := s.due, held := s.held, areas := s.areas } = s))) ∧
  ((s.core core).shadow = none → s.nextContext core = none → (s.core core).active = some ctx → (s.coreCtx core ctx).ladder = .halt →
    s.chainOn ctx core = false → s.twinOf? ctx = none → ∃ t, exec (.swap core) s = .next t ∧ (t.core core).active = none ∧ (t.core core).shadow = none ∧
      (t.coreCtx core ctx).saved = true ∧ Instr.spillComplete core ctx ∈ t.due ∧ Instr.restoreComplete core ∈ t.due) ∧
  (∀ x, (s.core core).shadow = some x → x ≠ ctx → Single s x → s.twinOf? ctx = none → (∀ e ∈ s.wc, ¬ (e.ctx = ctx ∧ e.core = core)) →
    ((s.core core).active = none ∨ (s.core core).active = some ctx ∧ (s.coreCtx core ctx).ladder = .halt ∧ s.chainOn ctx core = false) →
    ∃ t, exec (.swap core) s = .next t ∧ CoreAfter s t core { s.core core with active := some x, shadow := none } ∧
      t.coreCtx core x = { s.coreCtx core x with saved := false, park := false, ladder := .run } ∧ Instr.restoreComplete core ∈ t.due ∧
      Instr.dispatchDecision (s.sliceOf x) ∈ t.due ∧
      ((s.core core).active = some ctx → t.coreCtx core ctx = { s.coreCtx core ctx with saved := true, spill := 0 } ∧ Instr.spillComplete core ctx ∈ t.due ∧
        (∀ tm ∈ t.teams, tm.ctx = ctx → ∀ g ∈ tm.groups, g.core = core → g.latches = noLatches ∧ g.stall = 0 ∧ ∀ e, g.wait ≠ .await e)) ∧
      (∀ a ∈ t.accesses, a ∈ s.accesses) ∧ (∀ a ∈ s.accesses, (∀ c, a.kind ≠ .await c) → a ∈ t.accesses) ∧
      ((s.coreCtx core x).saved = true → ∀ u tm m, s.team? u = some tm → tm.ctx = x → core ∈ tm.cores → s.imageOf tm = some m →
        ∀ l, l ∈ tm.linesOn m core ∨ (∃ n, n < m.accum ∧ tm.tileCore n = core ∧ l = checksumLine n) → ∃ tm', t.team? u = some tm' ∧ (∃ b, tm'.absentLine? l = some b ∧
          (tm.absentLine? l = none → b.pending = true ∧ b.owner = .free ∧ Instr.lineArrival u l ∈ t.due) ∧ ∀ d, tm.absentLine? l = some d → b = d)) ∧
      ((s.coreCtx core x).saved = false → (s.core core).active = none → t.teams = s.teams) ∧
      t.held.map (fun h => { h with place := .way }) = s.held.map (fun h => { h with place := .way }) ∧ (∀ h ∈ s.held, h.place ≠ .saved → h ∈ t.held) ∧
      (s.areas ≠ [] → ∀ h ∈ t.held, h.place = .saved → h.ctx = x → (∀ tm, s.team? h.team = some tm → core ∈ tm.cores) → (s.team? h.team).isSome = true →
        t.wayFree (s.sliceOf x) h.line = false) ∧
      { t with cores := s.cores, coreCtxs := s.coreCtxs, teams := s.teams, accesses := s.accesses, held := s.held, areas := s.areas,
               scrubAreas := s.scrubAreas, due := s.due } = s)

/-- R326-R330: a recall stops admission, records and reports each queue's action; a queue that is still running at its switch time is checkpointed or
discarded; at the due date what is left on the cores is killed and zeroed; the lift takes the recall back. The model's choices: the times of R327 are
free values (log 57), and a checkpoint halts the cores of its queue (log 60). -/
def Obligations.RecallsRun : Prop :=
  ∀ (s : State) (mask : Dword), s.twins = [] →
  (∀ due nd, Accepts s 0 true true → ∃ t r u, exec (.recall 0 mask due nd) s = .next t ∧ r ∈ t.recalls ∧ r.mask = mask ∧ r.due = due ∧ r.noDiscard = nd ∧
    (∀ c, s.ctx? c.num = some c → c.num < 64 → t.ctx? c.num = some (if mask.getLsbD c.num then { c with recalled := true } else c)) ∧
    (∀ q ∈ s.queues, s.queue? q.num = some q → mask.getLsbD q.ctx = true → lookupD q.num 0 r.actions = s.recallAction q due nd ∧
      Notice.recall q.num (s.recallAction q due nd) ∈ t.out) ∧
    (∀ q ∈ s.queues, s.recallAction q due nd = 0 ↔ ∀ l ∈ s.launches, l.queue = q.num → l.ctx = q.ctx → s.finishesBy q l due = true) ∧
    u.mailboxes = s.mailboxes ∧ HostAnswer u t 0 0x000B 0 ((s.queues.filter (fun q => mask.getLsbD q.ctx)).map (fun q => [BitVec.ofNat 8 q.num, BitVec.ofNat 8 (s.recallAction q due nd)])).flatten) ∧
  (∀ (q : Queue) (r : RecallSt) (l : Launch) (tm : Team), s.queue? q.num = some q → s.recallOf q.ctx = some r → r.action q.num = 0 → l ∈ s.launches → l.queue = q.num →
    l.ctx = q.ctx → tm ∈ s.teams → tm.launch = l.uid → tm.ended = false →
    (s.stopAction q r.noDiscard = 1 ∨ s.stopAction q r.noDiscard = 2) ∧
    (r.noDiscard = true ∨ s.allRelaunchable q = false → s.stopAction q r.noDiscard = 1) ∧
    ∃ t, exec (.recallSwitchTime q.num) s = .next t ∧ Notice.recall q.num (s.stopAction q r.noDiscard) ∈ t.out ∧
      (∃ r', t.recallOf q.ctx = some r' ∧ r'.action q.num = s.stopAction q r.noDiscard ∧ r'.mask = r.mask) ∧
      (s.stopAction q r.noDiscard = 1 → Single s q.ctx → ∀ y ∈ tm.cores, (s.core y).active = some q.ctx →
        (t.coreCtx y q.ctx).ladder = .halt ∧ Instr.swap y ∈ t.due) ∧
      (s.stopAction q r.noDiscard = 2 → s.launch? l.uid = some l → s.teams.Pairwise (fun x y => x.uid ≠ y.uid) → (∀ x ∈ t.teams, x.uid ≠ tm.uid) ∧
        ∃ l', t.launch? l.uid = some l' ∧ ⟨tm.tlin, tm.errs, tm.errCores⟩ ∈ l'.again)) ∧
  (∀ r ∈ s.recalls, r.mask = mask → ∃ t, exec (.recallDue mask) s = .next t ∧
    (∀ core ctx, core < 320 → ctx < 64 → mask.getLsbD ctx = true → (s.core core).active = some ctx →
      (t.core core).active ≠ some ctx ∧ ∀ tm ∈ t.teams, tm.ctx = ctx → tm.ended = false → core ∉ tm.cores) ∧
    (∀ x ∈ t.scrubs, x.ctx < 64 → mask.getLsbD x.ctx = false) ∧
    (∀ x ∈ t.teams, ∃ y ∈ s.teams, y.uid = x.uid) ∧ (s.wc = [] → t.mem = s.mem)) ∧
  (∀ r ∈ s.recalls, r.mask = mask → (∀ q ∈ s.queues, ∀ w ∈ q.barrier, w.go = none) → Accepts s 0 true true → ∃ t u, exec (.recallLift 0 mask) s = .next t ∧ HostAnswer u t 0 0x000B 0 [] ∧
    u.recalls = s.recalls.filter (fun x => x.mask != mask) ∧
    (∀ c, s.ctx? c.num = some c → u.ctx? c.num = some { c with recalled := (s.recalls.filter (fun x => x.mask != mask)).any (fun x => x.mask.getLsbD c.num) }) ∧
    (∀ c ∈ s.ctxs, c.num < 64 → mask.getLsbD c.num = true → (∀ x ∈ s.recalls, x.mask ≠ mask → x.mask.getLsbD c.num = false) →
      Instr.launchAdmission c.slice ∈ u.due ∧ Instr.dispatchDecision c.slice ∈ u.due ∧ ∀ tm ∈ s.teams, tm.ctx = c.num → ∀ y ∈ tm.cores, Instr.restoreComplete y ∈ u.due) ∧
    { u with recalls := s.recalls, ctxs := s.ctxs, due := s.due, held := s.held, areas := s.areas, scrubAreas := s.scrubAreas } = s)

/-- R28, R298, R300-R303, R306: a sample finds no group, or is dropped, or is written at the next record with its group's address, team, number,
reason, slot, group and context, FULL following the last; setting EN starts the unit again; the host writes the registers and mailboxes that it may; a
budget period ends. The model's choices: the numbers by which the host's writes and the budget's dies are named (logs 64, 65), and a free reason (log
63). -/
def Obligations.SamplesAndHostRegisters : Prop :=
  ∀ (s : State) (core : Nat), let c := s.core core
  (s.up = true → c.smpctl.getLsbD 31 = true → 16 ≤ (c.smpctl.extractLsb' 0 16).toNat →
    (s.sampled core = none → ∃ t, exec (.stallSample core) s = .next t ∧ CoreAfter s t core { c with smpK := c.smpK + 1 } ∧ { t with cores := s.cores } = s) ∧
    (∀ n tm g, s.sampled core = some (n, tm, g) →
      (g.susp = true → ∃ t, exec (.stallSample core) s = .next t ∧ CoreAfter s t core { c with smpK := c.smpK + 1, smpKept := some (g.slot, g.pos) } ∧
        { t with cores := s.cores } = s) ∧
      (g.susp = false → c.smpctl.getLsbD 30 = true ∨ c.smpbuf.extractLsb' 0 12 = 0 → ∃ t, exec (.stallSample core) s = .next t ∧
        CoreAfter s t core { c with smpK := c.smpK + 1, smpKept := some (g.slot, g.pos), smpdrop := if c.smpdrop = 0xFFFFFFFF then 0xFFFFFFFF else c.smpdrop + 1 } ∧
        { t with cores := s.cores } = s) ∧
      (g.susp = false → c.smpctl.getLsbD 30 = false → c.smpbuf.extractLsb' 0 12 ≠ 0 → s.twins = [] → Memory.wf s.mem = true → ∃ t ctl, exec (.stallSample core) s = .next t ∧
        CoreAfter s t core { c with smpK := c.smpK + 1, smpKept := some (g.slot, g.pos), smpctl := ctl } ∧
        (let w := (c.smpctl.extractLsb' 16 12).toNat
         ctl.getLsbD 31 = true ∧ ctl.getLsbD 30 = decide (w + 1 = (c.smpbuf.extractLsb' 0 12).toNat) ∧ (ctl.extractLsb' 16 12).toNat = (w + 1) % 4096 ∧
         ctl.extractLsb' 0 16 = c.smpctl.extractLsb' 0 16 ∧
         ∀ b, Memory.get t.mem b = (lastStored [((c.smpbuf.extractLsb' 12 40).toNat * 4096 + 16 * w, wordsBytes [g.samplePc, BitVec.ofNat 32 tm.tlin, c.smpK,
           BitVec.ofNat 4 (s.sampleReason tm g) ++ BitVec.ofNat 7 g.slot ++ BitVec.ofNat 9 g.idx ++ BitVec.ofNat 6 tm.ctx ++ (0 : BitVec 6)])] b).getD (Memory.get s.mem b)) ∧
        { t with cores := s.cores, mem := s.mem, poison := s.poison, freeTick := s.freeTick } = s))) ∧
  (core < 320 →
    (∀ v : Word, ∃ t, exec (.smpctlWrite core v) s = .next t ∧ { t with cores := s.cores } = s ∧
      CoreAfter s t core (if v.getLsbD 31 then { c with smpctl := v &&& 0x8000FFFF, smpdrop := 0, smpK := 0, smpKept := none } else { c with smpctl := v &&& 0x4FFFFFFF })) ∧
    (∀ v : Dword, (∃ t, exec (.hostRegisterWrite core 0x32 v) s = .next t ∧ CoreAfter s t core { c with smpbuf := v &&& 0xFFFFFFFFFFFFF } ∧ { t with cores := s.cores } = s) ∧
      (∃ t, exec (.hostRegisterWrite core 0x34 v) s = .next t ∧ CoreAfter s t core { c with smpdrop := v.extractLsb' 0 32 } ∧ { t with cores := s.cores } = s) ∧
      ∀ k x, x < 64 → s.ctx? x = some k →
        (∃ t, exec (.hostRegisterWrite (core * 64 + x) 0x38 v) s = .next t ∧ t.coreCtx core x = { s.coreCtx core x with wdog := v } ∧ { t with coreCtxs := s.coreCtxs } = s) ∧
        (∀ n, n < 8 → ∃ t, exec (.hostRegisterWrite x (0x40 + n) v) s = .next t ∧ t.ctx? x = some { k with bp := setAt k.bp n (v.extractLsb' 0 32) } ∧ { t with ctxs := s.ctxs } = s) ∧
        ∀ n, n < 4 → ∃ t, exec (.hostRegisterWrite x (0x48 + 2 * n) v) s = .next t ∧ t.ctx? x = some { k with wp := setAt k.wp n v } ∧ { t with ctxs := s.ctxs } = s)) ∧
  (∀ fn (v : Dword), fn ≤ 8 → (∀ n, n < 32 → (s.mailbox fn).arg.length = 256 → ∃ t, exec (.hostRegisterWrite fn (0x81 + n) v) s = .next t ∧
      (∀ k, k < 256 → getAt (t.mailbox fn).arg k 0 = if 8 * n ≤ k ∧ k < 8 * n + 8 then v.extractLsb' (8 * (k - 8 * n)) 8 else getAt (s.mailbox fn).arg k 0) ∧
      (t.mailbox fn).ctl = (s.mailbox fn).ctl ∧ { t with mailboxes := s.mailboxes } = s) ∧
    (∃ t, exec (.hostRegisterWrite fn 0x80 v) s = .next t ∧ { t with mailboxes := s.mailboxes } = s ∧
      (t.mailbox fn).ctl.extractLsb' 0 16 = v.extractLsb' 0 16 ∧ (t.mailbox fn).ctl.getLsbD 29 = v.getLsbD 29 ∧
      (t.mailbox fn).ctl.extractLsb' 16 8 = (s.mailbox fn).ctl.extractLsb' 16 8 ∧ (t.mailbox fn).ctl.getLsbD 30 = (s.mailbox fn).ctl.getLsbD 30 ∧
      (t.mailbox fn).ctl.getLsbD 31 = false)) ∧
  (∀ die, die ≤ 24 → ∃ t, exec (.budgetPeriod die) s = .next t ∧
    (∀ n k, t.bguseOf n k = if (die < 8 ∧ k = die ∧ (n = 3 ∨ n = 5 ∨ n = 6)) ∨ (8 ≤ die ∧ die < 24 ∧ k = die - 8 ∧ (n = 0 ∨ n = 1 ∨ n = 4)) ∨ (die = 24 ∧ k = 0 ∧ n = 2)
      then 0 else s.bguseOf n k) ∧
    (die < 8 → (lookupD die [] t.errHist).head? = some (s.corrections die)) ∧ { t with bguse := s.bguse, errHist := s.errHist } = s)

/-! ### Twins and memory management -/

namespace Sys2Proof.Claims

open Sys2Proof.Machine
open Host (Outcome Cell)

/-- Nothing that belongs to a twin is left, and everything else of the lists is as it was (R351). -/
structure TwinGone (s t : State) (num : Nat) : Prop where
  twins : t.twins = s.twins.filter (fun w => w.num != num)
  teams : t.teams = s.teams.filter (fun x => x.ctx != num)
  launches : t.launches = s.launches.filter (fun x => x.ctx != num)
  ctxs : t.ctxs = s.ctxs.filter (fun x => x.num != num)
  held : t.held = s.held.filter (fun x => x.ctx != num) ∧ t.wc = s.wc.filter (fun x => x.ctx != num)
  accesses : t.accesses = s.accesses.filter (fun a => !(s.teams.any (fun x => x.uid == a.team && x.ctx == num)))
  memory : t.mem = s.mem ∧ t.queues = s.queues ∧ t.images = s.images ∧ ∀ i ∈ s.due, i ∈ t.due

/-- A team of a context has its copy in a twin: everything of it but its numbers, its groups as they are at a cut (R340). -/
def Captured (t : State) (w : Twin) (tm : Team) : Prop :=
  ∃ new tm', (tm.uid, new) ∈ w.teams ∧ t.team? new = some tm' ∧ tm'.ctx = w.num ∧
    { tm' with uid := tm.uid, ctx := tm.ctx, launch := tm.launch, groups := tm.groups } = tm ∧
    tm'.groups.map (fun g => (g.idx, g.lanes, g.masks, g.ctrs, g.latches)) = tm.groups.map (fun g => (g.idx, g.lanes, g.masks, g.ctrs, noLatches))

/-- A twin's group with a lane, of a kernel (R350, R354). -/
structure TwinTargeted (s : State) (w : Twin) (u k lane : Nat) (tm : Team) (g : Group) (l : Launch) (m : Image) : Prop where
  holds : Holds s u k tm g l m
  mine : tm.ctx = w.num ∧ tm.uid = u ∧ g.idx = k
  lane : lane < g.lanes.length ∧ lane < 64

end Sys2Proof.Claims

/-- R339-R351, R354: the arbiter grants a claim when the context has no twin and a number is free, or counts it as missed; each core captures the
teams it holds, each home the held copies; the whole cut freezes the twin and tells the host; the frozen twin is stepped, edited and read, sends what
it has kept at RELEASE, becomes a rival or is discarded with all that is its own. The model's choices: the twin's number (log 69), the kept LAUNCH
(log 55), what EDIT
takes and when a step ends (log 73), the layout of TREAD's answer (log 113). -/
def Obligations.TwinsRun : Prop :=
  ∀ (s : State) (ctx : Nat) (c : Ctx), s.ctx? ctx = some c →
  (∀ k rest, c.claims = k :: rest →
    (c.twinOn = false ∨ (s.twinOf? ctx).isSome = true ∨ s.freeCtxs = [] → ∃ t, exec (.twinClaim ctx) s = .next t ∧
      t.ctx? ctx = some { c with claims := rest, missed := if c.missed = 0xFFFFFFFF then 0xFFFFFFFF else c.missed + 1 } ∧
      (∀ g, s.group? k.team k.grp = some g → g.wait = .claim → (∀ d ∈ s.ctxs, d.num ≠ ctx → ∀ j ∈ d.claims, j.team ≠ k.team) → (∀ j ∈ rest, j.team ≠ k.team) →
        t.group? k.team k.grp = some { g with wait := .none, stall := 0 }) ∧
      { t with ctxs := s.ctxs, teams := s.teams, due := s.due } = s) ∧
    (c.twinOn = true → s.twins = [] → s.freeCtxs ≠ [] → ∀ g, s.group? k.team k.grp = some g → s.wc = [] → s.works = [] → (∀ x ∈ s.teams, x.uid < s.nextId ∧ x.launch < s.nextId) →
      s.teams.Pairwise (fun x y => x.uid ≠ y.uid) → (∀ x ∈ s.teams, (s.launch? x.launch).isSome = true) →
      (∀ x ∈ s.teams, x.ctx = ctx → ∀ h ∈ x.groups, h.core / 2 = g.core / 2 → h.chain = none) → ∃ t w, exec (.twinClaim ctx) s = .next t ∧ t.twins = [w] ∧
      w.orig = ctx ∧ (s.ctx? w.num).isNone = true ∧ w.num < 64 ∧ w.state = .cutting ∧ w.trig = k.trig ∧ w.pc = k.pc ∧ w.gid = k.gid ∧ w.tval = k.tval ∧
      w.released = false ∧ (∀ n, n / 2 = g.core / 2 → n ∈ w.cutCores) ∧ (∃ c', t.ctx? w.num = some c' ∧ c'.base = c.base ∧ c'.slice = c.slice ∧ c'.twinOf = some ctx) ∧
      (∀ x ∈ s.teams, x.ctx = ctx → x.ended = false → (∃ h ∈ x.groups, h.core = g.core) → Captured t w x) ∧
      (∀ n, n < 320 → Instr.cutMarker ctx false n ∈ t.due) ∧ (∀ n, n < 8 → Instr.cutMarker ctx true n ∈ t.due) ∧ t.mem = s.mem)) ∧
  (∀ place, s.twinOf? ctx = none → ∀ home, exec (.cutMarker ctx home place) s = .next s) ∧
  (∀ w, s.twinOf? ctx = some w → s.twinNum? w.num = some w → s.twins = [w] →
    (w.state = .cutting → (∀ die, die < 8 → ∃ t w', exec (.cutMarker ctx true die) s = .next t ∧ t.twins = [w'] ∧
        (∀ d, d ∈ w'.cutHomes ↔ d = die ∨ d ∈ w.cutHomes) ∧ { w' with cutHomes := w.cutHomes, snap := w.snap, sels := w.sels } = w ∧
        (die ∉ w.cutHomes → w'.snap = w.snap ++ s.held.filter (fun h => h.ctx == ctx && homeDie (h.line * 256) == die) ∧
          w'.sels = w.sels ++ (s.pubs.filter (fun p => homeDie p.pa == die)).map (fun p => (p.pa, s.selOf ctx p))) ∧
        { t with twins := s.twins, due := s.due } = s) ∧
      (∀ core, core < 320 → core ∉ w.cutCores → s.wc = [] → s.works = [] → (∀ x ∈ s.teams, x.ctx = ctx → ∀ h ∈ x.groups, h.core / 2 = core / 2 → h.chain = none) →
        (∀ x ∈ s.teams, x.uid < s.nextId ∧ x.launch < s.nextId) → s.teams.Pairwise (fun x y => x.uid ≠ y.uid) → (∀ x ∈ s.teams, (s.launch? x.launch).isSome = true) →
        (∀ p ∈ w.teams, ∀ x, s.team? p.1 = some x → ∀ h ∈ x.groups, h.core ≠ core) →
        ∀ e ∈ [(.cut core ctx : Instr), .cutMarker ctx false core], ∃ t w', exec e s = .next t ∧ t.twinOf? ctx = some w' ∧ (∀ n, n / 2 = core / 2 → n ∈ w'.cutCores) ∧
          (∀ x ∈ s.teams, x.ctx = ctx → x.ended = false → (∃ h ∈ x.groups, h.core = core) → Captured t w' x) ∧
          (t.core core).shadow = (if (s.core core).active = some ctx then none else (s.core core).shadow) ∧ t.mem = s.mem) ∧
      ((∀ n, n < 320 → n ∈ w.cutCores) → (∀ n, n < 8 → n ∈ w.cutHomes) → w.snap = [] → exec (.cutComplete ctx) s = .next { s with
        twins := [{ w with state := .frozen, snap := [] }], out := .cut ctx :: s.out })) ∧
    (w.state = .stepping → (∃ u k, w.step = some (u, k, 0)) → s.working w.num = false → (∀ n, s.chainOn w.num n = false) → (∀ n, (s.core n).active ≠ some w.num) →
      ∃ t, exec (.stepDone ctx) s = .next t ∧ t.twins = [{ w with state := .frozen, step := none }] ∧
        (∀ x ∈ s.teams, x.ctx = w.num → ∀ y ∈ x.cores, (t.core y).shadow ≠ some w.num ∧ (t.coreCtx y w.num).ladder = .out ∧ (t.coreCtx y w.num).saved = true) ∧
        { t with twins := s.twins, cores := s.cores, coreCtxs := s.coreCtxs, due := s.due } = s) ∧
    (w.state = .rival → (∀ x ∈ s.teams, x.ctx ≠ w.num) → (∀ x ∈ s.launches, x.ctx ≠ w.num) → ∃ t, exec (.rivalEnd w.num) s = .next t ∧ TwinGone s t w.num) ∧
    (∀ fn, Accepts s fn true (s.ownCtx fn ctx) →
      (w.state ≠ .frozen → ∀ tg v, ∀ e ∈ [(.twinRelease fn ctx : Instr), .twinResume fn ctx, .twinStep fn ctx 0 0 1, .twinEdit fn ctx tg v, .tread fn ctx tg],
        ∃ t, exec e s = .next t ∧ HostAnswer s t fn 0x000C 1 []) ∧
      (∃ u, TwinGone s u w.num ∧ DoneOver u (exec (.twinDiscard fn ctx) s) fn 0x000C []) ∧
      (w.state = .frozen →
        (∃ u, DoneOver u (exec (.twinResume fn ctx) s) fn 0x000C [] ∧ u.twins = [{ w with state := .rival }] ∧
          (∀ x ∈ s.teams, x.ctx = w.num → ∀ y ∈ x.cores, Instr.restoreComplete y ∈ u.due) ∧ { u with twins := s.twins, due := s.due } = s) ∧
        ((∀ p ∈ w.quarantine, p.kind ≠ 0xE0 ∧ p.kind ≠ 0xE1 ∧ p.kind ≠ 0xE2 ∧ p.kind ≠ 0x09) →
          let sent := (w.quarantine.map (fun p => Notice.packet (s.stamped p))).reverse ++ s.out
          DoneOver { s with twins := [{ w with released := true, quarantine := [] }], out := sent } (exec (.twinRelease fn ctx) s) fn 0x000C []) ∧
        (∀ u k lane tm g l m, TwinTargeted s w u k lane tm g l m →
          (∀ n, 1 ≤ n → n ≤ 65536 → g.ended = false → ∃ v, DoneOver v (exec (.twinStep fn ctx u k n) s) fn 0x000C [] ∧
            v.twins = [{ w with state := .stepping, step := some (u, k, n) }] ∧ Instr.stepDone ctx ∈ v.due ∧ { v with twins := s.twins, due := s.due } = s) ∧
          (∀ n, n < m.regs →
            (∀ v, DoneOver (s.onGroup u k (fun g => g.onLanes (BitVec.ofNat 64 (2 ^ lane)) (fun _ x => { x with regs := setAt x.regs n (BitVec.ofNat 32 (leNat (v.take 8))) })))
              (exec (.twinEdit fn ctx (.reg u k lane n) v) s) fn 0x000C []) ∧
            DoneOver s (exec (.tread fn ctx (.reg u k lane n)) s) fn 0x000C (wordsBytes [(g.lane lane).reg n])) ∧
          (∀ n, m.regs ≤ n → ∀ v, ∀ e ∈ [(.twinEdit fn ctx (.reg u k lane n) v : Instr), .tread fn ctx (.reg u k lane n)],
            ∃ t, exec e s = .next t ∧ HostAnswer s t fn 0x000C 3 []) ∧
          (∀ n, n < 12 → DoneOver s (exec (.tread fn ctx (.mask u k n)) s) fn 0x000C (leBytes 8 (getAt g.masks n 0).toNat)) ∧
          (∀ off v, k = 0 → off + v.length ≤ m.scratch → DoneOver (s.onTeam u (fun x => { x with scratch := Memory.write x.scratch off v }))
            (exec (.twinEdit fn ctx (.scratch u off v.length) v) s) fn 0x000C []) ∧
          (∀ n v, n < 0x18 → (srInfo n).isSome = true → DoneOver (s.onGroup u k (fun g =>
            { g with edits := (lane, n, BitVec.ofNat 64 (leNat (v.take 8))) :: g.edits.filter (fun e => !(e.1 == lane && e.2.1 == n)) }))
            (exec (.twinEdit fn ctx (.special u k lane n) v) s) fn 0x000C []) ∧
          ∀ v, ∃ t, exec (.twinEdit fn ctx (.special u k lane 0x1A) v) s = .next t ∧ HostAnswer s t fn 0x000C 1 []) ∧
        (∀ va len pa, 4 ≤ len → va % 256 + len ≤ 256 → s.twinBytes w va len = some pa →
          DoneOver s (exec (.tread fn ctx (.bytes va len)) s) fn 0x000C ((List.range len).map (fun k => s.viewByte w.num (pa + k)))))))

/-- R272, R274, R275, R277, R278, R282, R298, R397: a fill writes the leaf and lets the parked groups repeat their checks, a refusal leaves them a
fault; an invalidation is acknowledged when nothing old is left; a migration copies, freezes, moves the page with its held lines and names it in the
leaf, and drains; the host reads and writes memory at its home; the lines of a frame are scrubbed within budget 0, the whole frame is clean, and the
frames of areas follow. The model's choices:
the pages of a region that migrate (log 35), the read of a poisoned sector (log 36), the neighbourhood of an invalidation (log 68), the frames (logs
3, 66), minimal mode's stacks (log 116). -/
def Obligations.MemoryIsManaged : Prop :=
  ∀ (s : State), s.twins = [] → Memory.wf s.mem = true →
  (∀ (ctx va : Nat) (c : Ctx), s.ctx? ctx = some c → (∃ r ∈ s.faultq, r.ctx = ctx ∧ r.page = va % 2 ^ 64 / 65536 * 65536) → s.copies = [] →
    let page := va % 2 ^ 64 / 65536 * 65536
    (∀ leaf at_ n, walkEntry s.mem va c.base walkLevels = some (at_, n) → s.migrations = [] → ∃ t, exec (.faultFill ctx va leaf) s = .next t ∧
      (∀ b, Memory.get t.mem b = (lastStored [(at_, leBytes 8 leaf.toNat)] b).getD (Memory.get s.mem b)) ∧
      t.faultq = s.faultq.filter (fun r => !(r.ctx == ctx && r.page == page)) ∧
      t.teams = s.teams.map (fun x => if x.ctx = ctx then { x with groups := x.groups.map (fun g => if g.parked.contains page then
        { g with parked := g.parked.filter (fun p => p != page) } else g) } else x) ∧ { t with mem := s.mem, poison := s.poison, faultq := s.faultq, teams := s.teams } = s) ∧
    (∃ t, exec (.faultRefusal ctx va) s = .next t ∧ t.faultq = s.faultq.filter (fun r => !(r.ctx == ctx && r.page == page)) ∧
      t.teams = s.teams.map (fun x => if x.ctx = ctx then { x with groups := x.groups.map (fun g => if g.parked.contains page then
        { g with parked := g.parked.filter (fun p => p != page), refused := addOnce page g.refused } else g) } else x) ∧
      { t with faultq := s.faultq, teams := s.teams } = s)) ∧
  (∀ ctx va, (∀ a ∈ s.accesses, s.ctxOf a.team = ctx → ∀ x ∈ a.lanes, x.va / 2 ^ 30 ≠ va / 2 ^ 30) → (∀ e ∈ s.wc, e.ctx ≠ ctx) → (∀ r ∈ s.reqs, r.pkt.ctx ≠ ctx) →
    (∀ c ∈ s.copies, s.ctxOf c.team = ctx → ∀ x ∈ c.slices, x.asked = false) → (∀ c ∈ s.colls, s.ctxOf c.team = ctx → c.src.asked = false) →
    exec (.hostInvalidate ctx va) s = .next { s with out := .invalidated ctx va :: s.out }) ∧
  (∀ fn ctx va newPa c e page, Accepts s fn false false → s.ctx? ctx = some c → walk s.mem va c.base walkLevels = .leaf e page →
    (e.extractLsb' 52 12).toNat = s.part → entryAddr e < Config.hostBase → newPa % page = 0 → newPa < Config.hostBase →
    (s.sliceStacks ctx).getLsbD (newPa / 2 ^ 36) = true → entryAddr e ≠ newPa → s.migrations = [] →
    let m := Migration.mk s.nextId ctx va (entryAddr e) newPa page .copy [] 0 []
    DoneOver { s with nextId := s.nextId + 1, migrations := [m], due := s.due ++ [.migrationCopyEnd s.nextId] }
      (exec (.pageMigrate fn ctx va newPa) s) fn ((s.mailbox fn).ctl.toNat % 65536) []) ∧
  (∀ m : Migration, s.mig? m.id = some m → s.migrations = [m] →
    (m.state = .copy →
      (2048 < m.dirty.length → m.passes < 3 → let m' : Migration := { m with dirty := [], passes := m.passes + 1 }
        exec (.migrationCopyEnd m.id) s = .next { s with migrations := [m'], due := s.due ++ [.migrationCopyEnd m.id] }) ∧
      (m.dirty.length ≤ 2048 ∨ 3 ≤ m.passes → let m' : Migration := { m with state := .freeze, passes := m.passes + 1 }
        exec (.migrationCopyEnd m.id) s = .next { s with migrations := [m'], due := s.due ++ [.migrationFreezeEnd m.id] })) ∧
    (∀ c at_ n, m.state = .freeze → (∀ x cs, m.queued.head? ≠ some (.put x cs)) → (∀ x, m.queued.head? ≠ some (.entry x)) →
      (∀ h ∈ (s.movePage m).held, h.place = .way → m.newPa ≤ h.line * 256 → h.line * 256 < m.newPa + m.bytes →
        (s.movePage m).waysHold ((s.movePage m).sliceOf h.ctx) h.line = true) → s.ctx? m.ctx = some c → walkEntry s.mem m.va c.base walkLevels = some (at_, n) →
      (at_ + 8 ≤ m.newPa ∨ m.newPa + m.bytes ≤ at_) → (m.oldPa + m.bytes ≤ m.newPa ∨ m.newPa + m.bytes ≤ m.oldPa) → m.oldPa % 256 = 0 → m.newPa % 256 = 0 → m.bytes % 256 = 0 →
      ∃ t, exec (.migrationFreezeEnd m.id) s = .next t ∧ t.migrations = [{ m with state := .drain }] ∧ Instr.migrationDrainEnd m.id ∈ t.due ∧
      (∀ k, k < m.bytes → Memory.get t.mem (m.newPa + k) = Memory.get s.mem (m.oldPa + k)) ∧
      (∀ b, ¬ (m.newPa ≤ b ∧ b < m.newPa + m.bytes) → ¬ (at_ ≤ b ∧ b < at_ + 8) → Memory.get t.mem b = Memory.get s.mem b) ∧
      (let e : Dword := BitVec.ofNat 64 (leNat (Memory.read s.mem at_ 8))
       Memory.read t.mem at_ 8 = leBytes 8 ((e &&& 0xFFF0000000000FFF) ||| BitVec.ofNat 64 m.newPa).toNat) ∧
      (∀ h ∈ s.held, m.oldPa ≤ h.line * 256 → h.line * 256 < m.oldPa + m.bytes → ∃ k ∈ t.held, k.team = h.team ∧ k.line * 256 = h.line * 256 - m.oldPa + m.newPa) ∧
      { t with mem := s.mem, poison := s.poison, held := s.held, marks := s.marks, pubs := s.pubs, meters := s.meters, migrations := s.migrations,
               due := s.due } = s) ∧
    (m.state = .drain → m.queued = [] → ∃ t, exec (.migrationDrainEnd m.id) s = .next t ∧ t.migrations = [] ∧ t.mem = s.mem ∧ t.teams = s.teams ∧ t.held = s.held)) ∧
  (∀ pa, s.migrations = [] →
    (s.up = true → ∀ n, 0 < n → pa % 256 + n ≤ 256 → pa < Config.hostBase → (s.meter? pa = none → s.marks = [] → exec (.cxlMemRead pa n) s = .next { s with
        out := .hostRead pa (if s.poisoned pa n then none else some ((List.range n).map (fun k => Memory.get s.mem (pa + k)))) :: s.out }) ∧
      (∀ m, s.meter? pa = some m → exec (.cxlMemRead pa n) s = .next { s with out := .hostRead pa none :: s.out })) ∧
    (∀ bs : List Byte, bs ≠ [] → pa % 256 + bs.length ≤ 256 → s.up = true ∨ Config.hostBase ≤ pa → ∃ t, exec (.cxlMemWrite pa bs) s = .next t ∧
      (∀ b, Memory.get t.mem b = (lastStored [(pa, bs)] b).getD (Memory.get s.mem b)) ∧ { t with mem := s.mem, poison := s.poison } = s)) ∧
  (∀ stack, s.spent 0 stack = false → s.stalls = [] → let left := (s.bgbudOf 0 stack).toNat % 2 ^ 24 - s.bguseOf 0 stack
    (∀ f, s.frames.find? (fun x => x.1 / 2 ^ 20 == stack && x.2 == .scrub) = some (f, .scrub) → lookupD (f + 16) 0 s.scrubAt < 256 →
      let k := lookupD (f + 16) 0 s.scrubAt
      let n := min (256 - k) left
      let hit := fun (line : Nat) => 256 * f + k ≤ line ∧ line < 256 * f + k + n
      ∃ t, exec (.frameScrub stack) s = .next t ∧ (∀ b, hit (b / 256) → Memory.get t.mem b = 0) ∧ (∀ b, ¬ hit (b / 256) → Memory.get t.mem b = Memory.get s.mem b) ∧
        (∀ p, p ∈ t.poison ↔ p ∈ s.poison ∧ ¬ hit (p * 32 / 256)) ∧ t.bguseOf 0 stack = s.bguseOf 0 stack + n ∧
        t.frames = (if k + n = 256 then s.frames.filter (fun x => x.1 != f) else s.frames) ∧ lookupD (f + 16) 0 t.scrubAt = (if k + n = 256 then 0 else k + n) ∧
        { t with frames := s.frames, mem := s.mem, poison := s.poison, bguse := s.bguse, scrubAt := s.scrubAt, begun := s.begun, due := s.due } = s) ∧
    (∀ m rest, (∀ x ∈ s.frames, x.1 / 2 ^ 20 = stack → x.2 ≠ .scrub) → s.scrubAreas = (stack, m) :: rest → lookupD stack 0 s.scrubAt < 256 →
      let k := lookupD stack 0 s.scrubAt
      let n := min (256 - k) left
      ∃ t, exec (.frameScrub stack) s = .next t ∧ t.scrubAreas = (if k + n = 256 then (if m ≤ 1 then rest else (stack, m - 1) :: rest) else s.scrubAreas) ∧
        lookupD stack 0 t.scrubAt = (if k + n = 256 then 0 else k + n) ∧ t.bguseOf 0 stack = s.bguseOf 0 stack + n ∧
        { t with scrubAreas := s.scrubAreas, bguse := s.bguse, scrubAt := s.scrubAt, begun := s.begun, due := s.due } = s))

/-! ### Host commands -/

namespace Sys2Proof.Claims

open Sys2Proof.Machine
open Host (Outcome Cell)

/-- A command that is written while its mailbox is BUSY changes nothing, and a virtual function that may not give it gets STATUS 0x02 with nothing
else changed (R396, R398-R400). -/
structure Guarded (s : State) (fn opc : Nat) (v own : Bool) (i : Instr) : Prop where
  busy : (s.mailbox fn).ctl.getLsbD 30 = true → exec i s = .next s
  denied : (s.mailbox fn).ctl.getLsbD 30 = false → fn ≠ 0 → ¬ (v = true ∧ own = true) → ∃ t, exec i s = .next t ∧ HostAnswer s t fn opc 2 []

/-- A command has ended with a STATUS and changed nothing else (R400). -/
def AnsweredWith (s : State) (o : Outcome State Fault Refusal) (fn opc status : Nat) : Prop :=
  ∃ t, o = .next t ∧ HostAnswer s t fn opc status []

/-- A command waits for frames (R398, R400): BUSY stays 1, and it is the last of the stalled commands. -/
structure Waits (s t : State) (fn opc : Nat) (c : Stalled) : Prop where
  ctl : (t.mailbox fn).ctl.getLsbD 30 = true ∧ (t.mailbox fn).ctl.toNat % 65536 = opc ∧ (t.mailbox fn).ctl.getLsbD 29 = (s.mailbox fn).ctl.getLsbD 29
  same : (t.mailbox fn).arg = (s.mailbox fn).arg ∧ (t.mailbox fn).res = (s.mailbox fn).res
  last : t.stalls = s.stalls ++ [c]
  rest : { t with mailboxes := s.mailboxes, stalls := s.stalls } = s

/-- A context has been changed, and nothing else. -/
structure CtxIs (s u : State) (ctx : Nat) (c : Ctx) : Prop where
  there : u.ctx? ctx = some c
  others : ∀ n, n ≠ ctx → u.ctx? n = s.ctx? n
  rest : { u with ctxs := s.ctxs } = s

/-- A statement of a region has been signed (R394, R395): its fields, the region with the statement's digest as the one before the next, and the
statement sent; no other region or part of the state is changed. -/
structure Signed (s u : State) (m : Meter) (kind : Nat) (gap : Bool) (prev stmt : List Byte) : Prop where
  meters : u.meters = m :: s.meters.filter (fun x => x.region != m.region)
  sent : u.out = .statement stmt :: s.out ∧ u.statements = stmt :: s.statements
  fields : stmt.length = 192 ∧ bytesAt stmt 0 4 = 0x4D545243 ∧ bytesAt stmt 4 2 = kind ∧ bytesAt stmt 6 2 = (if gap then 1 else 0) ∧
    bytesAt stmt 0x18 4 = m.region.toNat ∧ bytesAt stmt 0x20 8 = m.seq.toNat ∧ bytesAt stmt 0x28 8 = m.counter.toNat ∧
    (stmt.drop 0x30).take 48 = padTo 48 prev ∧ stmt.drop 0x60 = padTo 96 (Config.freeSignature (stmt.take 0x60))
  hash : m.hash = sha384 (stmt.take 0x60)
  rest : { u with meters := s.meters, out := s.out, statements := s.statements, chained := s.chained } = s

/-- A region may be registered (R391): whole pages of this part's HBM, and an allowlist of at most 16 measurements. -/
structure Meterable (s : State) (region : Word) (base pages : Nat) (allow : List (List Byte)) : Prop where
  whole : base % 65536 = 0 ∧ pages ≠ 0 ∧ base + pages * 65536 ≤ Config.hostBase
  list : allow.length ≤ 16 ∧ ∀ a ∈ allow, a.length = 48
  free : ∀ m ∈ s.meters, m.closed = false → m.region ≠ region ∧ ∀ k, k < pages → m.holds (base + k * 65536) = false

end Sys2Proof.Claims

/-- R396, R398-R400: whatever the command, a mailbox that is BUSY ignores it, and a virtual function is answered 0x02 for a command that is not V or
is about what is not its slice's. The model's choice: the commands without a code keep the mailbox's and are PF0's (log 77). -/
def Obligations.HostCommandsAreGuarded : Prop :=
  ∀ (s : State) (fn ctx : Nat), fn ≤ 8 → s.up = true → let own := s.ownCtx fn ctx; let same := (s.mailbox fn).ctl.toNat % 65536
  (∀ n base, Guarded s fn 0x0001 true (sliceOfFn fn == some n) (.ctxnew fn ctx n base)) ∧ Guarded s fn 0x0002 true own (.ctxfree fn ctx) ∧
  (∀ q fed anchor set d, Guarded s fn 0x0003 true own (.qcreate fn q ctx fed anchor set d)) ∧ (∀ a d, Guarded s fn 0x0004 true own (.regimg fn ctx a d)) ∧
  (∀ i b z, Guarded s fn 0x0005 true true (.mapwin fn i b z)) ∧ (∀ n k, Guarded s fn 0x0006 true (sliceOfFn fn == some n) (.frameAlloc fn n k)) ∧
  (∀ f n, s.frames.find? (fun x => x.1 == f) = some (f, .taken n) → Guarded s fn 0x0006 true (sliceOfFn fn == some n) (.frameFree fn f)) ∧
  (∀ va n pa, Guarded s fn 0x0007 true own (.pubreg fn ctx va n pa)) ∧
  (∀ r b n al, Guarded s fn 0x0008 false false (.metreg fn r b n al)) ∧ (∀ r, Guarded s fn 0x0008 false false (.metdereg fn r)) ∧
  (∀ n cl st, Guarded s fn 0x0009 false false (.sliceset fn n cl st)) ∧
  (∀ v, Guarded s fn 0x000A true own (.setregCxpark fn ctx v) ∧ Guarded s fn 0x000A true own (.setregTwinctl fn ctx v)) ∧
  (∀ v n, Guarded s fn 0x000A true own (.setregCxtime fn ctx v) ∧ Guarded s fn 0x000A true own (.setregWatchdogLimit fn ctx v) ∧
    Guarded s fn 0x000A true own (.setregBpimg fn ctx n v)) ∧
  (∀ n die v, Guarded s fn 0x000A false false (.setregBgbud fn n die v) ∧ Guarded s fn 0x000A false false (.setregWarncfg fn die v)) ∧
  (∀ mask due nd, Guarded s fn 0x000B true ((maskCtxs mask).all (s.ownCtx fn)) (.recall fn mask due nd) ∧
    Guarded s fn 0x000B true ((maskCtxs mask).all (s.ownCtx fn)) (.recallLift fn mask)) ∧
  (∀ u k n tg v, ∀ e ∈ [(.twinRelease fn ctx : Instr), .twinResume fn ctx, .twinStep fn ctx u k n, .twinEdit fn ctx tg v, .twinDiscard fn ctx, .tread fn ctx tg],
    Guarded s fn 0x000C true own e) ∧
  (∀ i v, Guarded s fn 0x000D true (((sliceOfFn fn).map (fun n => (exportStacks v).all (fun k => (s.sliceRow n).stackSet.getLsbD k))).getD true) (.exportWindow fn i v)) ∧
  (∀ ms onto, Guarded s fn 0x000E false false (.restore fn ctx ms onto)) ∧
  (∀ r b n al stmt, Guarded s fn 0x000E false false (.migrateIn fn r b n al stmt) ∧ Guarded s fn 0x000E false false (.migrateOut fn r) ∧
    Guarded s fn 0x000E false false (.replace fn r b n al stmt)) ∧
  (∀ w, Guarded s fn 0x000F false false (.pwrlim fn w)) ∧ Guarded s fn 0x0010 true true (.startinfo fn) ∧
  (∀ cs va pa areas tm tg n, Guarded s fn same false false (.preemptRequest fn ctx cs) ∧ Guarded s fn same false false (.pageMigrate fn ctx va pa) ∧
    Guarded s fn same false false (.facsimileRegistration fn ctx areas tm tg n) ∧ Guarded s fn same false false (.warningWordRegistration fn ctx va))

/-- R73, R75, R272, R284, R299, R304, R321, R323, R336, R338, R369, R384-R386, R399, R400, R403, R405, R406: what each command on a context, a queue,
an image, a register, a window or the power limit does when its arguments are within their limits, and the refusals of the rest. The model's choices:
REGIMG does not check a header (log 40), a virtual function's windows (log 41), the numbers of dies (log 65), the commands without a code (log 77). -/
def Obligations.ContextCommands : Prop :=
  ∀ (s : State) (fn ctx : Nat),
  (∀ n base, Accepts s fn true (sliceOfFn fn == some n) → ctx < 64 → n < 8 → base % 4096 = 0 → base < 2 ^ 52 →
    ((s.ctx? ctx).isSome = true → AnsweredWith s (exec (.ctxnew fn ctx n base) s) fn 0x0001 1) ∧
    (s.ctx? ctx = none → (s.startMode = 1 → s.ctxs = []) → ∃ c u, DoneOver u (exec (.ctxnew fn ctx n base) s) fn 0x0001 [] ∧ CtxIs s u ctx c ∧ c.num = ctx ∧ c.slice = n ∧ c.base = base ∧
      c.bp = List.replicate 8 0xFFFFFFFF ∧ c.wp = List.replicate 4 0 ∧ c.bpimg = List.replicate 8 0 ∧ c.cxpark = 0x00800040 ∧ (c.cxtime.extractLsb' 40 16).toNat = 1000 ∧
      (c.cxtime.extractLsb' 24 16).toNat = 10000 ∧ c.cxtime.extractLsb' 16 8 = 0 ∧ c.twinctl = 256 ∧ c.warnWord = none ∧ c.fac = none ∧ c.twinOf = none)) ∧
  (∀ n base, Accepts s fn true (sliceOfFn fn == some n) → 64 ≤ ctx ∨ 8 ≤ n ∨ base % 4096 ≠ 0 ∨ 2 ^ 52 ≤ base →
    AnsweredWith s (exec (.ctxnew fn ctx n base) s) fn 0x0001 3) ∧
  (Accepts s fn true (s.ownCtx fn ctx) → ∀ c, s.ctx? ctx = some c →
    ((∃ x ∈ s.teams, x.ctx = ctx) ∨ (∃ q ∈ s.queues, q.ctx = ctx) → AnsweredWith s (exec (.ctxfree fn ctx) s) fn 0x0002 1) ∧
    ((∀ x ∈ s.teams, x.ctx ≠ ctx) → (∀ q ∈ s.queues, q.ctx ≠ ctx) → s.stalls = [] → s.twinOf? ctx = none → s.twinNum? ctx = none → ∃ u, DoneOver u (exec (.ctxfree fn ctx) s) fn 0x0002 [] ∧
      u.ctx? ctx = none ∧ (∀ n, n ≠ ctx → u.ctx? n = s.ctx? n) ∧ (∀ p, p ∈ u.pubs ↔ p ∈ s.pubs ∧ p.ctx ≠ ctx) ∧ (∀ f, f ∈ u.faultq ↔ f ∈ s.faultq ∧ f.ctx ≠ ctx) ∧
      (∀ f, f ∈ u.facs ↔ f ∈ s.facs ∧ f.ctx ≠ ctx) ∧ (∀ a, a ∈ u.areas ↔ a ∈ s.areas ∧ a.ctx ≠ ctx) ∧ (∀ k, (u.core k).active ≠ some ctx ∧ (u.core k).shadow ≠ some ctx) ∧
      { u with ctxs := s.ctxs, pubs := s.pubs, faultq := s.faultq, facs := s.facs, cores := s.cores, coreCtxs := s.coreCtxs, areas := s.areas,
               scrubAreas := s.scrubAreas } = s) ∧
    (∀ q fed anchor set (d : Word), q < 256 → anchor < 2 ^ 64 → set.length ≤ 64 → set.head? = some s.part → (∀ p ∈ set, p < 4096) → set.eraseDups = set → s.twinNum? ctx = none →
      (anchor % 64 ≠ 0 → AnsweredWith s (exec (.qcreate fn q ctx fed anchor set d) s) fn 0x0003 3) ∧
      (anchor % 64 = 0 → (s.queue? q).isSome = true → AnsweredWith s (exec (.qcreate fn q ctx fed anchor set d) s) fn 0x0003 1) ∧
      (anchor % 64 = 0 → s.queue? q = none → DoneOver { s with queues := s.queues ++ [⟨q, ctx, fed, anchor, set, if d = 0 then 1000 else d, [], 0, [], none⟩] }
        (exec (.qcreate fn q ctx fed anchor set d) s) fn 0x0003 [])) ∧
    (∀ addr data header bs (v : State) ok, addr % 64 = 0 → addr < 2 ^ 64 → data % 65536 = 0 → data < 2 ^ 64 → (∀ l ∈ s.launches, l.image ≠ addr) →
      s.vaBytes ctx 2 addr 128 = (some header, []) → s.vaBytes ctx (imageSize header / 65536 + 2) addr (imageSize header) = (some bs, []) →
      let others := s.images.filter (fun m => m.addr != addr)
      let relocs : List Dword := (chunksOf 8 (bytesAt header 0x48 4) (bs.drop (128 + 4 * bytesAt header 0x44 4))).map (fun c => BitVec.ofNat 64 (leNat c))
      let sec := resolveData data (bs.drop (imageSize header - bytesAt header 0x50 4)) relocs
      others.length < 4096 → sumOf (others.map (fun m => imageSize m.header)) + imageSize header ≤ 2 ^ 31 → bs.take 128 = header → bs.length = imageSize header →
      s.placeBytes ctx .write (sec.length / 65536 + 2) data sec = some (v, some ok) →
      ∃ m, DoneOver { v with images := others ++ [m], far := [] } (exec (.regimg fn ctx addr data) s) fn 0x0004 m.meas ∧ m.addr = addr ∧ m.ctx = ctx ∧ m.header = header ∧ m.dataOk = ok ∧
        m.meas = sha384 (bs.take (imageSize header - bytesAt header 0x50 4)) ∧ m.relocs = relocs ∧ m.pool.length = bytesAt header 0x44 4 ∧ m.code.length = bytesAt header 0x4C 4 ∧
        (∀ k, k < m.code.length → (getAt m.code k 0).toNat = bytesAt bs (128 + 4 * bytesAt header 0x44 4 + 8 * bytesAt header 0x48 4 + 4 * k) 4) ∧
        ∀ k, k < m.pool.length → getAt m.pool k 0 =
          match (relocs.filter (fun r => !(r.getLsbD 63) && (r.extractLsb' 32 30).toNat == k)).getLast? with
          | some r => (BitVec.ofNat 64 data + (r.extractLsb' 0 32).signExtend 64).extractLsb' (if r.getLsbD 62 then 32 else 0) 32
          | none => BitVec.ofNat 32 (bytesAt bs (128 + 4 * k) 4)) ∧
    (∀ addr data far, addr % 64 = 0 → addr < 2 ^ 64 → data % 65536 = 0 → data < 2 ^ 64 → (∀ l ∈ s.launches, l.image ≠ addr) → s.vaBytes ctx 2 addr 128 = (none, far) →
      ∃ t, exec (.regimg fn ctx addr data) s = .next t ∧ HostAnswer { s with far := [] } t fn 0x0004 1 []) ∧
    (∀ w : Word, ∃ u, CtxIs s u ctx { c with cxpark := w &&& 0x80FFFFFF } ∧ DoneOver u (exec (.setregCxpark fn ctx w) s) fn 0x000A []) ∧
    (∀ w : Dword, (∃ u, CtxIs s u ctx { c with cxtime := w &&& 0x00FFFFFFFFFF0000 } ∧ DoneOver u (exec (.setregCxtime fn ctx w) s) fn 0x000A []) ∧
      (∃ u, CtxIs s u ctx { c with wdogLimit := w } ∧ DoneOver u (exec (.setregWatchdogLimit fn ctx w) s) fn 0x000A []) ∧
      ∀ n, (n < 8 → ∃ u, CtxIs s u ctx { c with bpimg := setAt c.bpimg n w } ∧ DoneOver u (exec (.setregBpimg fn ctx n w) s) fn 0x000A []) ∧
        (8 ≤ n → AnsweredWith s (exec (.setregBpimg fn ctx n w) s) fn 0x000A 3)) ∧
    (∀ w : Word, (∀ x, s.twinNum? ctx = some x → x.state = .rival) →
      (4096 < (w.extractLsb' 0 13).toNat → AnsweredWith s (exec (.setregTwinctl fn ctx w) s) fn 0x000A 3) ∧
      ((w.extractLsb' 0 13).toNat ≤ 4096 →
        (s.canReserve ctx w = true → s.stalls = [] → w.getLsbD 31 = true ∧ w.extractLsb' 0 13 ≠ 0 ∨ s.twinOf? ctx = none →
          let frames := fun (x : Word) => if x.getLsbD 31 then 16 * (x.extractLsb' 0 13).toNat else 0
          let left := frames c.twinctl - frames w
          DoneOver { s.onCtx ctx (fun c => { c with twinctl := w &&& 0xC0001FFF }) with scrubAreas := if left = 0 then s.scrubAreas else
              s.scrubAreas ++ ((List.range 16).filter (fun k => (s.sliceStacks ctx).getLsbD k)).map (fun k => (k, left)) }
            (exec (.setregTwinctl fn ctx w) s) fn 0x000A []) ∧
        (s.canReserve ctx w = true ↔ (w.getLsbD 31 = true → ∀ k, k < 16 → (s.sliceStacks ctx).getLsbD k = true →
          16 * (w.extractLsb' 0 13).toNat ≤ (s.onCtx ctx (fun c => { c with twinctl := 0 })).cleanCount k)) ∧
        (s.canReserve ctx w = false → ∃ t, exec (.setregTwinctl fn ctx w) s = .next t ∧ Waits s t fn 0x000A (.twinctl fn ctx w)))) ∧
    (∀ va, fn = 0 → va % 8 = 0 → va < 2 ^ 64 → ∃ u, CtxIs s u ctx { c with warnWord := some va } ∧
      DoneOver u (exec (.warningWordRegistration fn ctx va) s) fn ((s.mailbox fn).ctl.toNat % 65536) []) ∧
    (∀ areas template target bytes, fn = 0 → (∀ a ∈ areas, a.1 % 65536 = 0 ∧ a.2 % 65536 = 0 ∧ a.1 % 2 ^ 36 + a.2 ≤ 2 ^ 36 ∧
      (s.sliceStacks ctx).getLsbD (a.1 / 2 ^ 36) = true) → template < 2 ^ 64 → 2 ^ 40 ≤ target →
      (∃ w ∈ s.windows, w.2.1 ≤ target ∧ target + bytes ≤ w.2.1 + w.2.2) → ∃ u, CtxIs s u ctx { c with fac := some ⟨areas, template, target, bytes⟩ } ∧
      DoneOver u (exec (.facsimileRegistration fn ctx areas template target bytes) s) fn ((s.mailbox fn).ctl.toNat % 65536) [])) ∧
  (∀ index (v : BitVec 128), Accepts s fn true (((sliceOfFn fn).map (fun n => (exportStacks v).all (fun k => (s.sliceRow n).stackSet.getLsbD k))).getD true) → index < 4096 →
    (v.getLsbD 104 = true → v.extractLsb' 64 40 ≠ 0) → (v.extractLsb' 16 36).toNat + (v.extractLsb' 64 40).toNat ≤ 2 ^ 36 →
    ∃ u, DoneOver u (exec (.exportWindow fn index v) s) fn 0x000D [] ∧ lookupD index 0 u.exports = v &&& 0xFFFFC7FFFFFFFFFF000FFFFFFFFF0000 ∧
      (∀ i, i ≠ index → lookupD i 0 u.exports = lookupD i 0 s.exports) ∧ { u with exports := s.exports } = s) ∧
  (∀ watts, Accepts s fn false false → if 1200 ≤ watts ∧ watts ≤ 2700 ∧ watts % 25 = 0 then DoneOver { s with pwrLimit := watts } (exec (.pwrlim fn watts) s) fn 0x000F []
    else AnsweredWith s (exec (.pwrlim fn watts) s) fn 0x000F 3) ∧
  (∀ n die (v : Word), Accepts s fn false false → if n < 7 ∧ die < (if n = 2 then 1 else if n = 3 ∨ n = 5 ∨ n = 6 then 8 else 16) then
      ∃ u, DoneOver u (exec (.setregBgbud fn n die v) s) fn 0x000A [] ∧ (∀ a d, u.bgbudOf a d = if a = n ∧ d = die then v &&& 0x80FFFFFF else s.bgbudOf a d) ∧ { u with bgbud := s.bgbud } = s
    else AnsweredWith s (exec (.setregBgbud fn n die v) s) fn 0x000A 3) ∧
  (∀ die (v : Word), Accepts s fn false false → if die < 8 then
      ∃ u, DoneOver u (exec (.setregWarncfg fn die v) s) fn 0x000A [] ∧ (∀ d, u.warncfgOf d = if d = die then v else s.warncfgOf d) ∧ { u with warncfg := s.warncfg } = s
    else AnsweredWith s (exec (.setregWarncfg fn die v) s) fn 0x000A 3) ∧
  (Accepts s fn true true → ∃ r, DoneOver s (exec (.startinfo fn) s) fn 0x0010 r ∧ r.length = 16 ∧ bytesAt r 0 1 = s.startMode % 256 ∧ bytesAt r 1 1 = s.startReason % 256 ∧
    bytesAt r 2 1 = min s.startFails 255 ∧ bytesAt r 3 1 = 0 ∧ bytesAt r 4 5 = s.portsDown.toNat ∧ r.drop 9 = List.replicate 7 0)

/-- R193, R280-R282, R390, R391, R394, R395, R397, R400: windows, frames, publishable regions, slices, metered regions and restoring, and the
targets that are busy. The model's choices: what METREG refuses (log 38), a lost part's layout and where RESTORE's status stands (log 39), the frame drawn
(log 66) and the numbering of its stack (log 89), the hubs of SLICESET (log 67), the mark signedOk (log 80), the busy targets (log 115). -/
def Obligations.MemoryCommands : Prop :=
  ∀ (s : State) (fn : Nat),
  (∀ i base size, Accepts s fn true true →
    if i < 16 ∧ size % 2097152 = 0 ∧ base % 2097152 = 0 ∧ 2 ^ 40 ≤ base ∧ base + size ≤ 2 ^ 52 then ∃ u, DoneOver u (exec (.mapwin fn i base size) s) fn 0x0005 [] ∧
      (∀ w, w ∈ u.windows ↔ (w ∈ s.windows ∧ w.1 ≠ i) ∨ (size ≠ 0 ∧ w = (i, base, size))) ∧ { u with windows := s.windows } = s
    else AnsweredWith s (exec (.mapwin fn i base size) s) fn 0x0005 3) ∧
  (∀ n stack, Accepts s fn true (sliceOfFn fn == some n) → stack < 16 → (s.sliceRow n).stackSet.getLsbD stack = true →
    (s.cleanCount stack ≠ 0 → ∃ f u, DoneOver u (exec (.frameAlloc fn n stack) s) fn 0x0006 (leBytes 8 (f * 65536)) ∧ f / 2 ^ 20 = stack ∧ (∀ x ∈ s.frames, x.1 ≠ f) ∧
      u.frames = (f, .taken n) :: s.frames ∧ { u with frames := s.frames, freeTick := s.freeTick } = s) ∧
    (s.cleanCount stack = 0 → ∃ t, exec (.frameAlloc fn n stack) s = .next t ∧ Waits s t fn 0x0006 (.frame fn n stack))) ∧
  (∀ f, (∀ n, s.frames.find? (fun x => x.1 == f) = some (f, .taken n) → Accepts s fn true (sliceOfFn fn == some n) →
      DoneOver { s with frames := s.frames.filter (fun x => x.1 != f) ++ [(f, .scrub)] } (exec (.frameFree fn f) s) fn 0x0006 []) ∧
    ((∀ x ∈ s.frames, x.1 ≠ f) → Accepts s fn false false → AnsweredWith s (exec (.frameFree fn f) s) fn 0x0006 1)) ∧
  (∀ ctx va bytes pa, Accepts s fn true (s.ownCtx fn ctx) → (s.ctx? ctx).isSome = true →
    (bytes ≠ 0 → va % 65536 = 0 → bytes % 65536 = 0 → pa % 65536 = 0 → pa + 2 * bytes ≤ 2 ^ 40 →
      ((s.pubs.filter (fun p => p.ctx == ctx)).length = 64 → AnsweredWith s (exec (.pubreg fn ctx va bytes pa) s) fn 0x0007 1) ∧
      ((s.pubs.filter (fun p => p.ctx == ctx)).length < 64 → (∀ p ∈ s.pubs, (p.ctx = ctx → p.va + p.bytes ≤ va ∨ va + bytes ≤ p.va) ∧
          (p.pa + 2 * p.bytes ≤ pa ∨ pa + 2 * bytes ≤ p.pa)) →
        DoneOver { s with pubs := s.pubs ++ [⟨ctx, va, bytes, pa, false, false, []⟩] } (exec (.pubreg fn ctx va bytes pa) s) fn 0x0007 [])) ∧
    (bytes = 0 → (∃ p ∈ s.pubs, p.ctx = ctx ∧ p.va = va ∧ p.copying = false) →
      DoneOver { s with pubs := s.pubs.filter (fun p => !(p.ctx == ctx && p.va == va)) } (exec (.pubreg fn ctx va bytes pa) s) fn 0x0007 []) ∧
    (bytes = 0 → (∃ p ∈ s.pubs, p.ctx = ctx ∧ p.va = va) → (∀ p ∈ s.pubs, p.ctx = ctx → p.va = va → p.copying = true) →
      AnsweredWith s (exec (.pubreg fn ctx va bytes pa) s) fn 0x0007 5)) ∧
  (∀ ctx va newPa c e page, Accepts s fn false false → s.ctx? ctx = some c → walk s.mem va c.base walkLevels = .leaf e page → 0 < page →
    (e.extractLsb' 52 12).toNat = s.part → entryAddr e < 2 ^ 40 → newPa % page = 0 → newPa < 2 ^ 40 → (s.sliceStacks ctx).getLsbD (newPa / 2 ^ 36) = true →
    entryAddr e ≠ newPa → (∃ m ∈ s.migrations, m.oldPa ≤ entryAddr e ∧ entryAddr e < m.oldPa + m.bytes) →
    AnsweredWith s (exec (.pageMigrate fn ctx va newPa) s) fn ((s.mailbox fn).ctl.toNat % 65536) 5) ∧
  (∀ n (cl : BitVec 40) (st : BitVec 16), Accepts s fn false false → n < 8 → let old := s.sliceRow n
    ((∃ r ∈ s.slices, r.1 ≠ n ∧ (r.2.clusters &&& cl ≠ 0 ∨ r.2.stackSet &&& st ≠ 0)) → AnsweredWith s (exec (.sliceset fn n cl st) s) fn 0x0009 1) ∧
    ((∀ r ∈ s.slices, r.1 ≠ n → r.2.clusters &&& cl = 0 ∧ r.2.stackSet &&& st = 0) → s.startMode ≠ 1 →
      (∀ c, c < 40 → old.clusters.getLsbD c ≠ cl.getLsbD c → c ∉ s.retired) →
      ((∃ c, c < 40 ∧ old.clusters.getLsbD c ≠ cl.getLsbD c ∧ s.clusterBusy c = true) ∨
        (∃ k, k < 16 ∧ old.stackSet.getLsbD k ≠ st.getLsbD k ∧ ∃ c ∈ s.ctxs, mapsWhere s.mem s.part (fun a _ => a / 2 ^ 36 == k) c.base walkLevels = true)) →
      AnsweredWith s (exec (.sliceset fn n cl st) s) fn 0x0009 5) ∧
    ((∀ r ∈ s.slices, r.1 ≠ n → r.2.clusters &&& cl = 0 ∧ r.2.stackSet &&& st = 0) → (s.startMode = 1 → n = 0 ∧ cl.toNat < 2 ∧ st.toNat < 4) →
      (∀ c, c < 40 → old.clusters.getLsbD c ≠ cl.getLsbD c → s.clusterBusy c = false ∧ (s.startMode ≠ 1 → c ∉ s.retired)) →
      (∀ k, k < 16 → old.stackSet.getLsbD k ≠ st.getLsbD k → ∀ c ∈ s.ctxs, mapsWhere s.mem s.part (fun a _ => a / 2 ^ 36 == k) c.base walkLevels = false) →
      ∃ u, DoneOver u (exec (.sliceset fn n cl st) s) fn 0x0009 [] ∧ u.sliceRow n = ⟨cl, st⟩ ∧ (∀ k, k ≠ n → u.sliceRow k = s.sliceRow k) ∧
        Instr.dispatchDecision n ∈ u.due ∧
        (∀ (i : Nat), u.routers[i]?.map (fun (q : RouterSt) => { q with holdings := [] }) =
          s.routers[i]?.map (fun (q : RouterSt) => { q with holdings := [] })) ∧
        (∀ (i : Nat) (q q' : RouterSt), s.routers[i]? = some q → u.routers[i]? = some q' → match q.router with
          | .hub d => (∀ h ∈ q'.holdings, h ∈ q.holdings) ∧ ∀ k,
            let lo := max (s.waysBelow k d) (u.waysBelow k d)
            let hi := min (s.waysBelow k d + s.sliceWays k d) (u.waysBelow k d + u.sliceWays k d)
            (q'.holdings.filter (fun h => h.slice == k)).length ≤ maxHoldings q.router * (hi - lo) / 16
          | _ => q' = q) ∧
        { u with slices := s.slices, routers := s.routers, due := s.due } = s)) ∧
  (∀ region base pages allow, Accepts s fn false false → Meterable s region base pages allow →
    (s.meterNamed? region = none → ∃ u stmt, DoneOver u (exec (.metreg fn region base pages allow) s) fn 0x0008 [] ∧
      Signed s u ⟨region, base, pages, allow, 0, 0, sha384 (stmt.take 0x60), false, []⟩ 0 false (List.replicate 48 0) stmt ∧ u.chained = s.chained) ∧
    (∀ m, s.meterNamed? region = some m → ∃ u stmt, DoneOver u (exec (.metreg fn region base pages allow) s) fn 0x0008 [] ∧
      Signed s u ⟨region, base, pages, allow, m.counter, m.seq + 1, sha384 (stmt.take 0x60), false, []⟩ 0 false m.hash stmt ∧ u.chained = s.chained) ∧
    (∀ stmt : List Byte, stmt.length = 192 → bytesAt stmt 0 4 = 0x4D545243 → bytesAt stmt 0x18 4 = region.toNat → sha384 (stmt.take 0x60) ∉ s.chained →
      ∀ e ∈ [((.migrateIn fn region base pages allow stmt : Instr), 4, false), (.replace fn region base pages allow stmt, 5, true)],
        (e.2.1 = 4 → bytesAt stmt 4 2 = 3) →
        if Config.freeVerify stmt then ∃ u next, DoneOver u (exec e.1 s) fn 0x000E [] ∧ u.chained = sha384 (stmt.take 0x60) :: s.chained ∧
          Signed s u ⟨region, base, pages, allow, BitVec.ofNat 64 (bytesAt stmt 0x28 8), BitVec.ofNat 64 (bytesAt stmt 0x20 8) + 1, sha384 (next.take 0x60), false, []⟩ e.2.1 e.2.2
            (sha384 (stmt.take 0x60)) next
        else AnsweredWith s (exec e.1 s) fn 0x000E 1)) ∧
  (∀ region m, Accepts s fn false false → s.meterNamed? region = some m →
    (m.closed = true → AnsweredWith s (exec (.metdereg fn region) s) fn 0x0008 1 ∧ AnsweredWith s (exec (.migrateOut fn region) s) fn 0x000E 1) ∧
    (m.closed = false →
      (∃ u stmt, DoneOver u (exec (.metdereg fn region) s) fn 0x0008 [] ∧ u.chained = s.chained ∧
        Signed s u { m with closed := true, seq := m.seq + 1, hash := sha384 (stmt.take 0x60) } 2 false m.hash stmt) ∧
      (s.regionMapped m = false → ∃ u stmt, DoneOver u (exec (.migrateOut fn region) s) fn 0x000E [] ∧ u.chained = s.chained ∧
        Signed s u { m with closed := true, seq := m.seq + 1, hash := sha384 (stmt.take 0x60) } 3 false m.hash stmt) ∧
      (s.regionMapped m = true → AnsweredWith s (exec (.migrateOut fn region) s) fn 0x000E 1))) ∧
  (∀ ctx (ms : List Manifest) onto, Accepts s fn false false → (s.ctx? ctx).isSome = true →
    let set := sortBy id (((s.queues.find? (fun q => q.ctx == ctx)).map (fun q => q.repset)).getD [s.part])
    ((∀ m ∈ ms, usable ms set m.step = none) → ∃ t, exec (.restore fn ctx ms onto) s = .next t ∧ HostAnswer s t fn 0x000E 1 [0x30]) ∧
    (∀ step, (∀ p ∈ set, ∃ m ∈ ms, goodManifest set m = true ∧ m.part = p ∧ m.step = step) → usable ms set step = some none) ∧
    (∀ m0 ∈ ms, ∀ lost, usable ms set m0.step = some lost → (∀ m ∈ ms, (usable ms set m.step).isSome = true → m.step ≤ m0.step) →
      ∀ m, ms.find? (fun m => goodManifest set m && m.step == m0.step) = some m →
      let regions := match lost with
        | some x => if onto = s.part then rebuild ms set m0.step x else ((manifestOf ms set s.part m0.step).map (fun k => k.regions)).getD []
        | none => ((manifestOf ms set s.part m0.step).map (fun k => k.regions)).getD []
      ∀ v : State, s.placeRegions ctx regions = some (v, some true) →
      DoneOver { v with far := [], queues := v.queues.map (fun q => if q.ctx = ctx then { q with nextGen := some m.gen } else q) } (exec (.restore fn ctx ms onto) s) fn 0x000E
        [if lost.isSome then 0x01 else 0x00]))

/-! ### Start-up, power, tests and management -/

namespace Sys2Proof.Claims

open Sys2Proof.Machine
open Host (Outcome Cell)

/-- The part with nothing running and its HBM empty, as a start attempt or a shutdown leaves it (R404, R407): the region chains, the remap table
and host memory are as before. -/
structure Emptied (s t : State) : Prop where
  work : t.teams = [] ∧ t.launches = [] ∧ t.ctxs = [] ∧ t.queues = [] ∧ t.images = [] ∧ t.twins = [] ∧ t.due = []
  memory : t.held = [] ∧ t.poison = [] ∧ t.frames = [] ∧ t.pubs = [] ∧ t.migrations = []
  host : t.mailboxes = [] ∧ t.windows = [] ∧ t.exports = [] ∧ t.faultq = [] ∧ t.recalls = []
  power : t.pwrLimit = 2700 ∧ t.clockStep = 0 ∧ t.throttled = []
  kept : t.meters = s.meters ∧ t.retired = s.retired ∧ t.spares = s.spares ∧ t.part = s.part ∧ t.clusterMap = s.clusterMap ∧ t.stackMap = s.stackMap
  hbm : ∀ a, a < 2 ^ 40 → Memory.get t.mem a = 0

/-- Host memory is as it was. -/
def HostKept (s t : State) : Prop := ∀ a, 2 ^ 40 ≤ a → Memory.get t.mem a = Memory.get s.mem a

/-- An SPDM response has been sent and joins the transcript with its request, and only flags of the responder change (R401). -/
structure Says (s t : State) (req : List Byte) (code : Nat) (bs : List Byte) (d : Spdm) : Prop where
  sent : t.out = .spdm code bs :: s.out
  spdm : t.spdm = { d with transcript := s.spdm.transcript ++ req ++ [BitVec.ofNat 8 code] ++ bs }
  rest : { t with out := s.out, spdm := s.spdm, freeTick := s.freeTick } = s

/-- A step that only sends a notice. -/
def Sends (s : State) (i : Instr) (n : Notice) : Prop := exec i s = .next { s with out := n :: s.out }

/-- A taint notice about a failing pass (R383) names a launch of a queue's context. -/
structure Taints (s t : State) (dest cluster pass fail : Nat) (r : PlaceRec) : Prop where
  sent : ∃ bs k, Notice.taint dest bs ∈ t.out ∧ bytesAt bs 0 2 = s.part % 65536 ∧ bytesAt bs 2 1 = cluster ∧ bytesAt bs 8 8 = pass % 2 ^ 64 ∧
    bytesAt bs 16 8 = fail % 2 ^ 64 ∧ k < bytesAt bs 3 1 ∧ bs.length = 24 + 12 * bytesAt bs 3 1 ∧ bytesAt bs (24 + 12 * k) 1 = r.ctx % 256 ∧
    bytesAt bs (25 + 12 * k) 4 = r.launch.toNat ∧ bytesAt bs (29 + 12 * k) 4 = r.gen.toNat

end Sys2Proof.Claims

/-- R77, R404-R407: a start attempt empties the part; a failed one counts, keeps its reason and is followed by another; the one after three failures presents minimal mode,
and a normal one the whole part with the ports that trained; power windows move the clock a step; heat throttles a die and at last stops the part,
whose launches end with CODE 0x00 and DETAIL 0x03. The model's choices: what survives a start (log 42), the planes after it (log 5), what the
attempts after a failed one find, which are free values (log 42), and the steps of a power window (log 43). -/
def Obligations.StartPowerAndHeat : Prop :=
  ∀ (s : State),
  (∀ (r0 : StartResult), ∀ e ∈ [((.powerGood r0 : Instr), false), (.fundamentalReset false r0, false), (.fundamentalReset true r0, true)],
    let r := if s.attempting then s.nextResult else r0
    let byHost := e.2 && !s.attempting
    (r.reason ∈ [0x01, 0x02, 0x30, 0x40] ∨ (0x10 ≤ r.reason ∧ r.reason ≤ 0x1F) ∨ (0x20 ≤ r.reason ∧ r.reason ≤ 0x27) → ∃ t, exec e.1 s = .next t ∧ Emptied s t ∧ HostKept s t ∧
      t.up = false ∧ t.attempting = true ∧ t.startFails = s.startFails + 1 ∧ t.startReason = r.reason ∧ t.out = s.out) ∧
    (r.reason = 0 → 3 ≤ s.startFails → byHost = false → ∃ t, exec e.1 s = .next t ∧ Emptied s t ∧ HostKept s t ∧ t.up = true ∧ t.attempting = false ∧ t.startMode = 1 ∧
      t.cap = [1, 0, 0, 0] ∧ t.planes = [] ∧ t.portsDown = BitVec.allOnes 36 ∧ t.slices = [(0, ⟨1, 3⟩)] ∧ t.startReason = s.startReason ∧ t.out = .ready true :: s.out) ∧
    (r.reason = 0 → s.startFails < 3 ∨ byHost = true → ∃ t row, exec e.1 s = .next t ∧ Emptied s t ∧ HostKept s t ∧ t.up = true ∧ t.attempting = false ∧ t.startMode = 0 ∧
      t.startFails = 0 ∧ t.startReason = (if byHost then 0 else s.startReason) ∧ t.cap = [0x3FF, 0, 0, 0] ∧ t.portsDown = r.portsDown ∧
      (∀ p, p ∈ t.planes ↔ p < 36 ∧ r.portsDown.getLsbD p = false) ∧ t.slices = [(0, row)] ∧ row.stackSet = BitVec.allOnes 16 ∧
      (∀ c, c < 40 → row.clusters.getLsbD c = decide (c ∉ s.retired)) ∧ t.out = .ready false :: s.out)) ∧
  (s.up = true → ∀ mw, let limit := 1000 * s.pwrLimit; let k := s.clockStep; let mhz := fun (n : Nat) => getAt [850, 765, 680, 595, 425] n 425
    let new := if limit < mw then min 4 (k + 1) else if k ≠ 0 ∧ mw * mhz (k - 1) ≤ limit * mhz k then k - 1 else k
    exec (.powerWindow mw) s = .next { s with clockStep := new }) ∧
  (s.up = true → ∀ die, die < 8 →
    (die ∉ s.throttled → exec (.throttle105 die) s = .next { s with throttled := die :: s.throttled }) ∧
    (die ∈ s.throttled → exec (.throttleEnd95 die) s = .next { s with throttled := s.throttled.filter (fun d => d != die) }) ∧
    (∃ t, exec (.thermalTrip die) s = .next t ∧ Emptied s t ∧ t.up = false ∧ .thermal die ∈ t.out) ∧
    (s.launches = [] → ∃ t, exec (.thermalTrip die) s = .next t ∧ HostKept s t ∧ t.out = .thermal die :: s.out) ∧
    (∀ l pa, s.launches = [l] → l.compl ≠ 0 → PartWrites s l.ctx l.compl 32 pa → ∃ t, exec (.thermalTrip die) s = .next t ∧
      ∀ b, 2 ^ 40 ≤ b → Memory.get t.mem b = (lastCell ((List.range 32).map (fun k => (s.place (pa + k),
        getAt (recordWords (2 ^ 31 + 2 ^ 29 + 3 * 256) 0 0 l.gen 0 l.id l.ended.length) k 0))) b).getD (Memory.get s.mem b)))

/-- R279, R380-R385: a passing test stamps its cluster and uses budget 3 no further than it goes; a failing one kills what the cluster holds, retires it behind its die's spare, and tells the
part and its replica sets which launches ran there since the last pass; corrected errors that grow by the threshold within the window warn every
registered context. The model's choices: the notice has no packet, pass times start at 0, bit 40 alone after a failed test (log 74). -/
def Obligations.TestsAndWarnings : Prop :=
  ∀ (s : State),
  (∀ cluster time, cluster < 40 → cluster ∉ s.retired → s.up = true →
    (∃ t, exec (.testPassEnd cluster time) s = .next t ∧ (∀ c, lookupD c 0 t.passTime = if c = cluster then time % 2 ^ 64 else lookupD c 0 s.passTime) ∧
      (∃ h, h ≤ s.budgetLeft 3 (cluster / 5) ∧ t.bguseOf 3 (cluster / 5) = s.bguseOf 3 (cluster / 5) + h) ∧
      { t with passTime := s.passTime, bguse := s.bguse, freeTick := s.freeTick } = s) ∧
    ((∀ c ∈ s.ctxs, c.warnWord = none) → ∃ t, exec (.testPassFail cluster time) s = .next t ∧
      (∀ tm ∈ t.teams, tm.ended = false → (∃ c ∈ s.ctxs, c.num = tm.ctx) → ∀ y ∈ tm.cores, y / 8 ≠ cluster) ∧
      (∀ c ∈ s.ctxs, ∀ core, core / 8 = cluster → (t.core core).active ≠ some c.num ∧ (t.core core).shadow ≠ some c.num) ∧
      (if cluster / 5 ∈ s.spares then t.spares = s.spares.filter (fun d => d != cluster / 5) ∧ t.retired = s.retired ∧ t.slices = s.slices ∧
         t.clusterMap = setAt s.clusterMap cluster (cluster / 5, 5)
       else cluster ∈ t.retired ∧ t.spares = s.spares ∧ ∀ n, (t.sliceRow n).stackSet = (s.sliceRow n).stackSet ∧
         ∀ c, c < 40 → (t.sliceRow n).clusters.getLsbD c = (decide (c ≠ cluster) && (s.sliceRow n).clusters.getLsbD c)) ∧
      (∀ before r after, s.plog = before ++ r :: after → r.event = 0 ∨ r.event = 3 → r.core / 8 = cluster →
        (∀ e ∈ after, e.ctx = r.ctx → e.launch = r.launch → e.tlin = r.tlin → e.core = r.core → e.event = 1 ∨ e.event = 2 → lookupD cluster 0 s.passTime ≤ e.time.toNat) →
        Taints s t s.part cluster (lookupD cluster 0 s.passTime) time r ∧
        ∀ q ∈ s.queues, q.num = r.queue → q.ctx = r.ctx → ∀ p ∈ q.repset, Taints s t p cluster (lookupD cluster 0 s.passTime) time r) ∧
      (s.wc = [] → t.mem = s.mem))) ∧
  (∀ die, let w := s.warncfgOf die; die < 8 → w.getLsbD 31 = true → w.extractLsb' 24 7 ≠ 0 → w.extractLsb' 0 24 ≠ 0 →
    (w.extractLsb' 0 24).toNat ≤ s.corrections die - getAt (lookupD die [] s.errHist) ((w.extractLsb' 24 7).toNat - 1) 0 →
    ((∀ c ∈ s.ctxs, c.warnWord = none) → ∃ t, exec (.warning die) s = .next t ∧ { t with errHist := s.errHist } = s ∧
      ∀ k, getAt (lookupD die [] t.errHist) k 0 = if k < 127 then s.corrections die else 0) ∧
    (∀ c va pa, s.ctxs.filter (fun c => c.warnWord.isSome) = [c] → c.warnWord = some va → s.ctx? c.num = some c → PartWrites s c.num va 8 pa →
      ∃ t, exec (.warning die) s = .next t ∧ t.ctx? c.num = some { c with warnCount := c.warnCount + 1 } ∧
        Wrote s t pa (leBytes 8 ((c.warnCount + 1).toNat + 2 ^ die * 2 ^ 32)) ∧ { t with errHist := s.errHist, ctxs := s.ctxs, mem := s.mem, poison := s.poison } = s))

/-- R401, R402, R408: the sensors and what PLDM reads of them, the endpoint's own messages, and the SPDM responder: each request in its order, its
answer signed where the rule says so, what is measured, and the errors of requests out of order. The model's choices: sensor numbers (log 44), MCTP
codes (log 45), SPDM codes and layouts (log 46), and keys and digests as free values (log 13). -/
def Obligations.ManagementAnswers : Prop :=
  ∀ (s : State),
  (∀ v : Sensors, exec (.sensorUpdate v) s = .next { s with sensors := { v with step := s.clockStep } }) ∧
  (∀ n v, s.sensor n = some v → Sends s (.pldmSensorRead n) (.sensor n v)) ∧
  (s.sensor 0 = some s.sensors.power ∧ s.sensor 1 = some s.sensors.step ∧ s.sensor 10 = some s.sensors.inlet ∧ s.sensor 11 = some s.sensors.outlet ∧
    ∀ d, d < 8 → s.sensor (2 + d) = some (getAt s.sensors.junction d 0) ∧ s.sensor (12 + d) = some (lookupD d 0 s.errors)) ∧
  (∀ eid, 8 ≤ eid → eid ≤ 254 → exec (.mctpControl 1 eid) s = .next { s with eid := eid, out := .mctp [1, 0, BitVec.ofNat 8 eid] :: s.out }) ∧
  (∀ a, Sends s (.mctpControl 2 a) (.mctp [2, 0, BitVec.ofNat 8 s.eid]) ∧ Sends s (.mctpControl 5 a) (.mctp [5, 0, 3, 0, 1, 5])) ∧
  (s.up = true → let d := s.spdm; let err := fun (e : Byte) (i : Instr) => Sends s i (.spdm 0x7F [e]); let T := d.transcript
    let signed := fun (req : List Byte) (code : Byte) (body : List Byte) => body ++ Config.freeSignature (T ++ req ++ [code] ++ body)
    let tells := fun (i : Instr) (req : List Byte) (code : Nat) (bs : List Byte) (d' : Spdm) => ∃ t, exec i s = .next t ∧ Says s t req code bs d'
    (∃ t, exec .getVersion s = .next t ∧ t.out = .spdm 4 [1, 0, 0, 0x13] :: s.out ∧ t.spdm = ⟨true, false, false, 0, 0, [0x84, 4, 1, 0, 0, 0x13]⟩ ∧
      { t with out := s.out, spdm := s.spdm, freeTick := s.freeTick } = s) ∧
    (∀ peer, if d.version then tells (.getCapabilities peer) (0xE1 :: peer) 0x61 [0xF6, 2, 0, 0] { d with caps := true } else err 4 (.getCapabilities peer)) ∧
    (∀ o, if d.caps then (if o.ecdsaP384 ∧ o.sha384 ∧ o.ecdheP384 ∧ o.aes256gcm then
        tells (.negotiateAlgorithms o) [0xE3] 0x63 [0x80, 0, 0, 0, 2, 0, 0, 0, 0x10, 0, 2, 0] { d with algs := true } else err 1 (.negotiateAlgorithms o))
      else err 4 (.negotiateAlgorithms o)) ∧
    (d.algs = true →
      tells .getDigests [0x81] 1 (1 :: sha384 Config.certificate) d ∧
      (∀ slot off len, if slot = 0 ∧ off < Config.certificate.length then
          (let part := (Config.certificate.drop off).take len
           tells (.getCertificate slot off len) ([0x82, 0] ++ leBytes 2 off ++ leBytes 2 len) 2
            (leBytes 2 part.length ++ leBytes 2 (Config.certificate.length - off - part.length) ++ part) d)
        else err 1 (.getCertificate slot off len)) ∧
      (∀ nonce, tells (.challenge 0 nonce) ([0x83, 0] ++ nonce) 3 (signed ([0x83, 0] ++ nonce) 3
        (sha384 Config.certificate ++ Config.freeNonce s.freeTick ++ sha384 (((List.range 6).map (fun k => s.measurement (k + 1))).flatten))) d) ∧
      (∀ slot nonce, slot ≠ 0 → err 1 (.challenge slot nonce)) ∧
      (∀ k nonce, 6 < k → k ≠ 0xFF → ∀ sign, err 1 (.getMeasurements k sign nonce)) ∧
      (∀ nonce, ∀ e ∈ [(0, [(6 : Byte)]), (0xFF, ((List.range 6).map (fun k => BitVec.ofNat 8 (k + 1) :: s.measurement (k + 1))).flatten)] ++
          (List.range 6).map (fun k => (k + 1, BitVec.ofNat 8 (k + 1) :: s.measurement (k + 1))),
        let req := [0xE0, BitVec.ofNat 8 e.1] ++ nonce
        tells (.getMeasurements e.1 false nonce) req 0x60 e.2 d ∧
        tells (.getMeasurements e.1 true nonce) req 0x60 (signed req 0x60 (e.2 ++ Config.freeNonce s.freeTick)) d) ∧
      (∀ share, if d.session = 0 then tells (.keyExchange share) (0xE4 :: share) 0x64 (signed (0xE4 :: share) 0x64 (Config.freeNonce s.freeTick)) { d with session := 1 }
        else err 4 (.keyExchange share))) ∧
    ((∀ k, 1 ≤ k → k ≤ 3 → s.measurement k = Config.firmwareDigest k) ∧ s.measurement 5 = sha384 s.startRecord ∧
      s.measurement 6 = sha384 ((s.images.map (fun m => m.meas)).flatten)) ∧
    (d.algs = false → (∀ slot off len, err 4 (.getCertificate slot off len)) ∧ ∀ bs slot k sign, err 4 .getDigests ∧ err 4 (.challenge slot bs) ∧
      err 4 (.getMeasurements k sign bs) ∧ err 4 (.keyExchange bs)) ∧
    (∀ mac, if d.session = 1 then (if Config.freeMacOk mac then tells (.finish mac) (0xE5 :: mac) 0x65 [] { d with session := 2 }
        else exec (.finish mac) s = .next { s with spdm := { d with session := 0 }, out := .spdm 0x7F [6] :: s.out })
      else err 4 (.finish mac)) ∧
    (∀ op, if d.session = 2 then (if 1 ≤ op ∧ op ≤ 3 then tells (.keyUpdate op) [0xE9, BitVec.ofNat 8 op] 0x69 [BitVec.ofNat 8 op] { d with updates := d.updates + 1 }
        else err 1 (.keyUpdate op))
      else err 4 (.keyUpdate op)))

/-! ### The fabric -/

namespace Sys2Proof.Claims

open Sys2Proof.Machine
open Host (Outcome Cell)

/-- A request of another part has reached its home at this part (R359, R369). -/
structure Reaches (s : State) (p : Packet) (kind : Nat) : Prop where
  up : s.up = true
  packet : p.kind = kind ∧ p.dstPart = s.part ∧ p.dstDie = homeDie p.key ∧ p.key < 2 ^ 52
  whole : fabricOk p = true
  plain : Plain s
  mem : Memory.wf s.mem = true

/-- The reply to a request, on its plane to its source, with the ACKLO of this part's own requests there (R358, R359, R364; the payload is log 15). -/
def replyPk (s : State) (p : Packet) (status : Nat) (data : List Byte) : Packet :=
  { kind := 0x04, spray := p.spray, srcPart := p.dstPart, srcDie := p.dstDie, dstPart := p.srcPart, dstDie := p.srcDie, ctx := p.ctx, plane := p.plane,
    rid := p.rid, key := p.key, ackLo := s.ackLo p.srcPart p.srcDie, payload := BitVec.ofNat 8 status :: data }

/-- A valid export window for the packet's part and context covers bytes of HBM, or of host memory that the host has mapped, with the access bits
asked for (R272, R369). -/
def Window (s : State) (p : Packet) (a n : Nat) (r w : Bool) : Prop :=
  s.hostOk a = true ∧ ∃ e ∈ s.exports, e.2.getLsbD 104 = true ∧ (e.2.extractLsb' 116 12).toNat = p.srcPart ∧ (e.2.extractLsb' 110 6).toNat = p.ctx ∧
    (e.2.extractLsb' 16 36).toNat * 65536 ≤ a ∧ a + n ≤ ((e.2.extractLsb' 16 36).toNat + (e.2.extractLsb' 64 40).toNat) * 65536 ∧
    (r = true → e.2.getLsbD 105 = true) ∧ (w = true → e.2.getLsbD 106 = true)

/-- ACKLO frees the entries of the packet's source below it (R364). -/
def acked (s : State) (p : Packet) : State :=
  { s with cache := s.cache.filter (fun e => !(e.die == p.dstDie && e.src == p.srcPart && decide (e.rid < p.ackLo))) }

/-- A step over a state that only answers a request. -/
def Answers (s1 : State) (i : Instr) (s : State) (p : Packet) (status : Nat) (data : List Byte) : Prop :=
  exec i s = .next { s1 with out := .packet (replyPk s p status data) :: s1.out }

/-- No allowlist turns a measurement away from an address (R391). -/
def Allowed (s : State) (a : Nat) (meas : List Byte) : Prop := ∀ m, s.meter? a = some m → meas ∈ m.allow

/-- No line of some bytes is metered, so that nothing counts (R392). -/
def Uncounted (s : State) (a n : Nat) : Prop := ∀ k ∈ linesOf a n, s.meter? (k * 256) = none

/-- A byte of a store packet's line is written (R358, R367; the payload is log 15). -/
def writes (p : Packet) (i : Nat) : Bool := (getAt p.payload (i / 8) (0 : Byte)).getLsbD (i % 8)

/-- The cells that a store packet writes. -/
def packetCells (s : State) (p : Packet) : List Cell :=
  ((List.range 256).filter (writes p)).map (fun i => (s.place (p.key / 256 * 256 + i), getAt p.payload (32 + i) 0))

/-- The offsets of a line from the first to the last that a store packet writes (R369). -/
def Spans (p : Packet) (lo hi : Nat) : Prop := writes p lo = true ∧ writes p hi = true ∧ hi < 256 ∧ ∀ i, i < 256 → writes p i = true → lo ≤ i ∧ i ≤ hi

/-- How a new store is answered (R268, R369, R370): 0 where a window with W covers the bytes that it writes, but 6 where the allowlist of a metered page
turns the launch's measurement away; 4 where only windows without W do, 2 where none does. -/
def StoreAnswer (s : State) (p : Packet) (st : Nat) : Prop :=
  (∀ i, i < 256 → writes p i = false) ∧ st = 0 ∨ ∃ lo hi, Spans p lo hi ∧ let a := p.key / 256 * 256 + lo; let n := hi + 1 - lo
    (Window s p a n false true ∧ (Allowed s a (p.payload.drop 288) ∧ st = 0 ∨ ¬ Allowed s a (p.payload.drop 288) ∧ st = 6) ∨ ¬ Window s p a n false true ∧ (Window s p a n false false ∧ st = 4 ∨ ¬ Window s p a n false false ∧ st = 2))

/-- The bytes of a packet of engine data have landed in a slice of its transfer, or nothing has changed in it (R360). -/
def Landed (p : Packet) (x y : Slice) : Prop :=
  let asks := x.xfer = bytesAt p.payload 1 8; let lo := p.srcPart * 2 ^ 52 + p.key; let bs := p.payload.drop 9
  { y with arrived := x.arrived } = x ∧ ∀ b, (asks ∧ x.asked = true ∧ x.ended = false ∧ lo ≤ b ∧ b < lo + bs.length → cellAt b y.arrived = some (getAt bs (b - lo) 0)) ∧
    (¬ (asks ∧ x.asked = true ∧ x.ended = false ∧ lo ≤ b ∧ b < lo + bs.length) → cellAt b y.arrived = cellAt b x.arrived)

/-- Engine data has landed in the slices and collectives of its transfer, its request is answered, and nothing else has changed (R215, R360, R363). -/
structure LandsIn (s t : State) (p : Packet) : Prop where
  copies : t.copies.length = s.copies.length ∧ ∀ (k : Nat) (c d : TeamCopy), s.copies[k]? = some c → t.copies[k]? = some d →
    { d with slices := c.slices } = c ∧ d.slices.length = c.slices.length ∧
    ∀ (j : Nat) (x y : Slice), c.slices[j]? = some x → d.slices[j]? = some y → Landed p x y
  colls : t.colls.length = s.colls.length ∧ ∀ (k : Nat) (c d : CollOp), s.colls[k]? = some c → t.colls[k]? = some d →
    { d with src := c.src } = c ∧ Landed p c.src d.src
  reqs : t.reqs = s.reqs.filter (fun r => !(r.pkt.spray && r.pkt.kind == 1 && r.part == p.srcPart && r.pkt.rid == p.rid && r.pkt.key == p.key))
  rest : { t with copies := s.copies, colls := s.colls, reqs := s.reqs } = s

/-- A request has been sent once more with its own number, a context in six bits (R358, R363). -/
def SentAgain (p : Packet) (r : Req) : Prop :=
  { p with plane := r.pkt.plane, ackLo := r.pkt.ackLo, ctx := r.pkt.ctx } = r.pkt ∧ p.ctx = r.pkt.ctx % 64 ∧ (r.pkt.spray = false → p.ackLo ≤ r.pkt.rid)

/-- A router as a step leaves it, every other router as it was. -/
def RouterIs (s t : State) (r : Router) (x : RouterSt) : Prop := t.router r = x ∧ ∀ q, q ≠ r → t.router q = s.router q

/-- A named packet to a port: its kind, its name and its payload (R358, R375). -/
structure Named (pk : Packet) (kind plane : Nat) (p : Packet) (noHold : Bool) (bs : List Byte) : Prop where
  head : pk.kind = kind ∧ pk.plane = plane ∧ pk.noHold = noHold
  name : pk.key = p.key % 2 ^ 64 ∧ pk.aux % 65536 = p.aux % 65536
  payload : pk.payload = bs

/-- A packet leaves a router by a port (R356, R359): a part's hub gives it to the fabric, a switch sends it on by that port. -/
def leaves (r : Router) (port : Nat) (pk : Packet) : Notice := if isHub r then .packet pk else .relay r port pk

/-- The plane of what a router answers by a port (R359). -/
def facePlane (r : Router) (port : Nat) : Nat := if isHub r then port else routerPlane r

/-- A tile has left a router by a port for the part and die whose interest came by it, as 16 packets of 256 bytes in ascending address order (R375). -/
def TileLeaves (s t : State) (r : Router) (port : Nat) (p : Packet) (dst : Nat × Nat) (noHold : Bool) (data meas : List Byte) : Prop :=
  ∃ ps : List Packet, t.out = (ps.map (leaves r port)).reverse ++ s.out ∧ ps.length = 16 ∧ ∀ (k : Nat) (pk : Packet), ps[k]? = some pk →
    Named pk 0x0A (facePlane r port) p noHold ((data.drop (256 * k)).take 256 ++ meas) ∧ pk.rid = k ∧ (pk.dstPart, pk.dstDie) = dst

/-- A router answers an interest that came by a port with a lapse notice, with REFUSED and the measurement where the allowlist turned it away (R374, R376,
R391). -/
def Lapses (s : State) (go : Outcome State Fault Refusal) (r : Router) (port : Nat) (p : Packet) (refused : Bool) : Prop :=
  ∃ pk, go = .next { s with out := leaves r port pk :: s.out } ∧ Named pk 0x0B (facePlane r port) p false (if refused then p.payload else []) ∧
    pk.aux / 65536 = (if refused then 1 else 0) ∧ pk.dstPart = p.srcPart ∧ pk.dstDie = p.srcDie

/-- An interest goes on from a router to a destination, with its remaining lifetime (R374). -/
def GoesOnAs (pk : Packet) (p : Packet) (plane : Nat) (dst : Nat × Nat) : Prop :=
  Named pk 0x09 plane p false p.payload ∧ pk.rid = p.rid ∧ pk.srcPart = p.srcPart ∧ pk.srcDie = p.srcDie ∧ (pk.dstPart, pk.dstDie) = dst

/-- A slip of a team has lapsed or was refused (R208, R210): its lines are absent and not pending, and the groups parked on them take the trap. -/
def SlipEnds (tm tm' : Team) (x : Slip) (cause detail why : Nat) : Prop :=
  tm'.absent = tm.absent.map (fun a => if a.pending ∧ a.owner = .slip x.id then { a with pending := false, why := why } else a) ∧
  tm'.groups = tm.groups.map (fun g => if ∃ l ∈ g.lineWait, l ∈ tm.slipLines x.id then { g with lapse := some (cause, detail, x.name.tile ++ x.name.tensor, g.lastExec) } else g)

end Sys2Proof.Claims

/-- R149, R183, R193, R245, R268, R310, R357, R358-R365, R369, R370, R391, R392: a request of another part is checked against the windows and the allowlists
and answered once, a metered line that it reads counting at its home; a busy store comes again in order; replies, custody and notices reach their
request, which is sent at most four times; the list of planes changes when the old requests are answered, and a dead link leaves it; sprayed data
lands in the order of its transfer. The model's choices: the payload layouts and status bytes (log 15), first request ids (log 6), how the allowlists
are tested (log 71), marks of other parts
(log 70), the change of the list (log 72). -/
def Obligations.FabricRequests : Prop :=
  ∀ (s : State) (p : Packet), let s1 := acked s p
  (Reaches s p 0x01 → let n := bytesAt p.payload 0 (if p.spray then 2 else 1); 0 < n → n ≤ 4055 → let meas := p.payload.drop (if p.spray then 10 else 4)
    (¬ Window s p p.key n true false → Answers s1 (.loadPacket p) s p 2 []) ∧
    (Window s p p.key n true false → ¬ Allowed s p.key meas → Answers s1 (.loadPacket p) s p 6 []) ∧
    (Window s p p.key n true false → Allowed s p.key meas →
      (s.poisoned (s.place p.key) n = true → Answers s1 (.loadPacket p) s p 5 []) ∧
      (s.poisoned (s.place p.key) n = false → let data := (List.range n).map (fun k => Memory.get s.mem (s.place (p.key + k)))
        (p.spray = false → Uncounted s p.key n → Answers s1 (.loadPacket p) s p 0 data) ∧
        (∀ m, p.spray = false → p.key % 256 + n ≤ 256 → s.meter? (p.key / 256 * 256) = some m → m.counter ≠ BitVec.allOnes 64 → (m.counter + 1).toNat % 2 ^ 20 ≠ 0 →
          Answers { s1 with meters := { m with counter := m.counter + 1 } :: s.meters.filter (fun x => x.region != m.region) } (.loadPacket p) s p 0 data) ∧
        (p.spray = true → Uncounted s p.key n → ∃ pk, exec (.loadPacket p) s = .next { s1 with out := .packet pk :: s.out, freeTick := s.freeTick + 1 } ∧
          pk.kind = 0x08 ∧ pk.spray = true ∧ pk.srcPart = s.part ∧ pk.srcDie = p.dstDie ∧ pk.dstPart = p.srcPart ∧ pk.dstDie = p.srcDie ∧ pk.ctx = p.ctx ∧
          pk.rid = p.rid ∧ pk.key = p.key ∧ (s.planes ≠ [] → pk.plane ∈ s.planes) ∧ pk.payload = leBytes 1 0 ++ leBytes 8 (bytesAt p.payload 2 8) ++ data)))) ∧
  (Reaches s p 0x02 →
    (∀ e, s1.cached p false = some e → Answers s1 (.storePacket p) s p e.status []) ∧
    (s1.cached p false = none → let late := ∃ b ∈ s.busy, b.1 = p.srcPart ∧ b.2.1 < p.rid ∧ b.2.2 = p.key / 256
      (late ∨ (s1.cacheFull p.dstDie p.srcPart = true ∧ ∀ e ∈ s1.cache, e.die = p.dstDie → e.src = p.srcPart → e.atomic = false) → ∃ t, exec (.storePacket p) s = .next t ∧
        t.out = .packet (replyPk s p 3 []) :: s.out ∧ (p.srcPart, p.rid, p.key / 256) ∈ t.busy ∧ (∀ b ∈ s.busy, b ∈ t.busy) ∧ { t with busy := s.busy, out := s.out } = s1) ∧
      (¬ late → s1.cacheFull p.dstDie p.srcPart = false → ∀ st, StoreAnswer s p st →
        ∃ t, exec (.storePacket p) s = .next t ∧ t.out = .packet (replyPk s p st []) :: s.out ∧ t.cache = s1.cache ++ [⟨p.dstDie, p.srcPart, p.rid, false, [], st⟩] ∧
          t.busy = s.busy.filter (fun b => !(b.1 == p.srcPart && b.2.1 == p.rid && homeDie (b.2.2 * 256) == p.dstDie)) ∧
          (∀ b, Memory.get t.mem b = if st = 0 then (lastCell (packetCells s p) b).getD (Memory.get s.mem b) else Memory.get s.mem b) ∧
          { t with out := s.out, cache := s.cache, busy := s.busy, mem := s.mem, poison := s.poison } = s))) ∧
  (Reaches s p 0x03 → let o := p.aux / 8 % 16; let n := atomBytes o; let meas := p.payload.drop (4 * atomBlock o + 2)
    (∀ e, s1.cached p true = some e → Answers s1 (.atomicPacket p) s p e.status e.old) ∧
    (s1.cached p true = none → p.rid < s.expiryMark p.dstDie p.srcPart → Answers s1 (.atomicPacket p) s p 1 []) ∧
    (s1.cached p true = none → s.expiryMark p.dstDie p.srcPart ≤ p.rid →
      (¬ Window s p p.key n true true → Answers s1 (.atomicPacket p) s p 2 []) ∧
      (Window s p p.key n true true → ¬ Allowed s p.key meas → Answers s1 (.atomicPacket p) s p 6 []) ∧
      (Window s p p.key n true true → Allowed s p.key meas →
        (s.poisoned (s.place p.key) n = true → Answers s1 (.atomicPacket p) s p 5 []) ∧
        (s.poisoned (s.place p.key) n = false → Uncounted s p.key n → s1.cacheFull p.dstDie p.srcPart = false →
          let old := (List.range n).map (fun k => Memory.get s.mem (s.place (p.key + k)))
          ∃ t, exec (.atomicPacket p) s = .next t ∧ t.out = .packet (replyPk s p 0 old) :: s.out ∧ t.cache = s1.cache ++ [⟨p.dstDie, p.srcPart, p.rid, true, old, 0⟩] ∧
            (atomStep o old p.payload = none → t.mem = s.mem) ∧
            (∀ bs, atomStep o old p.payload = some bs → ∀ b, Memory.get t.mem b =
              (lastCell ((List.range bs.length).map (fun k => (s.place (p.key + k), getAt bs k 0))) b).getD (Memory.get s.mem b)) ∧
            t.marks = (if p.aux % 8 ≤ 2 then [⟨p.key / 256, bytesAt p.payload (4 * atomBlock o) 2, p.srcPart, false⟩] else []) ∧
            { t with out := s.out, cache := s.cache, mem := s.mem, poison := s.poison, marks := s.marks } = s)))) ∧
  (∀ (st : Byte) (data : List Byte), p.kind = 0x04 → fabricOk p = true → p.dstPart = s.part → p.cut = false → p.payload = st :: data → s.nextPlanes = none →
    ((if p.spray then s.sprayOf p.srcPart p.srcDie p.rid p.key else s.reqOf p.srcPart p.srcDie p.rid) = none → exec (.replyPacket p) s = .next s) ∧
    (∀ r, p.spray = true → s.sprayOf p.srcPart p.srcDie p.rid p.key = some r → st = 0 → r.acc = none → r.monitor = none → r.wc = none → r.pkt.kind ≠ 7 →
      exec (.replyPacket p) s = .next { s with reqs := s.reqs.filter (fun x => x.id != r.id) }) ∧
    (∀ r, p.spray = false → s.reqOf p.srcPart p.srcDie p.rid = some r →
      (st = 3 → exec (.replyPacket p) s = .next { s with reqs := s.reqs.map (fun x => if x.id = r.id then { x with busy := true } else x) }) ∧
      (∀ id lane, st ≠ 3 → r.acc = some (id, lane) → exec (.replyPacket p) s = .next { s with reqs := s.reqs.filter (fun x => x.id != r.id), accesses := s.accesses.map (fun a => if a.id = id then { a with got := a.got ++ [(lane, data, st.toNat)] } else a) }) ∧
      (st = 0 → r.acc = none → r.monitor = none → let u : State := { s with reqs := s.reqs.filter (fun x => x.id != r.id), heldOut := s.heldOut.filter (fun x => !(r.wc.any (fun e => x.id == e.id))) }
        (r.pkt.kind ≠ 7 → exec (.replyPacket p) s = .next u) ∧
        (r.pkt.kind = 7 → exec (.replyPacket p) s = .next (if bytesAt r.pkt.payload 2 1 < 3 then u else
          { u with marks := s.marks.filter (fun m => !(m.asked && m.part == r.part && m.line == r.pkt.key / 256)) }))) ∧
      (∀ addr va, st ≠ 3 → r.acc = none → r.monitor = some (256, addr, va) → exec (.replyPacket p) s = .next { s with reqs := s.reqs.filter (fun x => x.id != r.id), far := s.far.map (fun x => if x.part = r.part ∧ x.addr = va ∧ x.write = (addr == 2) then { x with data := some data, ok := st == 0 } else x) }) ∧
      (∀ q addr va qu h, st = 0 → r.acc = none → q ≠ 256 → r.monitor = some (q, addr, va) → s.queue? q = some qu → qu.linked.find? (fun k => k.addr == addr) = some h →
        ∃ t qu' h', exec (.replyPacket p) s = .next t ∧ t.queue? q = some qu' ∧ h' ∈ qu'.linked ∧ h'.addr = addr ∧ lookupD va [] h'.got = data ∧
          Instr.dependenceReady q h.prio ∈ t.due ∧ { t with reqs := s.reqs, queues := s.queues, due := s.due } = s))) ∧
  (p.dstPart = s.part → fabricOk p = true →
    let about := fun (r : Req) => !r.host && r.part == p.srcPart && r.die == p.srcDie && r.pkt.rid == p.rid && r.pkt.key == p.key && r.pkt.spray == p.spray
    (p.kind = 0x05 → exec (.custodyPacket p) s = .next { s with reqs := s.reqs.map (fun r => if about r then { r with custody := true } else r) }) ∧
    (∀ (why : Byte) bs, p.kind = 0x06 → p.payload = why :: bs → 1 ≤ why.toNat → why.toNat ≤ 3 → s.nextPlanes = none →
      exec (.errorNotice p) s = .next { s with reqs := s.reqs.map (fun r => if about r then { r with failed := why.toNat } else r) }) ∧
    (∀ last, p.kind = 0x08 → p.spray = true → 9 ≤ p.payload.length → let xfer := bytesAt p.payload 1 8
      let mine := fun (r : Reorder) => r.die == p.dstDie && r.src == p.srcPart && r.srcDie == p.srcDie && r.xfer == xfer
      let r := (s.reorder.find? mine).getD ⟨p.dstDie, p.srcPart, p.srcDie, xfer, 0, []⟩; let rest := s.reorder.filter (fun r => !(mine r))
      let next := fun (n : Nat) => if last then rest else { r with next := n, packets := [] } :: rest
      let go := exec (.engineDataPacket p last) s; let rows := fun (k : Packet) => getAt k.payload 0 (0 : Byte) ≠ 1
      (p.rid < r.next ∨ (∃ q ∈ r.packets, q.rid = p.rid) → go = .next s) ∧
      (r.next < p.rid → (∀ q ∈ r.packets, q.rid ≠ p.rid) → s.reorderBytes p.dstDie + p.payload.length ≤ 2 ^ 21 →
        go = .next { s with reorder := { r with packets := r.packets ++ [p] } :: rest }) ∧
      (r.next = p.rid → r.packets = [] → rows p → ∃ t, LandsIn s t p ∧ go = .next { t with reorder := next (r.next + 1) }) ∧
      (∀ q, r.next = p.rid → r.packets = [q] → q.rid = r.next + 1 → rows p → rows q → ∃ m t, LandsIn s m p ∧ LandsIn m t q ∧ go = .next { t with reorder := next (r.next + 2) }) ∧
      (r.next = p.rid → r.packets = [] → ¬ rows p → ¬ Window s p p.key 32 false false →
        go = .next { s with out := .packet (replyPk s p 2 []) :: s.out, reorder := next (r.next + 1) }) ∧
      (∀ pa bs, r.next = p.rid → r.packets = [] → p.payload = 1 :: leBytes 8 xfer ++ bs → bs.length = 32 → Window s p p.key 32 false true → s.meter? p.key = none →
        s.shadow 64 p.key = some (pa, false) → Plain s → Memory.wf s.mem = true → ∃ t, go = .next t ∧ t.out = .packet (replyPk s p 0 []) :: s.out ∧
          (∀ b, Memory.get t.mem b = (lastCell ((List.range 32).map (fun k => (pa + k, getAt bs k 0))) b).getD (Memory.get s.mem b)) ∧ t.reorder = next (r.next + 1) ∧ { t with out := s.out, mem := s.mem, poison := s.poison, reorder := s.reorder } = s))) ∧
  (∀ r, s.reqs.find? (fun x => x.id == r.id && !x.host && !x.busy) = some r → s.twins = [] →
    (r.sends < 4 → ∃ t pk, exec (.retransmitTimeout r.id) s = .next t ∧ t.out = .packet pk :: s.out ∧ SentAgain pk r ∧
      t.reqs = s.reqs.map (fun x => if x.id = r.id then { x with pkt := { pk with ctx := r.pkt.ctx }, sends := x.sends + 1, busy := false, failed := 0, custody := false } else x) ∧
      { t with out := s.out, reqs := s.reqs, freeTick := s.freeTick } = s) ∧
    (∀ id lane, 4 ≤ r.sends → r.acc = some (id, lane) → s.nextPlanes = none → exec (.retransmitTimeout r.id) s = .next { s with out := .peerDown r.part r.die :: s.out, reqs := s.reqs.filter (fun x => x.id != r.id), accesses := s.accesses.map (fun a => if a.id = id then { a with got := a.got ++ [(lane, [], 2)] } else a) })) ∧
  (∀ part die, s.nextPlanes = none → (∃ r ∈ s.reqs, r.host = false ∧ r.busy = true ∧ r.part = part ∧ r.die = die) → ∃ (t : State) (ps : List Packet), exec (.busyResend part die) s = .next t ∧
    t.out = (ps.map Notice.packet).reverse ++ s.out ∧ ps.Pairwise (fun a b => a.rid ≤ b.rid) ∧
    (∀ r ∈ s.reqs, r.host = false → r.busy = true → r.part = part → r.die = die → ∃ pk ∈ ps, SentAgain pk r) ∧ t.reqs.length = s.reqs.length ∧
    (∀ x ∈ t.reqs, (x.host = false → x.part = part → x.die = die → x.busy = false) ∧ ∃ y ∈ s.reqs, y.id = x.id ∧ y.sends = x.sends) ∧
    { t with out := s.out, reqs := s.reqs, freeTick := s.freeTick } = s) ∧
  (∀ die src rid e, s.cache.find? (fun e => e.die == die && e.src == src && e.rid == rid.toNat && e.atomic) = some e → ∃ t, exec (.replyCacheExpiry die src rid) s = .next t ∧
    t.cache = s.cache.filter (fun x => x != e) ∧ t.expiryMark die src = max (s.expiryMark die src) (rid.toNat + 1) ∧
    (∀ d c, d ≠ die ∨ c ≠ src → t.expiryMark d c = s.expiryMark d c) ∧ { t with cache := s.cache, expiry := s.expiry } = s) ∧
  (∀ l : List Nat, (∀ x ∈ l, x < 36) → l.Pairwise (fun a b => a < b) →
    ((∃ r ∈ s.reqs, r.host = false ∧ r.pkt.spray = false ∧ r.busy = false ∧ r.failed = 0) ∨
        (∃ q ∈ s.routers, isHub q.router = true ∧ ∃ e ∈ q.pending, (∃ d, e.dst = some d ∧ d.1 ≠ s.part) ∧ ∀ k ∈ s.kept, packetName k ≠ e.name) →
      exec (.activeListChange l) s = .next { s with nextPlanes := some l }) ∧
    ((∀ q ∈ s.routers, isHub q.router = true → q.pending = []) → s.kept = [] →
      ((∀ r ∈ s.reqs, (r.host = true ∨ r.pkt.spray = true ∨ r.busy = true) ∧ r.failed = 0) → exec (.activeListChange l) s = .next { s with planes := l, nextPlanes := none }) ∧
      (∀ r, s.reqs = [r] → r.failed ≠ 0 → r.sends < 4 → ∃ t pk, exec (.activeListChange l) s = .next t ∧ t.out = .packet pk :: s.out ∧ SentAgain pk r ∧ t.planes = l ∧
        t.nextPlanes = none ∧ t.reqs = [{ r with pkt := { pk with ctx := r.pkt.ctx }, sends := r.sends + 1, busy := false, failed := 0, custody := false }]))) ∧
  (∀ port, port < 36 → port ∉ s.linksDown → let n := lookupD port 0 s.links + 1
    (∃ t, exec (.flitCrcError port true) s = .next t ∧ (∀ q, lookupD q 0 t.links = if q = port then 0 else lookupD q 0 s.links) ∧ { t with links := s.links } = s) ∧
    (n < 16 → ∃ t, exec (.flitCrcError port false) s = .next t ∧ (∀ q, lookupD q 0 t.links = if q = port then n else lookupD q 0 s.links) ∧ { t with links := s.links } = s) ∧
    (16 ≤ n → s.reqs = [] → (∀ q ∈ s.routers, isHub q.router = true → q.pending = []) → s.kept = [] → ∃ t, exec (.flitCrcError port false) s = .next t ∧ t.linksDown = port :: s.linksDown ∧ t.out = .linkDown port :: s.out ∧
      t.planes = (s.nextPlanes.getD s.planes).filter (fun q => q != port) ∧ t.nextPlanes = none ∧
      { t with links := s.links, linksDown := s.linksDown, out := s.out, planes := s.planes, nextPlanes := s.nextPlanes } = s))

/-- R228, R289, R356, R371-R376, R391, R392, R409: catalogues; an interest is answered from a holding, joins a pending entry, lapses, is served by its memory
home, or goes on to its destination; tile data, in 16 packets, answers the entries of its name and is held; lapse notices and expiries end slips; and a
reduction unit combines a barrier's members, whose release starts or refuses a launch, or cuts a facsimile. The model's choices: the payload layouts
(log 15), a poisoned tile at its home (log 21), the slice whose part of a hub's holdings takes a tile (log 67), ACT 1 at a switch (log 47), the holding that
answers (log 48), the spine of a barrier packet (log 72), which
slice's holdings answer a slip (log 110), the order of a switch's links (log 111). -/
def Obligations.RoutersAndBarriers : Prop :=
  ∀ (s : State) (r : Router) (p : Packet), s.twins = [] → s.nextPlanes = none → fabricOk p = true → routerOk r = true → let q := s.router r; let name := packetName p
  let src := (p.srcPart, p.srcDie)
  (∀ index v, index < (if isHub r then 4096 else 16384) → (isHub r = true → s.up = true) → ∃ t x, exec (.catalogueLoad r index v) s = .next t ∧ RouterIs s t r x ∧
    (∀ k, lookupD k 0 x.catalogue = if k = index then v &&& 0x000FFFFFFFFFFFFFFFFFFFFFFFFFFF00 else lookupD k 0 q.catalogue) ∧ { x with catalogue := q.catalogue } = q ∧
    { t with routers := s.routers } = s) ∧
  (p.kind = 0x09 → (isHub r = true → s.up = true) → ∀ pl, pl < (if isHub r then 36 else 128) → let go := exec (.interestPacket r (.port pl) p) s
    let entry : Option (Nat × Nat) → Pending := fun dst => ⟨s.nextId, name, p.payload, [.port pl], [(pl, src)], p.rid, dst, none⟩
    (∀ h, q.holdings.filter (fun h => h.name == name) = [h] → ∃ t x, go = .next t ∧ TileLeaves s t r pl p src false h.data [] ∧ RouterIs s t r x ∧
      x.pending = q.pending ∧ (∀ k ∈ x.holdings, k.name = name → ∀ j ∈ x.holdings, j.name ≠ name → j.used < k.used) ∧
      x.holdings.map (fun k => (k.name, k.data)) = q.holdings.map (fun k => (k.name, k.data)) ∧ { t with out := s.out, routers := s.routers, freeTick := s.freeTick } = s) ∧
    (q.holdings.filter (fun h => h.name == name) = [] →
      ((∃ e ∈ q.pending, e.name = name ∧ e.meas = p.payload) → ∃ t ps, go = .next t ∧ { t with routers := s.routers } = s ∧ RouterIs s t r { q with pending := ps } ∧
        ps = q.pending.map (fun e => let new := Face.port pl ∉ e.faces
          if e.name = name ∧ e.meas = p.payload then { e with faces := if new then e.faces ++ [.port pl] else e.faces, expiry := max e.expiry p.rid, askers := if new then e.askers ++ [(pl, src)] else e.askers } else e)) ∧
      ((∀ e ∈ q.pending, ¬ (e.name = name ∧ e.meas = p.payload)) → let room := q.pending.length < maxPending r; let here := (s.part, routerDie r)
        ((∃ v, q.lookup name.tensor = some v ∧ v.extractLsb' 24 2 = 2) ∨ ¬ room → Lapses s go r pl p false) ∧
        (room → ∀ (v : Option (BitVec 128)) (dst : Nat × Nat), q.lookup name.tensor = v → (v = none ∧ dst = (p.dstPart, p.dstDie) ∨
            ∃ w, v = some w ∧ w.extractLsb' 24 2 = 0 ∧ dst = ((w.extractLsb' 12 12).toNat, (w.extractLsb' 9 3).toNat)) →
          let hash := Config.pathHash dst.1 (name.tensor.toNat + 2 ^ 32 * name.tile.toNat + 2 ^ 64 * name.iter.toNat)
          (isHub r = false → ∃ t pk, go = .next t ∧ t.out = .relay r (portTo r 0 dst.1 hash) pk :: s.out ∧ GoesOnAs pk p (routerPlane r) dst ∧
            RouterIs s t r { q with pending := entry (some dst) :: q.pending } ∧ { t with out := s.out, routers := s.routers, nextId := s.nextId } = s) ∧
          (isHub r = true → dst.1 ≠ s.part → s.planes ≠ [] → ∃ t pk, go = .next t ∧ t.out = .packet pk :: s.out ∧ GoesOnAs pk p (getAt s.planes (hash % s.planes.length) 0) dst ∧
            RouterIs s t r { q with pending := entry (some dst) :: q.pending } ∧ { t with out := s.out, routers := s.routers, nextId := s.nextId } = s) ∧
          (isHub r = true → dst = here → ∃ t, go = .next t ∧ RouterIs s t r { q with pending := entry (some dst) :: q.pending } ∧
            { t with routers := s.routers, nextId := s.nextId } = s)) ∧
        (∀ v, room → q.lookup name.tensor = some v → v.extractLsb' 24 2 = 1 → (isHub r = false → Lapses s go r pl p false) ∧ (isHub r = true →
          let tiles := (if v.extractLsb' 64 12 = 0 then 4096 else (v.extractLsb' 64 12).toNat) * 256; let pa := (v.extractLsb' 76 40).toNat * 4096 + 4096 * name.tile.toNat
          (tiles ≤ name.tile.toNat → Lapses s go r pl p false) ∧
          (name.tile.toNat < tiles → let data := (List.range 4096).map (fun k => Memory.get s.mem (s.place pa + k))
            let served := fun (t : State) (x : RouterSt) (noHold : Bool) => go = .next t ∧ TileLeaves s t r pl p src noHold data p.payload ∧ RouterIs s t r x ∧
              x.pending = q.pending ∧ x.catalogue = q.catalogue ∧ t.mem = s.mem
            (∀ m, s.meter? pa = some m → p.payload ∉ m.allow → Lapses s go r pl p true) ∧
            (∀ m, s.meter? pa = some m → p.payload ∈ m.allow → s.poisoned (s.place pa) 4096 = false → ∃ t x, served t x true ∧ x.holdings = q.holdings ∧
              (s.meters = [m] → (∀ k, k < 16 → m.holds (pa + 256 * k) = true) → m.counter.toNat % 2 ^ 20 + 16 < 2 ^ 20 → t.meters = [{ m with counter := m.counter + 16 }])) ∧
            (s.meter? pa = none → s.poisoned (s.place pa) 4096 = true → Lapses s go r pl p false) ∧
            (s.meter? pa = none → s.poisoned (s.place pa) 4096 = false → ∃ t x, served t x false ∧ let own := s.stackOwner pa
              (s.spent 6 (routerDie r) = true ∨ s.holdShare r own = 0 → x.holdings = q.holdings) ∧
              (s.spent 6 (routerDie r) = false → s.holdShare r own ≠ 0 → ∃ h ∈ x.holdings, h.name = name ∧ h.data = data ∧ h.slice = own) ∧ t.meters = s.meters))))))) ∧
  (p.kind = 0x0A → 256 ≤ p.payload.length → p.rid < 16 → (isHub r = true → s.up = true) → let mine := fun (a : Arriving) => a.name == name && a.src == src
    let old := if p.rid = 0 then [] else ((q.arriving.find? mine).map (fun a => a.data)).getD []; let data := old ++ p.payload.take 256
    let left := q.arriving.filter (fun a => !(mine a)); let go := exec (.tileDataPacket r p) s
    (old.length ≠ 256 * p.rid → ∃ t, go = .next t ∧ RouterIs s t r { q with arriving := left } ∧ { t with routers := s.routers } = s) ∧
    (old.length = 256 * p.rid → p.rid < 15 → ∃ t, go = .next t ∧ RouterIs s t r { q with arriving := ⟨name, src, data⟩ :: left } ∧ { t with routers := s.routers } = s) ∧
    (old.length = 256 * p.rid → p.rid = 15 →
      let ends := fun (e : Pending) => e.name == name && (p.payload.length == 256 || e.meas == p.payload.drop 256); let es := q.pending.filter ends
      let own := (es.findSome? (fun e => e.slice)).getD (s.lowestOwner (routerDie r))
      let full := isHub r = true ∧ (s.spent 6 (routerDie r) = true ∨ s.holdShare r own = 0)
      ∃ t x, go = .next t ∧ t.router r = x ∧
      (es = [] → (∀ d, d ≠ r → t.router d = s.router d) ∧ x.pending = q.pending ∧ x.arriving = left ∧ t.out = s.out ∧ t.slips = s.slips) ∧
      (p.noHold = true ∨ full → (∀ e ∈ es, ∀ d, .die d ∉ e.faces) → x.holdings = q.holdings) ∧
      (p.noHold = false → ¬ full → (∀ e ∈ es, ∀ d, .die d ∉ e.faces) →
        ∃ h ∈ x.holdings, h.name = name ∧ h.data = data ∧ h.slice = (if isHub r then own else 0) ∧ ∀ k ∈ q.holdings, k.used < h.used) ∧
      (∀ e, es = [e] →
        (∀ pl, e.faces = [.port pl] → x.pending = q.pending.filter (fun e => !(ends e)) ∧ TileLeaves s t r pl p (lookupD pl (0, 0) e.askers) p.noHold data (p.payload.drop 256)) ∧
        (∀ y, e.faces = [.slip y.id] → s.slips.find? (fun z => z.id == y.id) = some y → y.data = none → t.out = s.out ∧ Instr.tileDelivery y.id ∈ t.due ∧
          t.slips = s.slips.map (fun z => if z.id = y.id ∧ z.data = none then { z with data := some data } else z))))) ∧
  (∀ (x : Slip) (tm : Team), p.kind = 0x0B → s.up = true → (∀ e ∈ (s.router (.hub p.dstDie)).pending, e.name ≠ name) → s.team? x.team = some tm →
    (s.slips.filter (fun y => y.die == p.dstDie && y.name == name && y.data.isNone)) = [x] →
    (p.aux / 65536 % 2 = 0 → ∃ t tm', exec (.lapseNotice p) s = .next t ∧ t.team? x.team = some tm' ∧ SlipEnds tm tm' x 0x0B 0 0 ∧ t.slips = s.slips.filter (fun y => y.id != x.id)) ∧
    (p.aux / 65536 % 2 = 1 →
      (s.slipMeas x = p.payload → ∃ t tm', exec (.lapseNotice p) s = .next t ∧ t.team? x.team = some tm' ∧ SlipEnds tm tm' x 0x05 0x0C 3 ∧
        t.slips = s.slips.filter (fun y => y.id != x.id)) ∧
      (s.slipMeas x ≠ p.payload → ∃ t, exec (.lapseNotice p) s = .next t ∧ t.teams = s.teams ∧ t.slips = s.slips))) ∧
  (∀ (e : Pending), q.pending.find? (fun k => k.id == e.id) = some e → let left := { q with pending := q.pending.filter (fun k => k.id != e.id) }
    (∀ pl, e.faces = [.port pl] → ∃ t pk, exec (.pendingEntryExpiry r e.id) s = .next t ∧ RouterIs s t r left ∧ t.out = leaves r pl pk :: s.out ∧ pk.kind = 0x0B ∧
      pk.plane = facePlane r pl ∧ (pk.dstPart, pk.dstDie) = lookupD pl (0, 0) e.askers ∧ pk.key = e.name.tensor.toNat + 2 ^ 32 * e.name.tile.toNat ∧
      pk.aux = e.name.iter.toNat ∧ { t with out := s.out, routers := s.routers } = s) ∧
    (∀ (x : Slip) (tm : Team) die, r = .hub die → e.faces = [.slip x.id] → s.team? x.team = some tm →
      s.slips.filter (fun y => y.die == die && y.name == e.name && y.data.isNone) = [x] → ∃ t tm', exec (.pendingEntryExpiry r e.id) s = .next t ∧ RouterIs s t r left ∧
      t.team? x.team = some tm' ∧ SlipEnds tm tm' x 0x0B 0 0 ∧ t.slips = s.slips.filter (fun y => y.id != x.id))) ∧
  (∀ plane spine (set : List Nat) kind part (pass : Bool) (status : Byte), plane < 36 → spine < 32 → p.kind = 0x0C → (∀ m ∈ set, m < 65536) → part ∈ set → kind < 2 →
    p.key / 2 ^ 32 % 2 = kind → p.payload = [if pass then 1 else 0, status] ++ leBytes 2 part ++ (set.map (leBytes 2)).flatten →
    let here := fun (b : SpineBarrier) => b.plane == plane && b.spine == spine; let mine := fun (b : SpineBarrier) => here b && b.parts == set && b.kind == kind
    let old := ((s.barriers.find? mine).getD ⟨plane, spine, set, kind, []⟩).arrived; let new := old ++ [(part, pass, status.toNat)]
    (∀ a ∈ old, a.1 ≠ part) → ((∃ b ∈ s.barriers, mine b = true) ∨ (s.barriers.filter here).length < 4096) →
    ((∃ m ∈ set, ∀ a ∈ new, a.1 ≠ m) → exec (.barrierPacket plane spine p) s = .next { s with barriers := ⟨plane, spine, set, kind, new⟩ :: s.barriers.filter (fun b => !(mine b)) }) ∧
    ((∀ m ∈ set, ∃ a ∈ new, a.1 = m) → ∃ (t : State) (ps : List Packet), exec (.barrierPacket plane spine p) s = .next t ∧ t.out = (ps.map Notice.packet).reverse ++ s.out ∧
      t.barriers = s.barriers.filter (fun b => !(b.parts == set && b.kind == kind)) ∧
      (ps.map (fun k => k.dstPart)).Perm set ∧ (ps.map (fun k => k.dstPart)).Pairwise (fun a b => a ≤ b) ∧
      let count := ((s.starts.find? (fun x => x.1 == set)).map (fun x => x.2)).getD 0; let ended := kind = 1 ∧ ∀ a ∈ new, a.2.2 = 0x80
      (∀ k ∈ ps, k.kind = 0x0D ∧ k.key = p.key ∧ k.plane = p.plane ∧ let rest := (set.map (leBytes 2)).flatten
        ((∀ a ∈ new, a.2.1 = true) → k.payload = [1, if ended then 0x80 else 0] ++ leBytes 4 (if kind = 0 then (count + 1) % 2 ^ 32 else count) ++ rest) ∧
        (∀ a ∈ new, a.2.1 = false → (∀ b ∈ new, b.2.1 = false → b ≠ a → a.1 < b.1) → k.payload = [0, BitVec.ofNat 8 a.2.2] ++ leBytes 4 count ++ rest)) ∧
      { t with out := s.out, barriers := s.barriers, starts := s.starts } = s)) ∧
  (∀ (b : SpineBarrier), s.barriers.find? (fun x => x.parts == b.parts && x.kind == b.kind) = some b → ∃ (t : State) (ps : List Packet),
    exec (.barrierHomeFailure b.parts b.kind) s = .next t ∧ t.out = (ps.map Notice.packet).reverse ++ s.out ∧
    t.barriers = s.barriers.filter (fun x => !(x.parts == b.parts && x.kind == b.kind)) ∧ (ps.map (fun k => k.dstPart)).Perm b.parts ∧
    ∀ k ∈ ps, k.kind = 0x0D ∧ k.plane = b.plane ∧
      k.payload = [0, 0x24] ++ leBytes 4 (((s.starts.find? (fun x => x.1 == b.parts)).map (fun x => x.2)).getD 0) ++ (b.parts.map (leBytes 2)).flatten) ∧
  (p.kind = 0x0D → p.dstPart = s.part → ∀ (pass : Bool) (status : Byte) (count : Nat) (set : List Nat), (∀ m ∈ set, m < 65536) → count < 2 ^ 32 →
    p.payload = [if pass then 1 else 0, status] ++ leBytes 4 count ++ (set.map (leBytes 2)).flatten →
    (∀ k h, p.key / 2 ^ 32 % 2 = 0 → s.queues = [k] → k.startHead = some h → (∀ x ∈ k.linked, k.waits x.addr = true → replicaSet k x.packet = set → x = h) →
      replicaSet k h.packet = set → exec (.releasePacket p) s = exec (.startBarrierRelease k.num pass status.toNat count) s) ∧
    (∀ l lead rs, p.key / 2 ^ 32 % 2 = 1 → s.launches = [l] → l.facSent = true → l.facWait = some (lead, rs) → s.replicas l = set → ∃ t l',
      exec (.releasePacket p) s = .next t ∧ t.launch? l.uid = some l' ∧ l'.facWait = none ∧ l'.facSent = false ∧ Instr.facsimCopyComplete l.uid ∈ t.due ∧ set ∉ t.facEnded ∧
        (∀ f, pass = true → s.facsimileOf l rs = some f → l'.facCut = 1 ∧ f ∈ t.facs) ∧ (pass = false ∨ s.facsimileOf l rs = none → l'.facCut = 2 ∧ t.facs = s.facs)) ∧
    (p.key / 2 ^ 32 % 2 = 1 → (∀ l ∈ s.launches, l.facSent = true → s.replicas l ≠ set) → set ∈ s.facEnded →
      (pass = true → status = 0x80 → exec (.releasePacket p) s = .next { s with facEnded := s.facEnded.filter (fun x => x != set) }) ∧
      (pass = false ∨ status ≠ 0x80 → ∃ t pk, exec (.releasePacket p) s = .next t ∧ t.out = .packet pk :: s.out ∧ pk.kind = 0x0C ∧
        pk.payload = [1, 0x80] ++ leBytes 2 s.part ++ (set.map (leBytes 2)).flatten ∧ { t with out := s.out } = s)))

/-! ### Encoding, reset and the memory -/

/-- R51-R72: a well-formed instruction is read back from its word with every operand, whatever the values its encoding admits, and a word that decodes is
the word of what it decodes to, so that no word has two meanings and no bit is dropped. -/
def Obligations.DecodeEncodeRoundTrip : Prop :=
  ∀ (i : Instr) (w : Word),
  (encode i = some w → decodeWord w = some i ∧ decodeBytes (wordBytes w) = some (i, []) ∧ decodeTableWord 32 w.toNat = some i) ∧
  (decodeWord w = some i → encode i = some w)

/-- R4, R51-R53, R55, R59, R63, R66, R70, R71: words written out field by field from the spec's tables (major, n, g, then the fields of the form) decode to the
instructions they stand for, and words with a set reserved bit or an unassigned code to none. -/
def Obligations.SpecWordsDecode : Prop :=
  decodeWord (0x00#6 ++ 0#1 ++ 0#4 ++ 1#7 ++ 2#7 ++ 3#7) = some (.iadd ⟨false, 0⟩ 1 2 3) ∧
  decodeWord (0x11#6 ++ 1#1 ++ 5#4 ++ 7#7 ++ 8#7 ++ 9#7) = some (.sel ⟨true, 5⟩ 7 8 9) ∧
  decodeWord (0x16#6 ++ 0#1 ++ 3#4 ++ 10#7 ++ 0x1FFF#14) = some (.movi ⟨false, 3⟩ 10 0x1FFF) ∧
  decodeWord (0x14#6 ++ 0#1 ++ 0#4 ++ 4#7 ++ 6#7 ++ 0x08#7) = some (.popc ⟨false, 0⟩ 4 6) ∧
  decodeWord (0x1A#6 ++ 0#1 ++ 0#4 ++ 20#7 ++ 21#7 ++ 22#7) = some (.ffma ⟨false, 0⟩ 20 21 22) ∧
  decodeWord (0x25#6 ++ 0#1 ++ 1#4 ++ 2#4 ++ 3#3 ++ 4#7 ++ 5#7) = some (.icmp ⟨false, 1⟩ 2 3 4 5) ∧
  decodeWord (0x2A#6 ++ 0#1 ++ 0#4 ++ 12#7 ++ 14#7 ++ 1#2 ++ 2#2 ++ 4#3) = some (.ld ⟨false, 0⟩ 12 14 1 2 4) ∧
  decodeWord (0x31#6 ++ 0#1 ++ 0#4 ++ 16#7 ++ 18#7 ++ 0xD#4 ++ 4#3) = some (.atom ⟨false, 0⟩ 16 18 0xD 4) ∧
  decodeWord (0x34#6 ++ 0#1 ++ 0#4 ++ 30#7 ++ 40#7 ++ 50#7) = some (.mma ⟨false, 0⟩ 30 40 50) ∧
  decodeWord (0x3D#6 ++ 1#1 ++ 2#4 ++ 0x1FFFFE#21) = some (.bra ⟨true, 2⟩ 0x1FFFFE) ∧
  decodeWord (0x3F#6 ++ 0#1 ++ 0#4 ++ 0x4B#7 ++ 9#7 ++ 0x1C#7) = some (.rdsr ⟨false, 0⟩ 9 0x1C) ∧
  decodeWord (0x14#6 ++ 0#1 ++ 0#4 ++ 4#7 ++ 6#7 ++ 0x7F#7) = none ∧ decodeWord (0x3F#6 ++ 0#1 ++ 0#4 ++ 0x7F#7 ++ 0#7 ++ 0#7) = none

/-- R2, R77, R272, R404, R406: after a normal start the part has one slice of all 40 clusters and 16 stacks, the normal capabilities, every port, no
context, launch, team or outstanding access, the full power limit and clock, and memory in its canonical form that lists nothing (the byte of empty
memory is log 2). The values that the spec does not give are the model's (logs 2 to 9, 81, 82). -/
def Obligations.ResetState : Prop :=
  let s := State.reset
  Memory.wf s.mem = true ∧ (∀ a, Memory.get s.mem a = 0) ∧ s.up = true ∧ s.cap = [0x3FF, 0, 0, 0] ∧
  s.sliceRow 0 = ⟨BitVec.allOnes 40, BitVec.allOnes 16⟩ ∧ (∀ n, 0 < n → s.sliceRow n = ⟨0, 0⟩) ∧ (∀ n, n < 36 → n ∈ s.planes) ∧ s.portsDown = 0 ∧
  s.ctxs = [] ∧ s.teams = [] ∧ s.launches = [] ∧ s.queues = [] ∧ s.accesses = [] ∧ s.wc = [] ∧ s.reqs = [] ∧ s.twins = [] ∧
  s.pwrLimit = 2700 ∧ s.clockStep = 0 ∧ (∀ n c, (s.core c).active = none ∧ (s.mailbox n).ctl = 0) ∧ step s = .next s

/-- R4, R267 (the canonical form is the model's, log 2): whatever a step does, memory stays a list of rising addresses that lists no byte equal to an unlisted
one's, so that equal memories are equal data. Said of every state, not only of those that a run reaches. -/
def Obligations.StepKeepsMemoryCanonical : Prop :=
  ∀ (s t : State), Memory.wf s.mem = true → step s = .next t → Memory.wf t.mem = true

/-! ### Instructions that wait, and instructions of the system, complete -/

namespace Sys2Proof.Claims

open Sys2Proof.Machine
open Host (Outcome Cell)

/-- Nothing that a release of a committed team would wait for is left anywhere (R146, R147). -/
structure AllDone (s : State) (i : Issue) : Prop where
  committed : i.team.committed = true
  accesses : s.accesses = []
  entries : s.wc = [] ∧ s.heldOut = []
  requests : s.reqs = []
  release : i.grp.frel = none
  twins : s.twins = []

/-- No transfer, slip or pending line of the scratchpad is about, so that nothing holds an instruction's bytes back (R167, R191, R206). -/
structure AllStill (s : State) (i : Issue) : Prop where
  transfers : s.copies = [] ∧ s.tileops = [] ∧ s.accessions = [] ∧ s.works = []
  lines : i.team.absent = [] ∧ i.team.bad = []
  group : i.grp.lapse = none ∧ ∀ k ∈ i.team.groups, k.lineWait = []

/-- An instruction answers a next state in which its group has gone past it: the lanes of the fragment stand at the next word, registers and
predicates as they were (R21). -/
def GoesPast (s : State) (i : Issue) (ins : Instr) : Prop :=
  ∃ t g', exec ins s = .next t ∧ t.group? i.cur.team i.cur.grp = some g' ∧ LanesAre i g' i.view

end Sys2Proof.Claims

/-- R146, R150-R152, R155, R194, R196, R206, R209, R210, R226, R227: with nothing left to wait for, FENCE, FENCE.ACQ, FENCE.REL, PUBLISH of a registered
region, ACCESSION, LAUNCH and FACSIM answer a next state in which their group has gone past them, as MCAST and CALLSLIP do once no acquire of their group
is outstanding (R236), and WAITC, PREF and SLIPCAN whatever is; AWAIT goes past without a lane, and with lanes leaves the group watching and its completion owed. -/
def Obligations.WaitsAndSystemInstructionsComplete : Prop :=
  ∀ (s : State) (i : Issue) (g : Guard),
  (∀ sc : BitVec 3, Passes s i true [] (scopeValid sc) → AllDone s i → (i.image.det = true → sc.toNat ≤ 2) →
    ∀ ins ∈ [Instr.fence g sc, .fenceAcq g sc, .fenceRel g sc], GoesPast s i ins) ∧
  (∀ (k : BitVec 6) (c : BitVec 2), Passes s i true [] true → GoesPast s i (.waitc g k c)) ∧
  (∀ (a : RegField) (h : BitVec 2), Passes s i true [.srcNoLatch a 2] true → GoesPast s i (.pref g a h)) ∧
  (∀ (d a : RegField) (sc : BitVec 3), Passes s i true [.rw d 1, .srcNoLatch a 2] (scopeValid sc) → (i.image.det = true → sc.toNat ≤ 2) → AllDone s i →
    Reachable s i (i.pairAddrs g a) 4 .read →
    (i.pairAddrs g a = [] → GoesPast s i (.await g d a sc)) ∧
    (i.pairAddrs g a ≠ [] → ∃ t x, exec (.await g d a sc) s = .next t ∧ t.group? i.cur.team i.cur.grp = some { i.grp with wait := .await i.cur.exec, stall := 6 } ∧
      t.accesses = [x] ∧ x.kind = .await sc.toNat ∧ x.event ∈ t.due)) ∧
  (∀ a : RegField, Passes s i true [.srcStrict a 2] true → (i.effect g = 0 → ∀ ins ∈ [Instr.publish g a, .launch g a, .facsim g a], GoesPast s i ins) ∧
    (AllDone s i →
      (∀ l q p, i.taking g = l :: q → s.region? (s.pubCtx i.team.ctx) (i.pair a l).toNat = some p → GoesPast s i (.publish g a)) ∧
      (let xs := i.pairAddrs g a; let ls := xs.map (fun x => (⟨x.1, x.2.toNat, i.locOf s x.2 .read, []⟩ : LaneAcc)); Mapped s i xs 64 .read → ReadsNow s i ls →
        (i.image.boosted = false → ((s.tap (ls.map (fun x => x.loc))).launchAll i.team false
          (ls.map (fun x => (x.va, s.teamRead i.cur.team i.team.ctx i.grp.core x.loc.pa 64)))).isSome = true) → GoesPast s i (.launch g a)) ∧
      (∀ l q, i.taking g = l :: q → let va := i.pair a l; let ls := i.listPieces s va.toNat
        let read := fun (x : LaneAcc) => s.teamRead i.cur.team i.team.ctx i.grp.core x.loc.pa 64
        let n := (16 + 16 * bytesAt ((ls.take 1).map read).flatten 0 4 + 63) / 64; let list := ((ls.take n).map read).flatten
        va.toNat % 64 = 0 → ReadsNow s i ls → n ≤ 5 → i.pieceStop s l va 1 = none → i.pieceStop s l va n = none → listOk list = true →
        i.image.boosted = false → i.regionStop s l ((listRegions list).map regionPages).flatten = none → GoesPast s i (.facsim g a)))) ∧
  (∀ (d a : RegField) (b : BitVec 4), Passes s i true [.rw d 1, .srcStrict a 2] true →
    (i.effect g = 0 → GoesPast s i (.mcast g d a b)) ∧
    (∀ l q, i.taking g = l :: q → AllStill s i → s.acquiring i = false → let off := (i.regAt a 0 l).toNat; let r := i.team.words off 8
      off % 32 = 0 → off + 32 ≤ i.image.scratch → (i.regAt a 1 l = 0xFFFFFFFF ∨ (i.regAt a 1 l).toNat % 16 = 0 ∧ (i.regAt a 1 l).toNat + 16 ≤ i.image.scratch) →
      (i.team.bar b.toNat).expected ≠ 0 → sendOk r = true → i.sendStop (i.regAt d 0 l) r = none → GoesPast s i (.mcast g d a b))) ∧
  (∀ d a : RegField, Passes s i true [.rwStrict d 2, .srcStrict a 3] true → AllStill s i → s.acquiring i = false → let xs := i.tileOffsets g d
    (∀ x ∈ xs, x.2 % 256 = 0 ∧ x.2 + 4096 ≤ i.image.scratch ∧ x.2 < 2 ^ 32 ∧ 1 ≤ (i.regAt d 1 x.1).toNat ∧ (i.regAt d 1 x.1).toNat ≤ 1048576) →
    (∀ x ∈ xs, ∀ y ∈ xs, x.1 ≠ y.1 → x.2 + 4096 ≤ y.2 ∨ y.2 + 4096 ≤ x.2) → GoesPast s i (.callslip g d a)) ∧
  (∀ d a : RegField, Passes s i true [.rw d 1, .srcStrict a 3] true → AllStill s i → AllDone s i →
    (∀ x ∈ i.tileOffsets g d, x.2 % 256 = 0 ∧ x.2 + 4096 ≤ i.image.scratch ∧ x.2 < 2 ^ 32) → GoesPast s i (.accession g d a)) ∧
  (∀ a : RegField, Passes s i true [.srcStrict a 3] true → AllStill s i → GoesPast s i (.slipcan g a))
end

