-- ==== Sys2Proof/Laws/State.lean ====
section
/-!
SUPPORT. What each named update of the state leaves as it was: one lemma per field.
-/
namespace Sys2Proof.Machine

@[simp] theorem onTeam_cur (s : State) (u : Nat) (f : Team → Team) : (s.onTeam u f).cur = s.cur := rfl
@[simp] theorem onTeam_inbox (s : State) (u : Nat) (f : Team → Team) : (s.onTeam u f).inbox = s.inbox := rfl
@[simp] theorem onTeam_due (s : State) (u : Nat) (f : Team → Team) : (s.onTeam u f).due = s.due := rfl
@[simp] theorem onTeam_begun (s : State) (u : Nat) (f : Team → Team) : (s.onTeam u f).begun = s.begun := rfl
@[simp] theorem onTeam_out (s : State) (u : Nat) (f : Team → Team) : (s.onTeam u f).out = s.out := rfl
@[simp] theorem onTeam_nextId (s : State) (u : Nat) (f : Team → Team) : (s.onTeam u f).nextId = s.nextId := rfl
@[simp] theorem onTeam_issues (s : State) (u : Nat) (f : Team → Team) : (s.onTeam u f).issues = s.issues := rfl
@[simp] theorem onTeam_freeTick (s : State) (u : Nat) (f : Team → Team) : (s.onTeam u f).freeTick = s.freeTick := rfl
@[simp] theorem onTeam_part (s : State) (u : Nat) (f : Team → Team) : (s.onTeam u f).part = s.part := rfl
@[simp] theorem onTeam_cap (s : State) (u : Nat) (f : Team → Team) : (s.onTeam u f).cap = s.cap := rfl
@[simp] theorem onTeam_launches (s : State) (u : Nat) (f : Team → Team) : (s.onTeam u f).launches = s.launches := rfl
@[simp] theorem onTeam_queues (s : State) (u : Nat) (f : Team → Team) : (s.onTeam u f).queues = s.queues := rfl
@[simp] theorem onTeam_served (s : State) (u : Nat) (f : Team → Team) : (s.onTeam u f).served = s.served := rfl
@[simp] theorem onTeam_images (s : State) (u : Nat) (f : Team → Team) : (s.onTeam u f).images = s.images := rfl
@[simp] theorem onTeam_ctxs (s : State) (u : Nat) (f : Team → Team) : (s.onTeam u f).ctxs = s.ctxs := rfl
@[simp] theorem onTeam_cores (s : State) (u : Nat) (f : Team → Team) : (s.onTeam u f).cores = s.cores := rfl
@[simp] theorem onTeam_coreCtxs (s : State) (u : Nat) (f : Team → Team) : (s.onTeam u f).coreCtxs = s.coreCtxs := rfl
@[simp] theorem onTeam_stamps (s : State) (u : Nat) (f : Team → Team) : (s.onTeam u f).stamps = s.stamps := rfl
@[simp] theorem onTeam_decisions (s : State) (u : Nat) (f : Team → Team) : (s.onTeam u f).decisions = s.decisions := rfl
@[simp] theorem onTeam_mem (s : State) (u : Nat) (f : Team → Team) : (s.onTeam u f).mem = s.mem := rfl
@[simp] theorem onTeam_held (s : State) (u : Nat) (f : Team → Team) : (s.onTeam u f).held = s.held := rfl
@[simp] theorem onTeam_marks (s : State) (u : Nat) (f : Team → Team) : (s.onTeam u f).marks = s.marks := rfl
@[simp] theorem onTeam_poison (s : State) (u : Nat) (f : Team → Team) : (s.onTeam u f).poison = s.poison := rfl
@[simp] theorem onTeam_accesses (s : State) (u : Nat) (f : Team → Team) : (s.onTeam u f).accesses = s.accesses := rfl
@[simp] theorem onTeam_wc (s : State) (u : Nat) (f : Team → Team) : (s.onTeam u f).wc = s.wc := rfl
@[simp] theorem onTeam_heldOut (s : State) (u : Nat) (f : Team → Team) : (s.onTeam u f).heldOut = s.heldOut := rfl
@[simp] theorem onTeam_reqs (s : State) (u : Nat) (f : Team → Team) : (s.onTeam u f).reqs = s.reqs := rfl
@[simp] theorem onTeam_rids (s : State) (u : Nat) (f : Team → Team) : (s.onTeam u f).rids = s.rids := rfl
@[simp] theorem onTeam_faultq (s : State) (u : Nat) (f : Team → Team) : (s.onTeam u f).faultq = s.faultq := rfl
@[simp] theorem onTeam_copies (s : State) (u : Nat) (f : Team → Team) : (s.onTeam u f).copies = s.copies := rfl
@[simp] theorem onTeam_sends (s : State) (u : Nat) (f : Team → Team) : (s.onTeam u f).sends = s.sends := rfl
@[simp] theorem onTeam_works (s : State) (u : Nat) (f : Team → Team) : (s.onTeam u f).works = s.works := rfl
@[simp] theorem onTeam_tileops (s : State) (u : Nat) (f : Team → Team) : (s.onTeam u f).tileops = s.tileops := rfl
@[simp] theorem onTeam_slips (s : State) (u : Nat) (f : Team → Team) : (s.onTeam u f).slips = s.slips := rfl
@[simp] theorem onTeam_accessions (s : State) (u : Nat) (f : Team → Team) : (s.onTeam u f).accessions = s.accessions := rfl
@[simp] theorem onTeam_colls (s : State) (u : Nat) (f : Team → Team) : (s.onTeam u f).colls = s.colls := rfl
@[simp] theorem onTeam_pubs (s : State) (u : Nat) (f : Team → Team) : (s.onTeam u f).pubs = s.pubs := rfl
@[simp] theorem onTeam_migrations (s : State) (u : Nat) (f : Team → Team) : (s.onTeam u f).migrations = s.migrations := rfl
@[simp] theorem onTeam_twins (s : State) (u : Nat) (f : Team → Team) : (s.onTeam u f).twins = s.twins := rfl
@[simp] theorem onTeam_objects (s : State) (u : Nat) (f : Team → Team) : (s.onTeam u f).objects = s.objects := rfl
@[simp] theorem onTeam_scrubs (s : State) (u : Nat) (f : Team → Team) : (s.onTeam u f).scrubs = s.scrubs := rfl
@[simp] theorem onTeam_planes (s : State) (u : Nat) (f : Team → Team) : (s.onTeam u f).planes = s.planes := rfl
@[simp] theorem onTeam_nextPlanes (s : State) (u : Nat) (f : Team → Team) : (s.onTeam u f).nextPlanes = s.nextPlanes := rfl
@[simp] theorem onTeam_kept (s : State) (u : Nat) (f : Team → Team) : (s.onTeam u f).kept = s.kept := rfl
@[simp] theorem onTeam_links (s : State) (u : Nat) (f : Team → Team) : (s.onTeam u f).links = s.links := rfl
@[simp] theorem onTeam_linksDown (s : State) (u : Nat) (f : Team → Team) : (s.onTeam u f).linksDown = s.linksDown := rfl
@[simp] theorem onTeam_cache (s : State) (u : Nat) (f : Team → Team) : (s.onTeam u f).cache = s.cache := rfl
@[simp] theorem onTeam_expiry (s : State) (u : Nat) (f : Team → Team) : (s.onTeam u f).expiry = s.expiry := rfl
@[simp] theorem onTeam_busy (s : State) (u : Nat) (f : Team → Team) : (s.onTeam u f).busy = s.busy := rfl
@[simp] theorem onTeam_exports (s : State) (u : Nat) (f : Team → Team) : (s.onTeam u f).exports = s.exports := rfl
@[simp] theorem onTeam_reorder (s : State) (u : Nat) (f : Team → Team) : (s.onTeam u f).reorder = s.reorder := rfl
@[simp] theorem onTeam_barriers (s : State) (u : Nat) (f : Team → Team) : (s.onTeam u f).barriers = s.barriers := rfl
@[simp] theorem onTeam_starts (s : State) (u : Nat) (f : Team → Team) : (s.onTeam u f).starts = s.starts := rfl
@[simp] theorem onTeam_facEnded (s : State) (u : Nat) (f : Team → Team) : (s.onTeam u f).facEnded = s.facEnded := rfl
@[simp] theorem onTeam_routers (s : State) (u : Nat) (f : Team → Team) : (s.onTeam u f).routers = s.routers := rfl
@[simp] theorem onTeam_frames (s : State) (u : Nat) (f : Team → Team) : (s.onTeam u f).frames = s.frames := rfl
@[simp] theorem onTeam_areas (s : State) (u : Nat) (f : Team → Team) : (s.onTeam u f).areas = s.areas := rfl
@[simp] theorem onTeam_scrubAreas (s : State) (u : Nat) (f : Team → Team) : (s.onTeam u f).scrubAreas = s.scrubAreas := rfl
@[simp] theorem onTeam_scrubAt (s : State) (u : Nat) (f : Team → Team) : (s.onTeam u f).scrubAt = s.scrubAt := rfl
@[simp] theorem onTeam_stalls (s : State) (u : Nat) (f : Team → Team) : (s.onTeam u f).stalls = s.stalls := rfl
@[simp] theorem onTeam_far (s : State) (u : Nat) (f : Team → Team) : (s.onTeam u f).far = s.far := rfl
@[simp] theorem onTeam_bgbud (s : State) (u : Nat) (f : Team → Team) : (s.onTeam u f).bgbud = s.bgbud := rfl
@[simp] theorem onTeam_bguse (s : State) (u : Nat) (f : Team → Team) : (s.onTeam u f).bguse = s.bguse := rfl
@[simp] theorem onTeam_warncfg (s : State) (u : Nat) (f : Team → Team) : (s.onTeam u f).warncfg = s.warncfg := rfl
@[simp] theorem onTeam_errors (s : State) (u : Nat) (f : Team → Team) : (s.onTeam u f).errors = s.errors := rfl
@[simp] theorem onTeam_errHist (s : State) (u : Nat) (f : Team → Team) : (s.onTeam u f).errHist = s.errHist := rfl
@[simp] theorem onTeam_plog (s : State) (u : Nat) (f : Team → Team) : (s.onTeam u f).plog = s.plog := rfl
@[simp] theorem onTeam_passTime (s : State) (u : Nat) (f : Team → Team) : (s.onTeam u f).passTime = s.passTime := rfl
@[simp] theorem onTeam_facs (s : State) (u : Nat) (f : Team → Team) : (s.onTeam u f).facs = s.facs := rfl
@[simp] theorem onTeam_meters (s : State) (u : Nat) (f : Team → Team) : (s.onTeam u f).meters = s.meters := rfl
@[simp] theorem onTeam_statements (s : State) (u : Nat) (f : Team → Team) : (s.onTeam u f).statements = s.statements := rfl
@[simp] theorem onTeam_chained (s : State) (u : Nat) (f : Team → Team) : (s.onTeam u f).chained = s.chained := rfl
@[simp] theorem onTeam_slices (s : State) (u : Nat) (f : Team → Team) : (s.onTeam u f).slices = s.slices := rfl
@[simp] theorem onTeam_spares (s : State) (u : Nat) (f : Team → Team) : (s.onTeam u f).spares = s.spares := rfl
@[simp] theorem onTeam_retired (s : State) (u : Nat) (f : Team → Team) : (s.onTeam u f).retired = s.retired := rfl
@[simp] theorem onTeam_clusterMap (s : State) (u : Nat) (f : Team → Team) : (s.onTeam u f).clusterMap = s.clusterMap := rfl
@[simp] theorem onTeam_stackMap (s : State) (u : Nat) (f : Team → Team) : (s.onTeam u f).stackMap = s.stackMap := rfl
@[simp] theorem onTeam_windows (s : State) (u : Nat) (f : Team → Team) : (s.onTeam u f).windows = s.windows := rfl
@[simp] theorem onTeam_mailboxes (s : State) (u : Nat) (f : Team → Team) : (s.onTeam u f).mailboxes = s.mailboxes := rfl
@[simp] theorem onTeam_startMode (s : State) (u : Nat) (f : Team → Team) : (s.onTeam u f).startMode = s.startMode := rfl
@[simp] theorem onTeam_startReason (s : State) (u : Nat) (f : Team → Team) : (s.onTeam u f).startReason = s.startReason := rfl
@[simp] theorem onTeam_startFails (s : State) (u : Nat) (f : Team → Team) : (s.onTeam u f).startFails = s.startFails := rfl
@[simp] theorem onTeam_portsDown (s : State) (u : Nat) (f : Team → Team) : (s.onTeam u f).portsDown = s.portsDown := rfl
@[simp] theorem onTeam_up (s : State) (u : Nat) (f : Team → Team) : (s.onTeam u f).up = s.up := rfl
@[simp] theorem onTeam_attempting (s : State) (u : Nat) (f : Team → Team) : (s.onTeam u f).attempting = s.attempting := rfl
@[simp] theorem onTeam_minDie (s : State) (u : Nat) (f : Team → Team) : (s.onTeam u f).minDie = s.minDie := rfl
@[simp] theorem onTeam_pwrLimit (s : State) (u : Nat) (f : Team → Team) : (s.onTeam u f).pwrLimit = s.pwrLimit := rfl
@[simp] theorem onTeam_clockStep (s : State) (u : Nat) (f : Team → Team) : (s.onTeam u f).clockStep = s.clockStep := rfl
@[simp] theorem onTeam_throttled (s : State) (u : Nat) (f : Team → Team) : (s.onTeam u f).throttled = s.throttled := rfl
@[simp] theorem onTeam_sensors (s : State) (u : Nat) (f : Team → Team) : (s.onTeam u f).sensors = s.sensors := rfl
@[simp] theorem onTeam_eid (s : State) (u : Nat) (f : Team → Team) : (s.onTeam u f).eid = s.eid := rfl
@[simp] theorem onTeam_spdm (s : State) (u : Nat) (f : Team → Team) : (s.onTeam u f).spdm = s.spdm := rfl
@[simp] theorem onTeam_recalls (s : State) (u : Nat) (f : Team → Team) : (s.onTeam u f).recalls = s.recalls := rfl

@[simp] theorem onGroup_cur (s : State) (u i : Nat) (f : Group → Group) : (s.onGroup u i f).cur = s.cur := rfl
@[simp] theorem onGroup_inbox (s : State) (u i : Nat) (f : Group → Group) : (s.onGroup u i f).inbox = s.inbox := rfl
@[simp] theorem onGroup_due (s : State) (u i : Nat) (f : Group → Group) : (s.onGroup u i f).due = s.due := rfl
@[simp] theorem onGroup_begun (s : State) (u i : Nat) (f : Group → Group) : (s.onGroup u i f).begun = s.begun := rfl
@[simp] theorem onGroup_out (s : State) (u i : Nat) (f : Group → Group) : (s.onGroup u i f).out = s.out := rfl
@[simp] theorem onGroup_nextId (s : State) (u i : Nat) (f : Group → Group) : (s.onGroup u i f).nextId = s.nextId := rfl
@[simp] theorem onGroup_issues (s : State) (u i : Nat) (f : Group → Group) : (s.onGroup u i f).issues = s.issues := rfl
@[simp] theorem onGroup_freeTick (s : State) (u i : Nat) (f : Group → Group) : (s.onGroup u i f).freeTick = s.freeTick := rfl
@[simp] theorem onGroup_part (s : State) (u i : Nat) (f : Group → Group) : (s.onGroup u i f).part = s.part := rfl
@[simp] theorem onGroup_cap (s : State) (u i : Nat) (f : Group → Group) : (s.onGroup u i f).cap = s.cap := rfl
@[simp] theorem onGroup_launches (s : State) (u i : Nat) (f : Group → Group) : (s.onGroup u i f).launches = s.launches := rfl
@[simp] theorem onGroup_queues (s : State) (u i : Nat) (f : Group → Group) : (s.onGroup u i f).queues = s.queues := rfl
@[simp] theorem onGroup_served (s : State) (u i : Nat) (f : Group → Group) : (s.onGroup u i f).served = s.served := rfl
@[simp] theorem onGroup_images (s : State) (u i : Nat) (f : Group → Group) : (s.onGroup u i f).images = s.images := rfl
@[simp] theorem onGroup_ctxs (s : State) (u i : Nat) (f : Group → Group) : (s.onGroup u i f).ctxs = s.ctxs := rfl
@[simp] theorem onGroup_cores (s : State) (u i : Nat) (f : Group → Group) : (s.onGroup u i f).cores = s.cores := rfl
@[simp] theorem onGroup_coreCtxs (s : State) (u i : Nat) (f : Group → Group) : (s.onGroup u i f).coreCtxs = s.coreCtxs := rfl
@[simp] theorem onGroup_stamps (s : State) (u i : Nat) (f : Group → Group) : (s.onGroup u i f).stamps = s.stamps := rfl
@[simp] theorem onGroup_decisions (s : State) (u i : Nat) (f : Group → Group) : (s.onGroup u i f).decisions = s.decisions := rfl
@[simp] theorem onGroup_mem (s : State) (u i : Nat) (f : Group → Group) : (s.onGroup u i f).mem = s.mem := rfl
@[simp] theorem onGroup_held (s : State) (u i : Nat) (f : Group → Group) : (s.onGroup u i f).held = s.held := rfl
@[simp] theorem onGroup_marks (s : State) (u i : Nat) (f : Group → Group) : (s.onGroup u i f).marks = s.marks := rfl
@[simp] theorem onGroup_poison (s : State) (u i : Nat) (f : Group → Group) : (s.onGroup u i f).poison = s.poison := rfl
@[simp] theorem onGroup_accesses (s : State) (u i : Nat) (f : Group → Group) : (s.onGroup u i f).accesses = s.accesses := rfl
@[simp] theorem onGroup_wc (s : State) (u i : Nat) (f : Group → Group) : (s.onGroup u i f).wc = s.wc := rfl
@[simp] theorem onGroup_heldOut (s : State) (u i : Nat) (f : Group → Group) : (s.onGroup u i f).heldOut = s.heldOut := rfl
@[simp] theorem onGroup_reqs (s : State) (u i : Nat) (f : Group → Group) : (s.onGroup u i f).reqs = s.reqs := rfl
@[simp] theorem onGroup_rids (s : State) (u i : Nat) (f : Group → Group) : (s.onGroup u i f).rids = s.rids := rfl
@[simp] theorem onGroup_faultq (s : State) (u i : Nat) (f : Group → Group) : (s.onGroup u i f).faultq = s.faultq := rfl
@[simp] theorem onGroup_copies (s : State) (u i : Nat) (f : Group → Group) : (s.onGroup u i f).copies = s.copies := rfl
@[simp] theorem onGroup_sends (s : State) (u i : Nat) (f : Group → Group) : (s.onGroup u i f).sends = s.sends := rfl
@[simp] theorem onGroup_works (s : State) (u i : Nat) (f : Group → Group) : (s.onGroup u i f).works = s.works := rfl
@[simp] theorem onGroup_tileops (s : State) (u i : Nat) (f : Group → Group) : (s.onGroup u i f).tileops = s.tileops := rfl
@[simp] theorem onGroup_slips (s : State) (u i : Nat) (f : Group → Group) : (s.onGroup u i f).slips = s.slips := rfl
@[simp] theorem onGroup_accessions (s : State) (u i : Nat) (f : Group → Group) : (s.onGroup u i f).accessions = s.accessions := rfl
@[simp] theorem onGroup_colls (s : State) (u i : Nat) (f : Group → Group) : (s.onGroup u i f).colls = s.colls := rfl
@[simp] theorem onGroup_pubs (s : State) (u i : Nat) (f : Group → Group) : (s.onGroup u i f).pubs = s.pubs := rfl
@[simp] theorem onGroup_migrations (s : State) (u i : Nat) (f : Group → Group) : (s.onGroup u i f).migrations = s.migrations := rfl
@[simp] theorem onGroup_twins (s : State) (u i : Nat) (f : Group → Group) : (s.onGroup u i f).twins = s.twins := rfl
@[simp] theorem onGroup_objects (s : State) (u i : Nat) (f : Group → Group) : (s.onGroup u i f).objects = s.objects := rfl
@[simp] theorem onGroup_scrubs (s : State) (u i : Nat) (f : Group → Group) : (s.onGroup u i f).scrubs = s.scrubs := rfl
@[simp] theorem onGroup_planes (s : State) (u i : Nat) (f : Group → Group) : (s.onGroup u i f).planes = s.planes := rfl
@[simp] theorem onGroup_nextPlanes (s : State) (u i : Nat) (f : Group → Group) : (s.onGroup u i f).nextPlanes = s.nextPlanes := rfl
@[simp] theorem onGroup_kept (s : State) (u i : Nat) (f : Group → Group) : (s.onGroup u i f).kept = s.kept := rfl
@[simp] theorem onGroup_links (s : State) (u i : Nat) (f : Group → Group) : (s.onGroup u i f).links = s.links := rfl
@[simp] theorem onGroup_linksDown (s : State) (u i : Nat) (f : Group → Group) : (s.onGroup u i f).linksDown = s.linksDown := rfl
@[simp] theorem onGroup_cache (s : State) (u i : Nat) (f : Group → Group) : (s.onGroup u i f).cache = s.cache := rfl
@[simp] theorem onGroup_expiry (s : State) (u i : Nat) (f : Group → Group) : (s.onGroup u i f).expiry = s.expiry := rfl
@[simp] theorem onGroup_busy (s : State) (u i : Nat) (f : Group → Group) : (s.onGroup u i f).busy = s.busy := rfl
@[simp] theorem onGroup_exports (s : State) (u i : Nat) (f : Group → Group) : (s.onGroup u i f).exports = s.exports := rfl
@[simp] theorem onGroup_reorder (s : State) (u i : Nat) (f : Group → Group) : (s.onGroup u i f).reorder = s.reorder := rfl
@[simp] theorem onGroup_barriers (s : State) (u i : Nat) (f : Group → Group) : (s.onGroup u i f).barriers = s.barriers := rfl
@[simp] theorem onGroup_starts (s : State) (u i : Nat) (f : Group → Group) : (s.onGroup u i f).starts = s.starts := rfl
@[simp] theorem onGroup_facEnded (s : State) (u i : Nat) (f : Group → Group) : (s.onGroup u i f).facEnded = s.facEnded := rfl
@[simp] theorem onGroup_routers (s : State) (u i : Nat) (f : Group → Group) : (s.onGroup u i f).routers = s.routers := rfl
@[simp] theorem onGroup_frames (s : State) (u i : Nat) (f : Group → Group) : (s.onGroup u i f).frames = s.frames := rfl
@[simp] theorem onGroup_areas (s : State) (u i : Nat) (f : Group → Group) : (s.onGroup u i f).areas = s.areas := rfl
@[simp] theorem onGroup_scrubAreas (s : State) (u i : Nat) (f : Group → Group) : (s.onGroup u i f).scrubAreas = s.scrubAreas := rfl
@[simp] theorem onGroup_scrubAt (s : State) (u i : Nat) (f : Group → Group) : (s.onGroup u i f).scrubAt = s.scrubAt := rfl
@[simp] theorem onGroup_stalls (s : State) (u i : Nat) (f : Group → Group) : (s.onGroup u i f).stalls = s.stalls := rfl
@[simp] theorem onGroup_far (s : State) (u i : Nat) (f : Group → Group) : (s.onGroup u i f).far = s.far := rfl
@[simp] theorem onGroup_bgbud (s : State) (u i : Nat) (f : Group → Group) : (s.onGroup u i f).bgbud = s.bgbud := rfl
@[simp] theorem onGroup_bguse (s : State) (u i : Nat) (f : Group → Group) : (s.onGroup u i f).bguse = s.bguse := rfl
@[simp] theorem onGroup_warncfg (s : State) (u i : Nat) (f : Group → Group) : (s.onGroup u i f).warncfg = s.warncfg := rfl
@[simp] theorem onGroup_errors (s : State) (u i : Nat) (f : Group → Group) : (s.onGroup u i f).errors = s.errors := rfl
@[simp] theorem onGroup_errHist (s : State) (u i : Nat) (f : Group → Group) : (s.onGroup u i f).errHist = s.errHist := rfl
@[simp] theorem onGroup_plog (s : State) (u i : Nat) (f : Group → Group) : (s.onGroup u i f).plog = s.plog := rfl
@[simp] theorem onGroup_passTime (s : State) (u i : Nat) (f : Group → Group) : (s.onGroup u i f).passTime = s.passTime := rfl
@[simp] theorem onGroup_facs (s : State) (u i : Nat) (f : Group → Group) : (s.onGroup u i f).facs = s.facs := rfl
@[simp] theorem onGroup_meters (s : State) (u i : Nat) (f : Group → Group) : (s.onGroup u i f).meters = s.meters := rfl
@[simp] theorem onGroup_statements (s : State) (u i : Nat) (f : Group → Group) : (s.onGroup u i f).statements = s.statements := rfl
@[simp] theorem onGroup_chained (s : State) (u i : Nat) (f : Group → Group) : (s.onGroup u i f).chained = s.chained := rfl
@[simp] theorem onGroup_slices (s : State) (u i : Nat) (f : Group → Group) : (s.onGroup u i f).slices = s.slices := rfl
@[simp] theorem onGroup_spares (s : State) (u i : Nat) (f : Group → Group) : (s.onGroup u i f).spares = s.spares := rfl
@[simp] theorem onGroup_retired (s : State) (u i : Nat) (f : Group → Group) : (s.onGroup u i f).retired = s.retired := rfl
@[simp] theorem onGroup_clusterMap (s : State) (u i : Nat) (f : Group → Group) : (s.onGroup u i f).clusterMap = s.clusterMap := rfl
@[simp] theorem onGroup_stackMap (s : State) (u i : Nat) (f : Group → Group) : (s.onGroup u i f).stackMap = s.stackMap := rfl
@[simp] theorem onGroup_windows (s : State) (u i : Nat) (f : Group → Group) : (s.onGroup u i f).windows = s.windows := rfl
@[simp] theorem onGroup_mailboxes (s : State) (u i : Nat) (f : Group → Group) : (s.onGroup u i f).mailboxes = s.mailboxes := rfl
@[simp] theorem onGroup_startMode (s : State) (u i : Nat) (f : Group → Group) : (s.onGroup u i f).startMode = s.startMode := rfl
@[simp] theorem onGroup_startReason (s : State) (u i : Nat) (f : Group → Group) : (s.onGroup u i f).startReason = s.startReason := rfl
@[simp] theorem onGroup_startFails (s : State) (u i : Nat) (f : Group → Group) : (s.onGroup u i f).startFails = s.startFails := rfl
@[simp] theorem onGroup_portsDown (s : State) (u i : Nat) (f : Group → Group) : (s.onGroup u i f).portsDown = s.portsDown := rfl
@[simp] theorem onGroup_up (s : State) (u i : Nat) (f : Group → Group) : (s.onGroup u i f).up = s.up := rfl
@[simp] theorem onGroup_attempting (s : State) (u i : Nat) (f : Group → Group) : (s.onGroup u i f).attempting = s.attempting := rfl
@[simp] theorem onGroup_minDie (s : State) (u i : Nat) (f : Group → Group) : (s.onGroup u i f).minDie = s.minDie := rfl
@[simp] theorem onGroup_pwrLimit (s : State) (u i : Nat) (f : Group → Group) : (s.onGroup u i f).pwrLimit = s.pwrLimit := rfl
@[simp] theorem onGroup_clockStep (s : State) (u i : Nat) (f : Group → Group) : (s.onGroup u i f).clockStep = s.clockStep := rfl
@[simp] theorem onGroup_throttled (s : State) (u i : Nat) (f : Group → Group) : (s.onGroup u i f).throttled = s.throttled := rfl
@[simp] theorem onGroup_sensors (s : State) (u i : Nat) (f : Group → Group) : (s.onGroup u i f).sensors = s.sensors := rfl
@[simp] theorem onGroup_eid (s : State) (u i : Nat) (f : Group → Group) : (s.onGroup u i f).eid = s.eid := rfl
@[simp] theorem onGroup_spdm (s : State) (u i : Nat) (f : Group → Group) : (s.onGroup u i f).spdm = s.spdm := rfl
@[simp] theorem onGroup_recalls (s : State) (u i : Nat) (f : Group → Group) : (s.onGroup u i f).recalls = s.recalls := rfl

@[simp] theorem onLaunch_cur (s : State) (u : Nat) (f : Launch → Launch) : (s.onLaunch u f).cur = s.cur := rfl
@[simp] theorem onLaunch_inbox (s : State) (u : Nat) (f : Launch → Launch) : (s.onLaunch u f).inbox = s.inbox := rfl
@[simp] theorem onLaunch_due (s : State) (u : Nat) (f : Launch → Launch) : (s.onLaunch u f).due = s.due := rfl
@[simp] theorem onLaunch_begun (s : State) (u : Nat) (f : Launch → Launch) : (s.onLaunch u f).begun = s.begun := rfl
@[simp] theorem onLaunch_out (s : State) (u : Nat) (f : Launch → Launch) : (s.onLaunch u f).out = s.out := rfl
@[simp] theorem onLaunch_nextId (s : State) (u : Nat) (f : Launch → Launch) : (s.onLaunch u f).nextId = s.nextId := rfl
@[simp] theorem onLaunch_issues (s : State) (u : Nat) (f : Launch → Launch) : (s.onLaunch u f).issues = s.issues := rfl
@[simp] theorem onLaunch_freeTick (s : State) (u : Nat) (f : Launch → Launch) : (s.onLaunch u f).freeTick = s.freeTick := rfl
@[simp] theorem onLaunch_part (s : State) (u : Nat) (f : Launch → Launch) : (s.onLaunch u f).part = s.part := rfl
@[simp] theorem onLaunch_cap (s : State) (u : Nat) (f : Launch → Launch) : (s.onLaunch u f).cap = s.cap := rfl
@[simp] theorem onLaunch_teams (s : State) (u : Nat) (f : Launch → Launch) : (s.onLaunch u f).teams = s.teams := rfl
@[simp] theorem onLaunch_queues (s : State) (u : Nat) (f : Launch → Launch) : (s.onLaunch u f).queues = s.queues := rfl
@[simp] theorem onLaunch_served (s : State) (u : Nat) (f : Launch → Launch) : (s.onLaunch u f).served = s.served := rfl
@[simp] theorem onLaunch_images (s : State) (u : Nat) (f : Launch → Launch) : (s.onLaunch u f).images = s.images := rfl
@[simp] theorem onLaunch_ctxs (s : State) (u : Nat) (f : Launch → Launch) : (s.onLaunch u f).ctxs = s.ctxs := rfl
@[simp] theorem onLaunch_cores (s : State) (u : Nat) (f : Launch → Launch) : (s.onLaunch u f).cores = s.cores := rfl
@[simp] theorem onLaunch_coreCtxs (s : State) (u : Nat) (f : Launch → Launch) : (s.onLaunch u f).coreCtxs = s.coreCtxs := rfl
@[simp] theorem onLaunch_stamps (s : State) (u : Nat) (f : Launch → Launch) : (s.onLaunch u f).stamps = s.stamps := rfl
@[simp] theorem onLaunch_decisions (s : State) (u : Nat) (f : Launch → Launch) : (s.onLaunch u f).decisions = s.decisions := rfl
@[simp] theorem onLaunch_mem (s : State) (u : Nat) (f : Launch → Launch) : (s.onLaunch u f).mem = s.mem := rfl
@[simp] theorem onLaunch_held (s : State) (u : Nat) (f : Launch → Launch) : (s.onLaunch u f).held = s.held := rfl
@[simp] theorem onLaunch_marks (s : State) (u : Nat) (f : Launch → Launch) : (s.onLaunch u f).marks = s.marks := rfl
@[simp] theorem onLaunch_poison (s : State) (u : Nat) (f : Launch → Launch) : (s.onLaunch u f).poison = s.poison := rfl
@[simp] theorem onLaunch_accesses (s : State) (u : Nat) (f : Launch → Launch) : (s.onLaunch u f).accesses = s.accesses := rfl
@[simp] theorem onLaunch_wc (s : State) (u : Nat) (f : Launch → Launch) : (s.onLaunch u f).wc = s.wc := rfl
@[simp] theorem onLaunch_heldOut (s : State) (u : Nat) (f : Launch → Launch) : (s.onLaunch u f).heldOut = s.heldOut := rfl
@[simp] theorem onLaunch_reqs (s : State) (u : Nat) (f : Launch → Launch) : (s.onLaunch u f).reqs = s.reqs := rfl
@[simp] theorem onLaunch_rids (s : State) (u : Nat) (f : Launch → Launch) : (s.onLaunch u f).rids = s.rids := rfl
@[simp] theorem onLaunch_faultq (s : State) (u : Nat) (f : Launch → Launch) : (s.onLaunch u f).faultq = s.faultq := rfl
@[simp] theorem onLaunch_copies (s : State) (u : Nat) (f : Launch → Launch) : (s.onLaunch u f).copies = s.copies := rfl
@[simp] theorem onLaunch_sends (s : State) (u : Nat) (f : Launch → Launch) : (s.onLaunch u f).sends = s.sends := rfl
@[simp] theorem onLaunch_works (s : State) (u : Nat) (f : Launch → Launch) : (s.onLaunch u f).works = s.works := rfl
@[simp] theorem onLaunch_tileops (s : State) (u : Nat) (f : Launch → Launch) : (s.onLaunch u f).tileops = s.tileops := rfl
@[simp] theorem onLaunch_slips (s : State) (u : Nat) (f : Launch → Launch) : (s.onLaunch u f).slips = s.slips := rfl
@[simp] theorem onLaunch_accessions (s : State) (u : Nat) (f : Launch → Launch) : (s.onLaunch u f).accessions = s.accessions := rfl
@[simp] theorem onLaunch_colls (s : State) (u : Nat) (f : Launch → Launch) : (s.onLaunch u f).colls = s.colls := rfl
@[simp] theorem onLaunch_pubs (s : State) (u : Nat) (f : Launch → Launch) : (s.onLaunch u f).pubs = s.pubs := rfl
@[simp] theorem onLaunch_migrations (s : State) (u : Nat) (f : Launch → Launch) : (s.onLaunch u f).migrations = s.migrations := rfl
@[simp] theorem onLaunch_twins (s : State) (u : Nat) (f : Launch → Launch) : (s.onLaunch u f).twins = s.twins := rfl
@[simp] theorem onLaunch_objects (s : State) (u : Nat) (f : Launch → Launch) : (s.onLaunch u f).objects = s.objects := rfl
@[simp] theorem onLaunch_scrubs (s : State) (u : Nat) (f : Launch → Launch) : (s.onLaunch u f).scrubs = s.scrubs := rfl
@[simp] theorem onLaunch_planes (s : State) (u : Nat) (f : Launch → Launch) : (s.onLaunch u f).planes = s.planes := rfl
@[simp] theorem onLaunch_nextPlanes (s : State) (u : Nat) (f : Launch → Launch) : (s.onLaunch u f).nextPlanes = s.nextPlanes := rfl
@[simp] theorem onLaunch_kept (s : State) (u : Nat) (f : Launch → Launch) : (s.onLaunch u f).kept = s.kept := rfl
@[simp] theorem onLaunch_links (s : State) (u : Nat) (f : Launch → Launch) : (s.onLaunch u f).links = s.links := rfl
@[simp] theorem onLaunch_linksDown (s : State) (u : Nat) (f : Launch → Launch) : (s.onLaunch u f).linksDown = s.linksDown := rfl
@[simp] theorem onLaunch_cache (s : State) (u : Nat) (f : Launch → Launch) : (s.onLaunch u f).cache = s.cache := rfl
@[simp] theorem onLaunch_expiry (s : State) (u : Nat) (f : Launch → Launch) : (s.onLaunch u f).expiry = s.expiry := rfl
@[simp] theorem onLaunch_busy (s : State) (u : Nat) (f : Launch → Launch) : (s.onLaunch u f).busy = s.busy := rfl
@[simp] theorem onLaunch_exports (s : State) (u : Nat) (f : Launch → Launch) : (s.onLaunch u f).exports = s.exports := rfl
@[simp] theorem onLaunch_reorder (s : State) (u : Nat) (f : Launch → Launch) : (s.onLaunch u f).reorder = s.reorder := rfl
@[simp] theorem onLaunch_barriers (s : State) (u : Nat) (f : Launch → Launch) : (s.onLaunch u f).barriers = s.barriers := rfl
@[simp] theorem onLaunch_starts (s : State) (u : Nat) (f : Launch → Launch) : (s.onLaunch u f).starts = s.starts := rfl
@[simp] theorem onLaunch_facEnded (s : State) (u : Nat) (f : Launch → Launch) : (s.onLaunch u f).facEnded = s.facEnded := rfl
@[simp] theorem onLaunch_routers (s : State) (u : Nat) (f : Launch → Launch) : (s.onLaunch u f).routers = s.routers := rfl
@[simp] theorem onLaunch_frames (s : State) (u : Nat) (f : Launch → Launch) : (s.onLaunch u f).frames = s.frames := rfl
@[simp] theorem onLaunch_areas (s : State) (u : Nat) (f : Launch → Launch) : (s.onLaunch u f).areas = s.areas := rfl
@[simp] theorem onLaunch_scrubAreas (s : State) (u : Nat) (f : Launch → Launch) : (s.onLaunch u f).scrubAreas = s.scrubAreas := rfl
@[simp] theorem onLaunch_scrubAt (s : State) (u : Nat) (f : Launch → Launch) : (s.onLaunch u f).scrubAt = s.scrubAt := rfl
@[simp] theorem onLaunch_stalls (s : State) (u : Nat) (f : Launch → Launch) : (s.onLaunch u f).stalls = s.stalls := rfl
@[simp] theorem onLaunch_far (s : State) (u : Nat) (f : Launch → Launch) : (s.onLaunch u f).far = s.far := rfl
@[simp] theorem onLaunch_bgbud (s : State) (u : Nat) (f : Launch → Launch) : (s.onLaunch u f).bgbud = s.bgbud := rfl
@[simp] theorem onLaunch_bguse (s : State) (u : Nat) (f : Launch → Launch) : (s.onLaunch u f).bguse = s.bguse := rfl
@[simp] theorem onLaunch_warncfg (s : State) (u : Nat) (f : Launch → Launch) : (s.onLaunch u f).warncfg = s.warncfg := rfl
@[simp] theorem onLaunch_errors (s : State) (u : Nat) (f : Launch → Launch) : (s.onLaunch u f).errors = s.errors := rfl
@[simp] theorem onLaunch_errHist (s : State) (u : Nat) (f : Launch → Launch) : (s.onLaunch u f).errHist = s.errHist := rfl
@[simp] theorem onLaunch_plog (s : State) (u : Nat) (f : Launch → Launch) : (s.onLaunch u f).plog = s.plog := rfl
@[simp] theorem onLaunch_passTime (s : State) (u : Nat) (f : Launch → Launch) : (s.onLaunch u f).passTime = s.passTime := rfl
@[simp] theorem onLaunch_facs (s : State) (u : Nat) (f : Launch → Launch) : (s.onLaunch u f).facs = s.facs := rfl
@[simp] theorem onLaunch_meters (s : State) (u : Nat) (f : Launch → Launch) : (s.onLaunch u f).meters = s.meters := rfl
@[simp] theorem onLaunch_statements (s : State) (u : Nat) (f : Launch → Launch) : (s.onLaunch u f).statements = s.statements := rfl
@[simp] theorem onLaunch_chained (s : State) (u : Nat) (f : Launch → Launch) : (s.onLaunch u f).chained = s.chained := rfl
@[simp] theorem onLaunch_slices (s : State) (u : Nat) (f : Launch → Launch) : (s.onLaunch u f).slices = s.slices := rfl
@[simp] theorem onLaunch_spares (s : State) (u : Nat) (f : Launch → Launch) : (s.onLaunch u f).spares = s.spares := rfl
@[simp] theorem onLaunch_retired (s : State) (u : Nat) (f : Launch → Launch) : (s.onLaunch u f).retired = s.retired := rfl
@[simp] theorem onLaunch_clusterMap (s : State) (u : Nat) (f : Launch → Launch) : (s.onLaunch u f).clusterMap = s.clusterMap := rfl
@[simp] theorem onLaunch_stackMap (s : State) (u : Nat) (f : Launch → Launch) : (s.onLaunch u f).stackMap = s.stackMap := rfl
@[simp] theorem onLaunch_windows (s : State) (u : Nat) (f : Launch → Launch) : (s.onLaunch u f).windows = s.windows := rfl
@[simp] theorem onLaunch_mailboxes (s : State) (u : Nat) (f : Launch → Launch) : (s.onLaunch u f).mailboxes = s.mailboxes := rfl
@[simp] theorem onLaunch_startMode (s : State) (u : Nat) (f : Launch → Launch) : (s.onLaunch u f).startMode = s.startMode := rfl
@[simp] theorem onLaunch_startReason (s : State) (u : Nat) (f : Launch → Launch) : (s.onLaunch u f).startReason = s.startReason := rfl
@[simp] theorem onLaunch_startFails (s : State) (u : Nat) (f : Launch → Launch) : (s.onLaunch u f).startFails = s.startFails := rfl
@[simp] theorem onLaunch_portsDown (s : State) (u : Nat) (f : Launch → Launch) : (s.onLaunch u f).portsDown = s.portsDown := rfl
@[simp] theorem onLaunch_up (s : State) (u : Nat) (f : Launch → Launch) : (s.onLaunch u f).up = s.up := rfl
@[simp] theorem onLaunch_attempting (s : State) (u : Nat) (f : Launch → Launch) : (s.onLaunch u f).attempting = s.attempting := rfl
@[simp] theorem onLaunch_minDie (s : State) (u : Nat) (f : Launch → Launch) : (s.onLaunch u f).minDie = s.minDie := rfl
@[simp] theorem onLaunch_pwrLimit (s : State) (u : Nat) (f : Launch → Launch) : (s.onLaunch u f).pwrLimit = s.pwrLimit := rfl
@[simp] theorem onLaunch_clockStep (s : State) (u : Nat) (f : Launch → Launch) : (s.onLaunch u f).clockStep = s.clockStep := rfl
@[simp] theorem onLaunch_throttled (s : State) (u : Nat) (f : Launch → Launch) : (s.onLaunch u f).throttled = s.throttled := rfl
@[simp] theorem onLaunch_sensors (s : State) (u : Nat) (f : Launch → Launch) : (s.onLaunch u f).sensors = s.sensors := rfl
@[simp] theorem onLaunch_eid (s : State) (u : Nat) (f : Launch → Launch) : (s.onLaunch u f).eid = s.eid := rfl
@[simp] theorem onLaunch_spdm (s : State) (u : Nat) (f : Launch → Launch) : (s.onLaunch u f).spdm = s.spdm := rfl
@[simp] theorem onLaunch_recalls (s : State) (u : Nat) (f : Launch → Launch) : (s.onLaunch u f).recalls = s.recalls := rfl

@[simp] theorem onCtx_cur (s : State) (n : Nat) (f : Ctx → Ctx) : (s.onCtx n f).cur = s.cur := rfl
@[simp] theorem onCtx_inbox (s : State) (n : Nat) (f : Ctx → Ctx) : (s.onCtx n f).inbox = s.inbox := rfl
@[simp] theorem onCtx_due (s : State) (n : Nat) (f : Ctx → Ctx) : (s.onCtx n f).due = s.due := rfl
@[simp] theorem onCtx_begun (s : State) (n : Nat) (f : Ctx → Ctx) : (s.onCtx n f).begun = s.begun := rfl
@[simp] theorem onCtx_out (s : State) (n : Nat) (f : Ctx → Ctx) : (s.onCtx n f).out = s.out := rfl
@[simp] theorem onCtx_nextId (s : State) (n : Nat) (f : Ctx → Ctx) : (s.onCtx n f).nextId = s.nextId := rfl
@[simp] theorem onCtx_issues (s : State) (n : Nat) (f : Ctx → Ctx) : (s.onCtx n f).issues = s.issues := rfl
@[simp] theorem onCtx_freeTick (s : State) (n : Nat) (f : Ctx → Ctx) : (s.onCtx n f).freeTick = s.freeTick := rfl
@[simp] theorem onCtx_part (s : State) (n : Nat) (f : Ctx → Ctx) : (s.onCtx n f).part = s.part := rfl
@[simp] theorem onCtx_cap (s : State) (n : Nat) (f : Ctx → Ctx) : (s.onCtx n f).cap = s.cap := rfl
@[simp] theorem onCtx_teams (s : State) (n : Nat) (f : Ctx → Ctx) : (s.onCtx n f).teams = s.teams := rfl
@[simp] theorem onCtx_launches (s : State) (n : Nat) (f : Ctx → Ctx) : (s.onCtx n f).launches = s.launches := rfl
@[simp] theorem onCtx_queues (s : State) (n : Nat) (f : Ctx → Ctx) : (s.onCtx n f).queues = s.queues := rfl
@[simp] theorem onCtx_served (s : State) (n : Nat) (f : Ctx → Ctx) : (s.onCtx n f).served = s.served := rfl
@[simp] theorem onCtx_images (s : State) (n : Nat) (f : Ctx → Ctx) : (s.onCtx n f).images = s.images := rfl
@[simp] theorem onCtx_cores (s : State) (n : Nat) (f : Ctx → Ctx) : (s.onCtx n f).cores = s.cores := rfl
@[simp] theorem onCtx_coreCtxs (s : State) (n : Nat) (f : Ctx → Ctx) : (s.onCtx n f).coreCtxs = s.coreCtxs := rfl
@[simp] theorem onCtx_stamps (s : State) (n : Nat) (f : Ctx → Ctx) : (s.onCtx n f).stamps = s.stamps := rfl
@[simp] theorem onCtx_decisions (s : State) (n : Nat) (f : Ctx → Ctx) : (s.onCtx n f).decisions = s.decisions := rfl
@[simp] theorem onCtx_mem (s : State) (n : Nat) (f : Ctx → Ctx) : (s.onCtx n f).mem = s.mem := rfl
@[simp] theorem onCtx_held (s : State) (n : Nat) (f : Ctx → Ctx) : (s.onCtx n f).held = s.held := rfl
@[simp] theorem onCtx_marks (s : State) (n : Nat) (f : Ctx → Ctx) : (s.onCtx n f).marks = s.marks := rfl
@[simp] theorem onCtx_poison (s : State) (n : Nat) (f : Ctx → Ctx) : (s.onCtx n f).poison = s.poison := rfl
@[simp] theorem onCtx_accesses (s : State) (n : Nat) (f : Ctx → Ctx) : (s.onCtx n f).accesses = s.accesses := rfl
@[simp] theorem onCtx_wc (s : State) (n : Nat) (f : Ctx → Ctx) : (s.onCtx n f).wc = s.wc := rfl
@[simp] theorem onCtx_heldOut (s : State) (n : Nat) (f : Ctx → Ctx) : (s.onCtx n f).heldOut = s.heldOut := rfl
@[simp] theorem onCtx_reqs (s : State) (n : Nat) (f : Ctx → Ctx) : (s.onCtx n f).reqs = s.reqs := rfl
@[simp] theorem onCtx_rids (s : State) (n : Nat) (f : Ctx → Ctx) : (s.onCtx n f).rids = s.rids := rfl
@[simp] theorem onCtx_faultq (s : State) (n : Nat) (f : Ctx → Ctx) : (s.onCtx n f).faultq = s.faultq := rfl
@[simp] theorem onCtx_copies (s : State) (n : Nat) (f : Ctx → Ctx) : (s.onCtx n f).copies = s.copies := rfl
@[simp] theorem onCtx_sends (s : State) (n : Nat) (f : Ctx → Ctx) : (s.onCtx n f).sends = s.sends := rfl
@[simp] theorem onCtx_works (s : State) (n : Nat) (f : Ctx → Ctx) : (s.onCtx n f).works = s.works := rfl
@[simp] theorem onCtx_tileops (s : State) (n : Nat) (f : Ctx → Ctx) : (s.onCtx n f).tileops = s.tileops := rfl
@[simp] theorem onCtx_slips (s : State) (n : Nat) (f : Ctx → Ctx) : (s.onCtx n f).slips = s.slips := rfl
@[simp] theorem onCtx_accessions (s : State) (n : Nat) (f : Ctx → Ctx) : (s.onCtx n f).accessions = s.accessions := rfl
@[simp] theorem onCtx_colls (s : State) (n : Nat) (f : Ctx → Ctx) : (s.onCtx n f).colls = s.colls := rfl
@[simp] theorem onCtx_pubs (s : State) (n : Nat) (f : Ctx → Ctx) : (s.onCtx n f).pubs = s.pubs := rfl
@[simp] theorem onCtx_migrations (s : State) (n : Nat) (f : Ctx → Ctx) : (s.onCtx n f).migrations = s.migrations := rfl
@[simp] theorem onCtx_twins (s : State) (n : Nat) (f : Ctx → Ctx) : (s.onCtx n f).twins = s.twins := rfl
@[simp] theorem onCtx_objects (s : State) (n : Nat) (f : Ctx → Ctx) : (s.onCtx n f).objects = s.objects := rfl
@[simp] theorem onCtx_scrubs (s : State) (n : Nat) (f : Ctx → Ctx) : (s.onCtx n f).scrubs = s.scrubs := rfl
@[simp] theorem onCtx_planes (s : State) (n : Nat) (f : Ctx → Ctx) : (s.onCtx n f).planes = s.planes := rfl
@[simp] theorem onCtx_nextPlanes (s : State) (n : Nat) (f : Ctx → Ctx) : (s.onCtx n f).nextPlanes = s.nextPlanes := rfl
@[simp] theorem onCtx_kept (s : State) (n : Nat) (f : Ctx → Ctx) : (s.onCtx n f).kept = s.kept := rfl
@[simp] theorem onCtx_links (s : State) (n : Nat) (f : Ctx → Ctx) : (s.onCtx n f).links = s.links := rfl
@[simp] theorem onCtx_linksDown (s : State) (n : Nat) (f : Ctx → Ctx) : (s.onCtx n f).linksDown = s.linksDown := rfl
@[simp] theorem onCtx_cache (s : State) (n : Nat) (f : Ctx → Ctx) : (s.onCtx n f).cache = s.cache := rfl
@[simp] theorem onCtx_expiry (s : State) (n : Nat) (f : Ctx → Ctx) : (s.onCtx n f).expiry = s.expiry := rfl
@[simp] theorem onCtx_busy (s : State) (n : Nat) (f : Ctx → Ctx) : (s.onCtx n f).busy = s.busy := rfl
@[simp] theorem onCtx_exports (s : State) (n : Nat) (f : Ctx → Ctx) : (s.onCtx n f).exports = s.exports := rfl
@[simp] theorem onCtx_reorder (s : State) (n : Nat) (f : Ctx → Ctx) : (s.onCtx n f).reorder = s.reorder := rfl
@[simp] theorem onCtx_barriers (s : State) (n : Nat) (f : Ctx → Ctx) : (s.onCtx n f).barriers = s.barriers := rfl
@[simp] theorem onCtx_starts (s : State) (n : Nat) (f : Ctx → Ctx) : (s.onCtx n f).starts = s.starts := rfl
@[simp] theorem onCtx_facEnded (s : State) (n : Nat) (f : Ctx → Ctx) : (s.onCtx n f).facEnded = s.facEnded := rfl
@[simp] theorem onCtx_routers (s : State) (n : Nat) (f : Ctx → Ctx) : (s.onCtx n f).routers = s.routers := rfl
@[simp] theorem onCtx_frames (s : State) (n : Nat) (f : Ctx → Ctx) : (s.onCtx n f).frames = s.frames := rfl
@[simp] theorem onCtx_areas (s : State) (n : Nat) (f : Ctx → Ctx) : (s.onCtx n f).areas = s.areas := rfl
@[simp] theorem onCtx_scrubAreas (s : State) (n : Nat) (f : Ctx → Ctx) : (s.onCtx n f).scrubAreas = s.scrubAreas := rfl
@[simp] theorem onCtx_scrubAt (s : State) (n : Nat) (f : Ctx → Ctx) : (s.onCtx n f).scrubAt = s.scrubAt := rfl
@[simp] theorem onCtx_stalls (s : State) (n : Nat) (f : Ctx → Ctx) : (s.onCtx n f).stalls = s.stalls := rfl
@[simp] theorem onCtx_far (s : State) (n : Nat) (f : Ctx → Ctx) : (s.onCtx n f).far = s.far := rfl
@[simp] theorem onCtx_bgbud (s : State) (n : Nat) (f : Ctx → Ctx) : (s.onCtx n f).bgbud = s.bgbud := rfl
@[simp] theorem onCtx_bguse (s : State) (n : Nat) (f : Ctx → Ctx) : (s.onCtx n f).bguse = s.bguse := rfl
@[simp] theorem onCtx_warncfg (s : State) (n : Nat) (f : Ctx → Ctx) : (s.onCtx n f).warncfg = s.warncfg := rfl
@[simp] theorem onCtx_errors (s : State) (n : Nat) (f : Ctx → Ctx) : (s.onCtx n f).errors = s.errors := rfl
@[simp] theorem onCtx_errHist (s : State) (n : Nat) (f : Ctx → Ctx) : (s.onCtx n f).errHist = s.errHist := rfl
@[simp] theorem onCtx_plog (s : State) (n : Nat) (f : Ctx → Ctx) : (s.onCtx n f).plog = s.plog := rfl
@[simp] theorem onCtx_passTime (s : State) (n : Nat) (f : Ctx → Ctx) : (s.onCtx n f).passTime = s.passTime := rfl
@[simp] theorem onCtx_facs (s : State) (n : Nat) (f : Ctx → Ctx) : (s.onCtx n f).facs = s.facs := rfl
@[simp] theorem onCtx_meters (s : State) (n : Nat) (f : Ctx → Ctx) : (s.onCtx n f).meters = s.meters := rfl
@[simp] theorem onCtx_statements (s : State) (n : Nat) (f : Ctx → Ctx) : (s.onCtx n f).statements = s.statements := rfl
@[simp] theorem onCtx_chained (s : State) (n : Nat) (f : Ctx → Ctx) : (s.onCtx n f).chained = s.chained := rfl
@[simp] theorem onCtx_slices (s : State) (n : Nat) (f : Ctx → Ctx) : (s.onCtx n f).slices = s.slices := rfl
@[simp] theorem onCtx_spares (s : State) (n : Nat) (f : Ctx → Ctx) : (s.onCtx n f).spares = s.spares := rfl
@[simp] theorem onCtx_retired (s : State) (n : Nat) (f : Ctx → Ctx) : (s.onCtx n f).retired = s.retired := rfl
@[simp] theorem onCtx_clusterMap (s : State) (n : Nat) (f : Ctx → Ctx) : (s.onCtx n f).clusterMap = s.clusterMap := rfl
@[simp] theorem onCtx_stackMap (s : State) (n : Nat) (f : Ctx → Ctx) : (s.onCtx n f).stackMap = s.stackMap := rfl
@[simp] theorem onCtx_windows (s : State) (n : Nat) (f : Ctx → Ctx) : (s.onCtx n f).windows = s.windows := rfl
@[simp] theorem onCtx_mailboxes (s : State) (n : Nat) (f : Ctx → Ctx) : (s.onCtx n f).mailboxes = s.mailboxes := rfl
@[simp] theorem onCtx_startMode (s : State) (n : Nat) (f : Ctx → Ctx) : (s.onCtx n f).startMode = s.startMode := rfl
@[simp] theorem onCtx_startReason (s : State) (n : Nat) (f : Ctx → Ctx) : (s.onCtx n f).startReason = s.startReason := rfl
@[simp] theorem onCtx_startFails (s : State) (n : Nat) (f : Ctx → Ctx) : (s.onCtx n f).startFails = s.startFails := rfl
@[simp] theorem onCtx_portsDown (s : State) (n : Nat) (f : Ctx → Ctx) : (s.onCtx n f).portsDown = s.portsDown := rfl
@[simp] theorem onCtx_up (s : State) (n : Nat) (f : Ctx → Ctx) : (s.onCtx n f).up = s.up := rfl
@[simp] theorem onCtx_attempting (s : State) (n : Nat) (f : Ctx → Ctx) : (s.onCtx n f).attempting = s.attempting := rfl
@[simp] theorem onCtx_minDie (s : State) (n : Nat) (f : Ctx → Ctx) : (s.onCtx n f).minDie = s.minDie := rfl
@[simp] theorem onCtx_pwrLimit (s : State) (n : Nat) (f : Ctx → Ctx) : (s.onCtx n f).pwrLimit = s.pwrLimit := rfl
@[simp] theorem onCtx_clockStep (s : State) (n : Nat) (f : Ctx → Ctx) : (s.onCtx n f).clockStep = s.clockStep := rfl
@[simp] theorem onCtx_throttled (s : State) (n : Nat) (f : Ctx → Ctx) : (s.onCtx n f).throttled = s.throttled := rfl
@[simp] theorem onCtx_sensors (s : State) (n : Nat) (f : Ctx → Ctx) : (s.onCtx n f).sensors = s.sensors := rfl
@[simp] theorem onCtx_eid (s : State) (n : Nat) (f : Ctx → Ctx) : (s.onCtx n f).eid = s.eid := rfl
@[simp] theorem onCtx_spdm (s : State) (n : Nat) (f : Ctx → Ctx) : (s.onCtx n f).spdm = s.spdm := rfl
@[simp] theorem onCtx_recalls (s : State) (n : Nat) (f : Ctx → Ctx) : (s.onCtx n f).recalls = s.recalls := rfl

@[simp] theorem onQueue_cur (s : State) (n : Nat) (f : Queue → Queue) : (s.onQueue n f).cur = s.cur := rfl
@[simp] theorem onQueue_inbox (s : State) (n : Nat) (f : Queue → Queue) : (s.onQueue n f).inbox = s.inbox := rfl
@[simp] theorem onQueue_due (s : State) (n : Nat) (f : Queue → Queue) : (s.onQueue n f).due = s.due := rfl
@[simp] theorem onQueue_begun (s : State) (n : Nat) (f : Queue → Queue) : (s.onQueue n f).begun = s.begun := rfl
@[simp] theorem onQueue_out (s : State) (n : Nat) (f : Queue → Queue) : (s.onQueue n f).out = s.out := rfl
@[simp] theorem onQueue_nextId (s : State) (n : Nat) (f : Queue → Queue) : (s.onQueue n f).nextId = s.nextId := rfl
@[simp] theorem onQueue_issues (s : State) (n : Nat) (f : Queue → Queue) : (s.onQueue n f).issues = s.issues := rfl
@[simp] theorem onQueue_freeTick (s : State) (n : Nat) (f : Queue → Queue) : (s.onQueue n f).freeTick = s.freeTick := rfl
@[simp] theorem onQueue_part (s : State) (n : Nat) (f : Queue → Queue) : (s.onQueue n f).part = s.part := rfl
@[simp] theorem onQueue_cap (s : State) (n : Nat) (f : Queue → Queue) : (s.onQueue n f).cap = s.cap := rfl
@[simp] theorem onQueue_teams (s : State) (n : Nat) (f : Queue → Queue) : (s.onQueue n f).teams = s.teams := rfl
@[simp] theorem onQueue_launches (s : State) (n : Nat) (f : Queue → Queue) : (s.onQueue n f).launches = s.launches := rfl
@[simp] theorem onQueue_served (s : State) (n : Nat) (f : Queue → Queue) : (s.onQueue n f).served = s.served := rfl
@[simp] theorem onQueue_images (s : State) (n : Nat) (f : Queue → Queue) : (s.onQueue n f).images = s.images := rfl
@[simp] theorem onQueue_ctxs (s : State) (n : Nat) (f : Queue → Queue) : (s.onQueue n f).ctxs = s.ctxs := rfl
@[simp] theorem onQueue_cores (s : State) (n : Nat) (f : Queue → Queue) : (s.onQueue n f).cores = s.cores := rfl
@[simp] theorem onQueue_coreCtxs (s : State) (n : Nat) (f : Queue → Queue) : (s.onQueue n f).coreCtxs = s.coreCtxs := rfl
@[simp] theorem onQueue_stamps (s : State) (n : Nat) (f : Queue → Queue) : (s.onQueue n f).stamps = s.stamps := rfl
@[simp] theorem onQueue_decisions (s : State) (n : Nat) (f : Queue → Queue) : (s.onQueue n f).decisions = s.decisions := rfl
@[simp] theorem onQueue_mem (s : State) (n : Nat) (f : Queue → Queue) : (s.onQueue n f).mem = s.mem := rfl
@[simp] theorem onQueue_held (s : State) (n : Nat) (f : Queue → Queue) : (s.onQueue n f).held = s.held := rfl
@[simp] theorem onQueue_marks (s : State) (n : Nat) (f : Queue → Queue) : (s.onQueue n f).marks = s.marks := rfl
@[simp] theorem onQueue_poison (s : State) (n : Nat) (f : Queue → Queue) : (s.onQueue n f).poison = s.poison := rfl
@[simp] theorem onQueue_accesses (s : State) (n : Nat) (f : Queue → Queue) : (s.onQueue n f).accesses = s.accesses := rfl
@[simp] theorem onQueue_wc (s : State) (n : Nat) (f : Queue → Queue) : (s.onQueue n f).wc = s.wc := rfl
@[simp] theorem onQueue_heldOut (s : State) (n : Nat) (f : Queue → Queue) : (s.onQueue n f).heldOut = s.heldOut := rfl
@[simp] theorem onQueue_reqs (s : State) (n : Nat) (f : Queue → Queue) : (s.onQueue n f).reqs = s.reqs := rfl
@[simp] theorem onQueue_rids (s : State) (n : Nat) (f : Queue → Queue) : (s.onQueue n f).rids = s.rids := rfl
@[simp] theorem onQueue_faultq (s : State) (n : Nat) (f : Queue → Queue) : (s.onQueue n f).faultq = s.faultq := rfl
@[simp] theorem onQueue_copies (s : State) (n : Nat) (f : Queue → Queue) : (s.onQueue n f).copies = s.copies := rfl
@[simp] theorem onQueue_sends (s : State) (n : Nat) (f : Queue → Queue) : (s.onQueue n f).sends = s.sends := rfl
@[simp] theorem onQueue_works (s : State) (n : Nat) (f : Queue → Queue) : (s.onQueue n f).works = s.works := rfl
@[simp] theorem onQueue_tileops (s : State) (n : Nat) (f : Queue → Queue) : (s.onQueue n f).tileops = s.tileops := rfl
@[simp] theorem onQueue_slips (s : State) (n : Nat) (f : Queue → Queue) : (s.onQueue n f).slips = s.slips := rfl
@[simp] theorem onQueue_accessions (s : State) (n : Nat) (f : Queue → Queue) : (s.onQueue n f).accessions = s.accessions := rfl
@[simp] theorem onQueue_colls (s : State) (n : Nat) (f : Queue → Queue) : (s.onQueue n f).colls = s.colls := rfl
@[simp] theorem onQueue_pubs (s : State) (n : Nat) (f : Queue → Queue) : (s.onQueue n f).pubs = s.pubs := rfl
@[simp] theorem onQueue_migrations (s : State) (n : Nat) (f : Queue → Queue) : (s.onQueue n f).migrations = s.migrations := rfl
@[simp] theorem onQueue_twins (s : State) (n : Nat) (f : Queue → Queue) : (s.onQueue n f).twins = s.twins := rfl
@[simp] theorem onQueue_objects (s : State) (n : Nat) (f : Queue → Queue) : (s.onQueue n f).objects = s.objects := rfl
@[simp] theorem onQueue_scrubs (s : State) (n : Nat) (f : Queue → Queue) : (s.onQueue n f).scrubs = s.scrubs := rfl
@[simp] theorem onQueue_planes (s : State) (n : Nat) (f : Queue → Queue) : (s.onQueue n f).planes = s.planes := rfl
@[simp] theorem onQueue_nextPlanes (s : State) (n : Nat) (f : Queue → Queue) : (s.onQueue n f).nextPlanes = s.nextPlanes := rfl
@[simp] theorem onQueue_kept (s : State) (n : Nat) (f : Queue → Queue) : (s.onQueue n f).kept = s.kept := rfl
@[simp] theorem onQueue_links (s : State) (n : Nat) (f : Queue → Queue) : (s.onQueue n f).links = s.links := rfl
@[simp] theorem onQueue_linksDown (s : State) (n : Nat) (f : Queue → Queue) : (s.onQueue n f).linksDown = s.linksDown := rfl
@[simp] theorem onQueue_cache (s : State) (n : Nat) (f : Queue → Queue) : (s.onQueue n f).cache = s.cache := rfl
@[simp] theorem onQueue_expiry (s : State) (n : Nat) (f : Queue → Queue) : (s.onQueue n f).expiry = s.expiry := rfl
@[simp] theorem onQueue_busy (s : State) (n : Nat) (f : Queue → Queue) : (s.onQueue n f).busy = s.busy := rfl
@[simp] theorem onQueue_exports (s : State) (n : Nat) (f : Queue → Queue) : (s.onQueue n f).exports = s.exports := rfl
@[simp] theorem onQueue_reorder (s : State) (n : Nat) (f : Queue → Queue) : (s.onQueue n f).reorder = s.reorder := rfl
@[simp] theorem onQueue_barriers (s : State) (n : Nat) (f : Queue → Queue) : (s.onQueue n f).barriers = s.barriers := rfl
@[simp] theorem onQueue_starts (s : State) (n : Nat) (f : Queue → Queue) : (s.onQueue n f).starts = s.starts := rfl
@[simp] theorem onQueue_facEnded (s : State) (n : Nat) (f : Queue → Queue) : (s.onQueue n f).facEnded = s.facEnded := rfl
@[simp] theorem onQueue_routers (s : State) (n : Nat) (f : Queue → Queue) : (s.onQueue n f).routers = s.routers := rfl
@[simp] theorem onQueue_frames (s : State) (n : Nat) (f : Queue → Queue) : (s.onQueue n f).frames = s.frames := rfl
@[simp] theorem onQueue_areas (s : State) (n : Nat) (f : Queue → Queue) : (s.onQueue n f).areas = s.areas := rfl
@[simp] theorem onQueue_scrubAreas (s : State) (n : Nat) (f : Queue → Queue) : (s.onQueue n f).scrubAreas = s.scrubAreas := rfl
@[simp] theorem onQueue_scrubAt (s : State) (n : Nat) (f : Queue → Queue) : (s.onQueue n f).scrubAt = s.scrubAt := rfl
@[simp] theorem onQueue_stalls (s : State) (n : Nat) (f : Queue → Queue) : (s.onQueue n f).stalls = s.stalls := rfl
@[simp] theorem onQueue_far (s : State) (n : Nat) (f : Queue → Queue) : (s.onQueue n f).far = s.far := rfl
@[simp] theorem onQueue_bgbud (s : State) (n : Nat) (f : Queue → Queue) : (s.onQueue n f).bgbud = s.bgbud := rfl
@[simp] theorem onQueue_bguse (s : State) (n : Nat) (f : Queue → Queue) : (s.onQueue n f).bguse = s.bguse := rfl
@[simp] theorem onQueue_warncfg (s : State) (n : Nat) (f : Queue → Queue) : (s.onQueue n f).warncfg = s.warncfg := rfl
@[simp] theorem onQueue_errors (s : State) (n : Nat) (f : Queue → Queue) : (s.onQueue n f).errors = s.errors := rfl
@[simp] theorem onQueue_errHist (s : State) (n : Nat) (f : Queue → Queue) : (s.onQueue n f).errHist = s.errHist := rfl
@[simp] theorem onQueue_plog (s : State) (n : Nat) (f : Queue → Queue) : (s.onQueue n f).plog = s.plog := rfl
@[simp] theorem onQueue_passTime (s : State) (n : Nat) (f : Queue → Queue) : (s.onQueue n f).passTime = s.passTime := rfl
@[simp] theorem onQueue_facs (s : State) (n : Nat) (f : Queue → Queue) : (s.onQueue n f).facs = s.facs := rfl
@[simp] theorem onQueue_meters (s : State) (n : Nat) (f : Queue → Queue) : (s.onQueue n f).meters = s.meters := rfl
@[simp] theorem onQueue_statements (s : State) (n : Nat) (f : Queue → Queue) : (s.onQueue n f).statements = s.statements := rfl
@[simp] theorem onQueue_chained (s : State) (n : Nat) (f : Queue → Queue) : (s.onQueue n f).chained = s.chained := rfl
@[simp] theorem onQueue_slices (s : State) (n : Nat) (f : Queue → Queue) : (s.onQueue n f).slices = s.slices := rfl
@[simp] theorem onQueue_spares (s : State) (n : Nat) (f : Queue → Queue) : (s.onQueue n f).spares = s.spares := rfl
@[simp] theorem onQueue_retired (s : State) (n : Nat) (f : Queue → Queue) : (s.onQueue n f).retired = s.retired := rfl
@[simp] theorem onQueue_clusterMap (s : State) (n : Nat) (f : Queue → Queue) : (s.onQueue n f).clusterMap = s.clusterMap := rfl
@[simp] theorem onQueue_stackMap (s : State) (n : Nat) (f : Queue → Queue) : (s.onQueue n f).stackMap = s.stackMap := rfl
@[simp] theorem onQueue_windows (s : State) (n : Nat) (f : Queue → Queue) : (s.onQueue n f).windows = s.windows := rfl
@[simp] theorem onQueue_mailboxes (s : State) (n : Nat) (f : Queue → Queue) : (s.onQueue n f).mailboxes = s.mailboxes := rfl
@[simp] theorem onQueue_startMode (s : State) (n : Nat) (f : Queue → Queue) : (s.onQueue n f).startMode = s.startMode := rfl
@[simp] theorem onQueue_startReason (s : State) (n : Nat) (f : Queue → Queue) : (s.onQueue n f).startReason = s.startReason := rfl
@[simp] theorem onQueue_startFails (s : State) (n : Nat) (f : Queue → Queue) : (s.onQueue n f).startFails = s.startFails := rfl
@[simp] theorem onQueue_portsDown (s : State) (n : Nat) (f : Queue → Queue) : (s.onQueue n f).portsDown = s.portsDown := rfl
@[simp] theorem onQueue_up (s : State) (n : Nat) (f : Queue → Queue) : (s.onQueue n f).up = s.up := rfl
@[simp] theorem onQueue_attempting (s : State) (n : Nat) (f : Queue → Queue) : (s.onQueue n f).attempting = s.attempting := rfl
@[simp] theorem onQueue_minDie (s : State) (n : Nat) (f : Queue → Queue) : (s.onQueue n f).minDie = s.minDie := rfl
@[simp] theorem onQueue_pwrLimit (s : State) (n : Nat) (f : Queue → Queue) : (s.onQueue n f).pwrLimit = s.pwrLimit := rfl
@[simp] theorem onQueue_clockStep (s : State) (n : Nat) (f : Queue → Queue) : (s.onQueue n f).clockStep = s.clockStep := rfl
@[simp] theorem onQueue_throttled (s : State) (n : Nat) (f : Queue → Queue) : (s.onQueue n f).throttled = s.throttled := rfl
@[simp] theorem onQueue_sensors (s : State) (n : Nat) (f : Queue → Queue) : (s.onQueue n f).sensors = s.sensors := rfl
@[simp] theorem onQueue_eid (s : State) (n : Nat) (f : Queue → Queue) : (s.onQueue n f).eid = s.eid := rfl
@[simp] theorem onQueue_spdm (s : State) (n : Nat) (f : Queue → Queue) : (s.onQueue n f).spdm = s.spdm := rfl
@[simp] theorem onQueue_recalls (s : State) (n : Nat) (f : Queue → Queue) : (s.onQueue n f).recalls = s.recalls := rfl

@[simp] theorem onCore_cur (s : State) (c : Nat) (f : CoreSt → CoreSt) : (s.onCore c f).cur = s.cur := by unfold State.onCore; split <;> rfl
@[simp] theorem onCore_inbox (s : State) (c : Nat) (f : CoreSt → CoreSt) : (s.onCore c f).inbox = s.inbox := by unfold State.onCore; split <;> rfl
@[simp] theorem onCore_due (s : State) (c : Nat) (f : CoreSt → CoreSt) : (s.onCore c f).due = s.due := by unfold State.onCore; split <;> rfl
@[simp] theorem onCore_begun (s : State) (c : Nat) (f : CoreSt → CoreSt) : (s.onCore c f).begun = s.begun := by unfold State.onCore; split <;> rfl
@[simp] theorem onCore_out (s : State) (c : Nat) (f : CoreSt → CoreSt) : (s.onCore c f).out = s.out := by unfold State.onCore; split <;> rfl
@[simp] theorem onCore_nextId (s : State) (c : Nat) (f : CoreSt → CoreSt) : (s.onCore c f).nextId = s.nextId := by unfold State.onCore; split <;> rfl
@[simp] theorem onCore_issues (s : State) (c : Nat) (f : CoreSt → CoreSt) : (s.onCore c f).issues = s.issues := by unfold State.onCore; split <;> rfl
@[simp] theorem onCore_freeTick (s : State) (c : Nat) (f : CoreSt → CoreSt) : (s.onCore c f).freeTick = s.freeTick := by unfold State.onCore; split <;> rfl
@[simp] theorem onCore_part (s : State) (c : Nat) (f : CoreSt → CoreSt) : (s.onCore c f).part = s.part := by unfold State.onCore; split <;> rfl
@[simp] theorem onCore_cap (s : State) (c : Nat) (f : CoreSt → CoreSt) : (s.onCore c f).cap = s.cap := by unfold State.onCore; split <;> rfl
@[simp] theorem onCore_teams (s : State) (c : Nat) (f : CoreSt → CoreSt) : (s.onCore c f).teams = s.teams := by unfold State.onCore; split <;> rfl
@[simp] theorem onCore_launches (s : State) (c : Nat) (f : CoreSt → CoreSt) : (s.onCore c f).launches = s.launches := by unfold State.onCore; split <;> rfl
@[simp] theorem onCore_queues (s : State) (c : Nat) (f : CoreSt → CoreSt) : (s.onCore c f).queues = s.queues := by unfold State.onCore; split <;> rfl
@[simp] theorem onCore_served (s : State) (c : Nat) (f : CoreSt → CoreSt) : (s.onCore c f).served = s.served := by unfold State.onCore; split <;> rfl
@[simp] theorem onCore_images (s : State) (c : Nat) (f : CoreSt → CoreSt) : (s.onCore c f).images = s.images := by unfold State.onCore; split <;> rfl
@[simp] theorem onCore_ctxs (s : State) (c : Nat) (f : CoreSt → CoreSt) : (s.onCore c f).ctxs = s.ctxs := by unfold State.onCore; split <;> rfl
@[simp] theorem onCore_coreCtxs (s : State) (c : Nat) (f : CoreSt → CoreSt) : (s.onCore c f).coreCtxs = s.coreCtxs := by unfold State.onCore; split <;> rfl
@[simp] theorem onCore_stamps (s : State) (c : Nat) (f : CoreSt → CoreSt) : (s.onCore c f).stamps = s.stamps := by unfold State.onCore; split <;> rfl
@[simp] theorem onCore_decisions (s : State) (c : Nat) (f : CoreSt → CoreSt) : (s.onCore c f).decisions = s.decisions := by unfold State.onCore; split <;> rfl
@[simp] theorem onCore_mem (s : State) (c : Nat) (f : CoreSt → CoreSt) : (s.onCore c f).mem = s.mem := by unfold State.onCore; split <;> rfl
@[simp] theorem onCore_held (s : State) (c : Nat) (f : CoreSt → CoreSt) : (s.onCore c f).held = s.held := by unfold State.onCore; split <;> rfl
@[simp] theorem onCore_marks (s : State) (c : Nat) (f : CoreSt → CoreSt) : (s.onCore c f).marks = s.marks := by unfold State.onCore; split <;> rfl
@[simp] theorem onCore_poison (s : State) (c : Nat) (f : CoreSt → CoreSt) : (s.onCore c f).poison = s.poison := by unfold State.onCore; split <;> rfl
@[simp] theorem onCore_accesses (s : State) (c : Nat) (f : CoreSt → CoreSt) : (s.onCore c f).accesses = s.accesses := by unfold State.onCore; split <;> rfl
@[simp] theorem onCore_wc (s : State) (c : Nat) (f : CoreSt → CoreSt) : (s.onCore c f).wc = s.wc := by unfold State.onCore; split <;> rfl
@[simp] theorem onCore_heldOut (s : State) (c : Nat) (f : CoreSt → CoreSt) : (s.onCore c f).heldOut = s.heldOut := by unfold State.onCore; split <;> rfl
@[simp] theorem onCore_reqs (s : State) (c : Nat) (f : CoreSt → CoreSt) : (s.onCore c f).reqs = s.reqs := by unfold State.onCore; split <;> rfl
@[simp] theorem onCore_rids (s : State) (c : Nat) (f : CoreSt → CoreSt) : (s.onCore c f).rids = s.rids := by unfold State.onCore; split <;> rfl
@[simp] theorem onCore_faultq (s : State) (c : Nat) (f : CoreSt → CoreSt) : (s.onCore c f).faultq = s.faultq := by unfold State.onCore; split <;> rfl
@[simp] theorem onCore_copies (s : State) (c : Nat) (f : CoreSt → CoreSt) : (s.onCore c f).copies = s.copies := by unfold State.onCore; split <;> rfl
@[simp] theorem onCore_sends (s : State) (c : Nat) (f : CoreSt → CoreSt) : (s.onCore c f).sends = s.sends := by unfold State.onCore; split <;> rfl
@[simp] theorem onCore_works (s : State) (c : Nat) (f : CoreSt → CoreSt) : (s.onCore c f).works = s.works := by unfold State.onCore; split <;> rfl
@[simp] theorem onCore_tileops (s : State) (c : Nat) (f : CoreSt → CoreSt) : (s.onCore c f).tileops = s.tileops := by unfold State.onCore; split <;> rfl
@[simp] theorem onCore_slips (s : State) (c : Nat) (f : CoreSt → CoreSt) : (s.onCore c f).slips = s.slips := by unfold State.onCore; split <;> rfl
@[simp] theorem onCore_accessions (s : State) (c : Nat) (f : CoreSt → CoreSt) : (s.onCore c f).accessions = s.accessions := by unfold State.onCore; split <;> rfl
@[simp] theorem onCore_colls (s : State) (c : Nat) (f : CoreSt → CoreSt) : (s.onCore c f).colls = s.colls := by unfold State.onCore; split <;> rfl
@[simp] theorem onCore_pubs (s : State) (c : Nat) (f : CoreSt → CoreSt) : (s.onCore c f).pubs = s.pubs := by unfold State.onCore; split <;> rfl
@[simp] theorem onCore_migrations (s : State) (c : Nat) (f : CoreSt → CoreSt) : (s.onCore c f).migrations = s.migrations := by unfold State.onCore; split <;> rfl
@[simp] theorem onCore_twins (s : State) (c : Nat) (f : CoreSt → CoreSt) : (s.onCore c f).twins = s.twins := by unfold State.onCore; split <;> rfl
@[simp] theorem onCore_objects (s : State) (c : Nat) (f : CoreSt → CoreSt) : (s.onCore c f).objects = s.objects := by unfold State.onCore; split <;> rfl
@[simp] theorem onCore_scrubs (s : State) (c : Nat) (f : CoreSt → CoreSt) : (s.onCore c f).scrubs = s.scrubs := by unfold State.onCore; split <;> rfl
@[simp] theorem onCore_planes (s : State) (c : Nat) (f : CoreSt → CoreSt) : (s.onCore c f).planes = s.planes := by unfold State.onCore; split <;> rfl
@[simp] theorem onCore_nextPlanes (s : State) (c : Nat) (f : CoreSt → CoreSt) : (s.onCore c f).nextPlanes = s.nextPlanes := by unfold State.onCore; split <;> rfl
@[simp] theorem onCore_kept (s : State) (c : Nat) (f : CoreSt → CoreSt) : (s.onCore c f).kept = s.kept := by unfold State.onCore; split <;> rfl
@[simp] theorem onCore_links (s : State) (c : Nat) (f : CoreSt → CoreSt) : (s.onCore c f).links = s.links := by unfold State.onCore; split <;> rfl
@[simp] theorem onCore_linksDown (s : State) (c : Nat) (f : CoreSt → CoreSt) : (s.onCore c f).linksDown = s.linksDown := by unfold State.onCore; split <;> rfl
@[simp] theorem onCore_cache (s : State) (c : Nat) (f : CoreSt → CoreSt) : (s.onCore c f).cache = s.cache := by unfold State.onCore; split <;> rfl
@[simp] theorem onCore_expiry (s : State) (c : Nat) (f : CoreSt → CoreSt) : (s.onCore c f).expiry = s.expiry := by unfold State.onCore; split <;> rfl
@[simp] theorem onCore_busy (s : State) (c : Nat) (f : CoreSt → CoreSt) : (s.onCore c f).busy = s.busy := by unfold State.onCore; split <;> rfl
@[simp] theorem onCore_exports (s : State) (c : Nat) (f : CoreSt → CoreSt) : (s.onCore c f).exports = s.exports := by unfold State.onCore; split <;> rfl
@[simp] theorem onCore_reorder (s : State) (c : Nat) (f : CoreSt → CoreSt) : (s.onCore c f).reorder = s.reorder := by unfold State.onCore; split <;> rfl
@[simp] theorem onCore_barriers (s : State) (c : Nat) (f : CoreSt → CoreSt) : (s.onCore c f).barriers = s.barriers := by unfold State.onCore; split <;> rfl
@[simp] theorem onCore_starts (s : State) (c : Nat) (f : CoreSt → CoreSt) : (s.onCore c f).starts = s.starts := by unfold State.onCore; split <;> rfl
@[simp] theorem onCore_facEnded (s : State) (c : Nat) (f : CoreSt → CoreSt) : (s.onCore c f).facEnded = s.facEnded := by unfold State.onCore; split <;> rfl
@[simp] theorem onCore_routers (s : State) (c : Nat) (f : CoreSt → CoreSt) : (s.onCore c f).routers = s.routers := by unfold State.onCore; split <;> rfl
@[simp] theorem onCore_frames (s : State) (c : Nat) (f : CoreSt → CoreSt) : (s.onCore c f).frames = s.frames := by unfold State.onCore; split <;> rfl
@[simp] theorem onCore_areas (s : State) (c : Nat) (f : CoreSt → CoreSt) : (s.onCore c f).areas = s.areas := by unfold State.onCore; split <;> rfl
@[simp] theorem onCore_scrubAreas (s : State) (c : Nat) (f : CoreSt → CoreSt) : (s.onCore c f).scrubAreas = s.scrubAreas := by unfold State.onCore; split <;> rfl
@[simp] theorem onCore_scrubAt (s : State) (c : Nat) (f : CoreSt → CoreSt) : (s.onCore c f).scrubAt = s.scrubAt := by unfold State.onCore; split <;> rfl
@[simp] theorem onCore_stalls (s : State) (c : Nat) (f : CoreSt → CoreSt) : (s.onCore c f).stalls = s.stalls := by unfold State.onCore; split <;> rfl
@[simp] theorem onCore_far (s : State) (c : Nat) (f : CoreSt → CoreSt) : (s.onCore c f).far = s.far := by unfold State.onCore; split <;> rfl
@[simp] theorem onCore_bgbud (s : State) (c : Nat) (f : CoreSt → CoreSt) : (s.onCore c f).bgbud = s.bgbud := by unfold State.onCore; split <;> rfl
@[simp] theorem onCore_bguse (s : State) (c : Nat) (f : CoreSt → CoreSt) : (s.onCore c f).bguse = s.bguse := by unfold State.onCore; split <;> rfl
@[simp] theorem onCore_warncfg (s : State) (c : Nat) (f : CoreSt → CoreSt) : (s.onCore c f).warncfg = s.warncfg := by unfold State.onCore; split <;> rfl
@[simp] theorem onCore_errors (s : State) (c : Nat) (f : CoreSt → CoreSt) : (s.onCore c f).errors = s.errors := by unfold State.onCore; split <;> rfl
@[simp] theorem onCore_errHist (s : State) (c : Nat) (f : CoreSt → CoreSt) : (s.onCore c f).errHist = s.errHist := by unfold State.onCore; split <;> rfl
@[simp] theorem onCore_plog (s : State) (c : Nat) (f : CoreSt → CoreSt) : (s.onCore c f).plog = s.plog := by unfold State.onCore; split <;> rfl
@[simp] theorem onCore_passTime (s : State) (c : Nat) (f : CoreSt → CoreSt) : (s.onCore c f).passTime = s.passTime := by unfold State.onCore; split <;> rfl
@[simp] theorem onCore_facs (s : State) (c : Nat) (f : CoreSt → CoreSt) : (s.onCore c f).facs = s.facs := by unfold State.onCore; split <;> rfl
@[simp] theorem onCore_meters (s : State) (c : Nat) (f : CoreSt → CoreSt) : (s.onCore c f).meters = s.meters := by unfold State.onCore; split <;> rfl
@[simp] theorem onCore_statements (s : State) (c : Nat) (f : CoreSt → CoreSt) : (s.onCore c f).statements = s.statements := by unfold State.onCore; split <;> rfl
@[simp] theorem onCore_chained (s : State) (c : Nat) (f : CoreSt → CoreSt) : (s.onCore c f).chained = s.chained := by unfold State.onCore; split <;> rfl
@[simp] theorem onCore_slices (s : State) (c : Nat) (f : CoreSt → CoreSt) : (s.onCore c f).slices = s.slices := by unfold State.onCore; split <;> rfl
@[simp] theorem onCore_spares (s : State) (c : Nat) (f : CoreSt → CoreSt) : (s.onCore c f).spares = s.spares := by unfold State.onCore; split <;> rfl
@[simp] theorem onCore_retired (s : State) (c : Nat) (f : CoreSt → CoreSt) : (s.onCore c f).retired = s.retired := by unfold State.onCore; split <;> rfl
@[simp] theorem onCore_clusterMap (s : State) (c : Nat) (f : CoreSt → CoreSt) : (s.onCore c f).clusterMap = s.clusterMap := by unfold State.onCore; split <;> rfl
@[simp] theorem onCore_stackMap (s : State) (c : Nat) (f : CoreSt → CoreSt) : (s.onCore c f).stackMap = s.stackMap := by unfold State.onCore; split <;> rfl
@[simp] theorem onCore_windows (s : State) (c : Nat) (f : CoreSt → CoreSt) : (s.onCore c f).windows = s.windows := by unfold State.onCore; split <;> rfl
@[simp] theorem onCore_mailboxes (s : State) (c : Nat) (f : CoreSt → CoreSt) : (s.onCore c f).mailboxes = s.mailboxes := by unfold State.onCore; split <;> rfl
@[simp] theorem onCore_startMode (s : State) (c : Nat) (f : CoreSt → CoreSt) : (s.onCore c f).startMode = s.startMode := by unfold State.onCore; split <;> rfl
@[simp] theorem onCore_startReason (s : State) (c : Nat) (f : CoreSt → CoreSt) : (s.onCore c f).startReason = s.startReason := by unfold State.onCore; split <;> rfl
@[simp] theorem onCore_startFails (s : State) (c : Nat) (f : CoreSt → CoreSt) : (s.onCore c f).startFails = s.startFails := by unfold State.onCore; split <;> rfl
@[simp] theorem onCore_portsDown (s : State) (c : Nat) (f : CoreSt → CoreSt) : (s.onCore c f).portsDown = s.portsDown := by unfold State.onCore; split <;> rfl
@[simp] theorem onCore_up (s : State) (c : Nat) (f : CoreSt → CoreSt) : (s.onCore c f).up = s.up := by unfold State.onCore; split <;> rfl
@[simp] theorem onCore_attempting (s : State) (c : Nat) (f : CoreSt → CoreSt) : (s.onCore c f).attempting = s.attempting := by unfold State.onCore; split <;> rfl
@[simp] theorem onCore_minDie (s : State) (c : Nat) (f : CoreSt → CoreSt) : (s.onCore c f).minDie = s.minDie := by unfold State.onCore; split <;> rfl
@[simp] theorem onCore_pwrLimit (s : State) (c : Nat) (f : CoreSt → CoreSt) : (s.onCore c f).pwrLimit = s.pwrLimit := by unfold State.onCore; split <;> rfl
@[simp] theorem onCore_clockStep (s : State) (c : Nat) (f : CoreSt → CoreSt) : (s.onCore c f).clockStep = s.clockStep := by unfold State.onCore; split <;> rfl
@[simp] theorem onCore_throttled (s : State) (c : Nat) (f : CoreSt → CoreSt) : (s.onCore c f).throttled = s.throttled := by unfold State.onCore; split <;> rfl
@[simp] theorem onCore_sensors (s : State) (c : Nat) (f : CoreSt → CoreSt) : (s.onCore c f).sensors = s.sensors := by unfold State.onCore; split <;> rfl
@[simp] theorem onCore_eid (s : State) (c : Nat) (f : CoreSt → CoreSt) : (s.onCore c f).eid = s.eid := by unfold State.onCore; split <;> rfl
@[simp] theorem onCore_spdm (s : State) (c : Nat) (f : CoreSt → CoreSt) : (s.onCore c f).spdm = s.spdm := by unfold State.onCore; split <;> rfl
@[simp] theorem onCore_recalls (s : State) (c : Nat) (f : CoreSt → CoreSt) : (s.onCore c f).recalls = s.recalls := by unfold State.onCore; split <;> rfl

@[simp] theorem onCoreCtx_cur (s : State) (c x : Nat) (f : CoreCtx → CoreCtx) : (s.onCoreCtx c x f).cur = s.cur := by unfold State.onCoreCtx; split <;> rfl
@[simp] theorem onCoreCtx_inbox (s : State) (c x : Nat) (f : CoreCtx → CoreCtx) : (s.onCoreCtx c x f).inbox = s.inbox := by unfold State.onCoreCtx; split <;> rfl
@[simp] theorem onCoreCtx_due (s : State) (c x : Nat) (f : CoreCtx → CoreCtx) : (s.onCoreCtx c x f).due = s.due := by unfold State.onCoreCtx; split <;> rfl
@[simp] theorem onCoreCtx_begun (s : State) (c x : Nat) (f : CoreCtx → CoreCtx) : (s.onCoreCtx c x f).begun = s.begun := by unfold State.onCoreCtx; split <;> rfl
@[simp] theorem onCoreCtx_out (s : State) (c x : Nat) (f : CoreCtx → CoreCtx) : (s.onCoreCtx c x f).out = s.out := by unfold State.onCoreCtx; split <;> rfl
@[simp] theorem onCoreCtx_nextId (s : State) (c x : Nat) (f : CoreCtx → CoreCtx) : (s.onCoreCtx c x f).nextId = s.nextId := by unfold State.onCoreCtx; split <;> rfl
@[simp] theorem onCoreCtx_issues (s : State) (c x : Nat) (f : CoreCtx → CoreCtx) : (s.onCoreCtx c x f).issues = s.issues := by unfold State.onCoreCtx; split <;> rfl
@[simp] theorem onCoreCtx_freeTick (s : State) (c x : Nat) (f : CoreCtx → CoreCtx) : (s.onCoreCtx c x f).freeTick = s.freeTick := by unfold State.onCoreCtx; split <;> rfl
@[simp] theorem onCoreCtx_part (s : State) (c x : Nat) (f : CoreCtx → CoreCtx) : (s.onCoreCtx c x f).part = s.part := by unfold State.onCoreCtx; split <;> rfl
@[simp] theorem onCoreCtx_cap (s : State) (c x : Nat) (f : CoreCtx → CoreCtx) : (s.onCoreCtx c x f).cap = s.cap := by unfold State.onCoreCtx; split <;> rfl
@[simp] theorem onCoreCtx_teams (s : State) (c x : Nat) (f : CoreCtx → CoreCtx) : (s.onCoreCtx c x f).teams = s.teams := by unfold State.onCoreCtx; split <;> rfl
@[simp] theorem onCoreCtx_launches (s : State) (c x : Nat) (f : CoreCtx → CoreCtx) : (s.onCoreCtx c x f).launches = s.launches := by unfold State.onCoreCtx; split <;> rfl
@[simp] theorem onCoreCtx_queues (s : State) (c x : Nat) (f : CoreCtx → CoreCtx) : (s.onCoreCtx c x f).queues = s.queues := by unfold State.onCoreCtx; split <;> rfl
@[simp] theorem onCoreCtx_served (s : State) (c x : Nat) (f : CoreCtx → CoreCtx) : (s.onCoreCtx c x f).served = s.served := by unfold State.onCoreCtx; split <;> rfl
@[simp] theorem onCoreCtx_images (s : State) (c x : Nat) (f : CoreCtx → CoreCtx) : (s.onCoreCtx c x f).images = s.images := by unfold State.onCoreCtx; split <;> rfl
@[simp] theorem onCoreCtx_ctxs (s : State) (c x : Nat) (f : CoreCtx → CoreCtx) : (s.onCoreCtx c x f).ctxs = s.ctxs := by unfold State.onCoreCtx; split <;> rfl
@[simp] theorem onCoreCtx_cores (s : State) (c x : Nat) (f : CoreCtx → CoreCtx) : (s.onCoreCtx c x f).cores = s.cores := by unfold State.onCoreCtx; split <;> rfl
@[simp] theorem onCoreCtx_stamps (s : State) (c x : Nat) (f : CoreCtx → CoreCtx) : (s.onCoreCtx c x f).stamps = s.stamps := by unfold State.onCoreCtx; split <;> rfl
@[simp] theorem onCoreCtx_decisions (s : State) (c x : Nat) (f : CoreCtx → CoreCtx) : (s.onCoreCtx c x f).decisions = s.decisions := by unfold State.onCoreCtx; split <;> rfl
@[simp] theorem onCoreCtx_mem (s : State) (c x : Nat) (f : CoreCtx → CoreCtx) : (s.onCoreCtx c x f).mem = s.mem := by unfold State.onCoreCtx; split <;> rfl
@[simp] theorem onCoreCtx_held (s : State) (c x : Nat) (f : CoreCtx → CoreCtx) : (s.onCoreCtx c x f).held = s.held := by unfold State.onCoreCtx; split <;> rfl
@[simp] theorem onCoreCtx_marks (s : State) (c x : Nat) (f : CoreCtx → CoreCtx) : (s.onCoreCtx c x f).marks = s.marks := by unfold State.onCoreCtx; split <;> rfl
@[simp] theorem onCoreCtx_poison (s : State) (c x : Nat) (f : CoreCtx → CoreCtx) : (s.onCoreCtx c x f).poison = s.poison := by unfold State.onCoreCtx; split <;> rfl
@[simp] theorem onCoreCtx_accesses (s : State) (c x : Nat) (f : CoreCtx → CoreCtx) : (s.onCoreCtx c x f).accesses = s.accesses := by unfold State.onCoreCtx; split <;> rfl
@[simp] theorem onCoreCtx_wc (s : State) (c x : Nat) (f : CoreCtx → CoreCtx) : (s.onCoreCtx c x f).wc = s.wc := by unfold State.onCoreCtx; split <;> rfl
@[simp] theorem onCoreCtx_heldOut (s : State) (c x : Nat) (f : CoreCtx → CoreCtx) : (s.onCoreCtx c x f).heldOut = s.heldOut := by unfold State.onCoreCtx; split <;> rfl
@[simp] theorem onCoreCtx_reqs (s : State) (c x : Nat) (f : CoreCtx → CoreCtx) : (s.onCoreCtx c x f).reqs = s.reqs := by unfold State.onCoreCtx; split <;> rfl
@[simp] theorem onCoreCtx_rids (s : State) (c x : Nat) (f : CoreCtx → CoreCtx) : (s.onCoreCtx c x f).rids = s.rids := by unfold State.onCoreCtx; split <;> rfl
@[simp] theorem onCoreCtx_faultq (s : State) (c x : Nat) (f : CoreCtx → CoreCtx) : (s.onCoreCtx c x f).faultq = s.faultq := by unfold State.onCoreCtx; split <;> rfl
@[simp] theorem onCoreCtx_copies (s : State) (c x : Nat) (f : CoreCtx → CoreCtx) : (s.onCoreCtx c x f).copies = s.copies := by unfold State.onCoreCtx; split <;> rfl
@[simp] theorem onCoreCtx_sends (s : State) (c x : Nat) (f : CoreCtx → CoreCtx) : (s.onCoreCtx c x f).sends = s.sends := by unfold State.onCoreCtx; split <;> rfl
@[simp] theorem onCoreCtx_works (s : State) (c x : Nat) (f : CoreCtx → CoreCtx) : (s.onCoreCtx c x f).works = s.works := by unfold State.onCoreCtx; split <;> rfl
@[simp] theorem onCoreCtx_tileops (s : State) (c x : Nat) (f : CoreCtx → CoreCtx) : (s.onCoreCtx c x f).tileops = s.tileops := by unfold State.onCoreCtx; split <;> rfl
@[simp] theorem onCoreCtx_slips (s : State) (c x : Nat) (f : CoreCtx → CoreCtx) : (s.onCoreCtx c x f).slips = s.slips := by unfold State.onCoreCtx; split <;> rfl
@[simp] theorem onCoreCtx_accessions (s : State) (c x : Nat) (f : CoreCtx → CoreCtx) : (s.onCoreCtx c x f).accessions = s.accessions := by unfold State.onCoreCtx; split <;> rfl
@[simp] theorem onCoreCtx_colls (s : State) (c x : Nat) (f : CoreCtx → CoreCtx) : (s.onCoreCtx c x f).colls = s.colls := by unfold State.onCoreCtx; split <;> rfl
@[simp] theorem onCoreCtx_pubs (s : State) (c x : Nat) (f : CoreCtx → CoreCtx) : (s.onCoreCtx c x f).pubs = s.pubs := by unfold State.onCoreCtx; split <;> rfl
@[simp] theorem onCoreCtx_migrations (s : State) (c x : Nat) (f : CoreCtx → CoreCtx) : (s.onCoreCtx c x f).migrations = s.migrations := by unfold State.onCoreCtx; split <;> rfl
@[simp] theorem onCoreCtx_twins (s : State) (c x : Nat) (f : CoreCtx → CoreCtx) : (s.onCoreCtx c x f).twins = s.twins := by unfold State.onCoreCtx; split <;> rfl
@[simp] theorem onCoreCtx_objects (s : State) (c x : Nat) (f : CoreCtx → CoreCtx) : (s.onCoreCtx c x f).objects = s.objects := by unfold State.onCoreCtx; split <;> rfl
@[simp] theorem onCoreCtx_scrubs (s : State) (c x : Nat) (f : CoreCtx → CoreCtx) : (s.onCoreCtx c x f).scrubs = s.scrubs := by unfold State.onCoreCtx; split <;> rfl
@[simp] theorem onCoreCtx_planes (s : State) (c x : Nat) (f : CoreCtx → CoreCtx) : (s.onCoreCtx c x f).planes = s.planes := by unfold State.onCoreCtx; split <;> rfl
@[simp] theorem onCoreCtx_nextPlanes (s : State) (c x : Nat) (f : CoreCtx → CoreCtx) : (s.onCoreCtx c x f).nextPlanes = s.nextPlanes := by unfold State.onCoreCtx; split <;> rfl
@[simp] theorem onCoreCtx_kept (s : State) (c x : Nat) (f : CoreCtx → CoreCtx) : (s.onCoreCtx c x f).kept = s.kept := by unfold State.onCoreCtx; split <;> rfl
@[simp] theorem onCoreCtx_links (s : State) (c x : Nat) (f : CoreCtx → CoreCtx) : (s.onCoreCtx c x f).links = s.links := by unfold State.onCoreCtx; split <;> rfl
@[simp] theorem onCoreCtx_linksDown (s : State) (c x : Nat) (f : CoreCtx → CoreCtx) : (s.onCoreCtx c x f).linksDown = s.linksDown := by unfold State.onCoreCtx; split <;> rfl
@[simp] theorem onCoreCtx_cache (s : State) (c x : Nat) (f : CoreCtx → CoreCtx) : (s.onCoreCtx c x f).cache = s.cache := by unfold State.onCoreCtx; split <;> rfl
@[simp] theorem onCoreCtx_expiry (s : State) (c x : Nat) (f : CoreCtx → CoreCtx) : (s.onCoreCtx c x f).expiry = s.expiry := by unfold State.onCoreCtx; split <;> rfl
@[simp] theorem onCoreCtx_busy (s : State) (c x : Nat) (f : CoreCtx → CoreCtx) : (s.onCoreCtx c x f).busy = s.busy := by unfold State.onCoreCtx; split <;> rfl
@[simp] theorem onCoreCtx_exports (s : State) (c x : Nat) (f : CoreCtx → CoreCtx) : (s.onCoreCtx c x f).exports = s.exports := by unfold State.onCoreCtx; split <;> rfl
@[simp] theorem onCoreCtx_reorder (s : State) (c x : Nat) (f : CoreCtx → CoreCtx) : (s.onCoreCtx c x f).reorder = s.reorder := by unfold State.onCoreCtx; split <;> rfl
@[simp] theorem onCoreCtx_barriers (s : State) (c x : Nat) (f : CoreCtx → CoreCtx) : (s.onCoreCtx c x f).barriers = s.barriers := by unfold State.onCoreCtx; split <;> rfl
@[simp] theorem onCoreCtx_starts (s : State) (c x : Nat) (f : CoreCtx → CoreCtx) : (s.onCoreCtx c x f).starts = s.starts := by unfold State.onCoreCtx; split <;> rfl
@[simp] theorem onCoreCtx_facEnded (s : State) (c x : Nat) (f : CoreCtx → CoreCtx) : (s.onCoreCtx c x f).facEnded = s.facEnded := by unfold State.onCoreCtx; split <;> rfl
@[simp] theorem onCoreCtx_routers (s : State) (c x : Nat) (f : CoreCtx → CoreCtx) : (s.onCoreCtx c x f).routers = s.routers := by unfold State.onCoreCtx; split <;> rfl
@[simp] theorem onCoreCtx_frames (s : State) (c x : Nat) (f : CoreCtx → CoreCtx) : (s.onCoreCtx c x f).frames = s.frames := by unfold State.onCoreCtx; split <;> rfl
@[simp] theorem onCoreCtx_areas (s : State) (c x : Nat) (f : CoreCtx → CoreCtx) : (s.onCoreCtx c x f).areas = s.areas := by unfold State.onCoreCtx; split <;> rfl
@[simp] theorem onCoreCtx_scrubAreas (s : State) (c x : Nat) (f : CoreCtx → CoreCtx) : (s.onCoreCtx c x f).scrubAreas = s.scrubAreas := by unfold State.onCoreCtx; split <;> rfl
@[simp] theorem onCoreCtx_scrubAt (s : State) (c x : Nat) (f : CoreCtx → CoreCtx) : (s.onCoreCtx c x f).scrubAt = s.scrubAt := by unfold State.onCoreCtx; split <;> rfl
@[simp] theorem onCoreCtx_stalls (s : State) (c x : Nat) (f : CoreCtx → CoreCtx) : (s.onCoreCtx c x f).stalls = s.stalls := by unfold State.onCoreCtx; split <;> rfl
@[simp] theorem onCoreCtx_far (s : State) (c x : Nat) (f : CoreCtx → CoreCtx) : (s.onCoreCtx c x f).far = s.far := by unfold State.onCoreCtx; split <;> rfl
@[simp] theorem onCoreCtx_bgbud (s : State) (c x : Nat) (f : CoreCtx → CoreCtx) : (s.onCoreCtx c x f).bgbud = s.bgbud := by unfold State.onCoreCtx; split <;> rfl
@[simp] theorem onCoreCtx_bguse (s : State) (c x : Nat) (f : CoreCtx → CoreCtx) : (s.onCoreCtx c x f).bguse = s.bguse := by unfold State.onCoreCtx; split <;> rfl
@[simp] theorem onCoreCtx_warncfg (s : State) (c x : Nat) (f : CoreCtx → CoreCtx) : (s.onCoreCtx c x f).warncfg = s.warncfg := by unfold State.onCoreCtx; split <;> rfl
@[simp] theorem onCoreCtx_errors (s : State) (c x : Nat) (f : CoreCtx → CoreCtx) : (s.onCoreCtx c x f).errors = s.errors := by unfold State.onCoreCtx; split <;> rfl
@[simp] theorem onCoreCtx_errHist (s : State) (c x : Nat) (f : CoreCtx → CoreCtx) : (s.onCoreCtx c x f).errHist = s.errHist := by unfold State.onCoreCtx; split <;> rfl
@[simp] theorem onCoreCtx_plog (s : State) (c x : Nat) (f : CoreCtx → CoreCtx) : (s.onCoreCtx c x f).plog = s.plog := by unfold State.onCoreCtx; split <;> rfl
@[simp] theorem onCoreCtx_passTime (s : State) (c x : Nat) (f : CoreCtx → CoreCtx) : (s.onCoreCtx c x f).passTime = s.passTime := by unfold State.onCoreCtx; split <;> rfl
@[simp] theorem onCoreCtx_facs (s : State) (c x : Nat) (f : CoreCtx → CoreCtx) : (s.onCoreCtx c x f).facs = s.facs := by unfold State.onCoreCtx; split <;> rfl
@[simp] theorem onCoreCtx_meters (s : State) (c x : Nat) (f : CoreCtx → CoreCtx) : (s.onCoreCtx c x f).meters = s.meters := by unfold State.onCoreCtx; split <;> rfl
@[simp] theorem onCoreCtx_statements (s : State) (c x : Nat) (f : CoreCtx → CoreCtx) : (s.onCoreCtx c x f).statements = s.statements := by unfold State.onCoreCtx; split <;> rfl
@[simp] theorem onCoreCtx_chained (s : State) (c x : Nat) (f : CoreCtx → CoreCtx) : (s.onCoreCtx c x f).chained = s.chained := by unfold State.onCoreCtx; split <;> rfl
@[simp] theorem onCoreCtx_slices (s : State) (c x : Nat) (f : CoreCtx → CoreCtx) : (s.onCoreCtx c x f).slices = s.slices := by unfold State.onCoreCtx; split <;> rfl
@[simp] theorem onCoreCtx_spares (s : State) (c x : Nat) (f : CoreCtx → CoreCtx) : (s.onCoreCtx c x f).spares = s.spares := by unfold State.onCoreCtx; split <;> rfl
@[simp] theorem onCoreCtx_retired (s : State) (c x : Nat) (f : CoreCtx → CoreCtx) : (s.onCoreCtx c x f).retired = s.retired := by unfold State.onCoreCtx; split <;> rfl
@[simp] theorem onCoreCtx_clusterMap (s : State) (c x : Nat) (f : CoreCtx → CoreCtx) : (s.onCoreCtx c x f).clusterMap = s.clusterMap := by unfold State.onCoreCtx; split <;> rfl
@[simp] theorem onCoreCtx_stackMap (s : State) (c x : Nat) (f : CoreCtx → CoreCtx) : (s.onCoreCtx c x f).stackMap = s.stackMap := by unfold State.onCoreCtx; split <;> rfl
@[simp] theorem onCoreCtx_windows (s : State) (c x : Nat) (f : CoreCtx → CoreCtx) : (s.onCoreCtx c x f).windows = s.windows := by unfold State.onCoreCtx; split <;> rfl
@[simp] theorem onCoreCtx_mailboxes (s : State) (c x : Nat) (f : CoreCtx → CoreCtx) : (s.onCoreCtx c x f).mailboxes = s.mailboxes := by unfold State.onCoreCtx; split <;> rfl
@[simp] theorem onCoreCtx_startMode (s : State) (c x : Nat) (f : CoreCtx → CoreCtx) : (s.onCoreCtx c x f).startMode = s.startMode := by unfold State.onCoreCtx; split <;> rfl
@[simp] theorem onCoreCtx_startReason (s : State) (c x : Nat) (f : CoreCtx → CoreCtx) : (s.onCoreCtx c x f).startReason = s.startReason := by unfold State.onCoreCtx; split <;> rfl
@[simp] theorem onCoreCtx_startFails (s : State) (c x : Nat) (f : CoreCtx → CoreCtx) : (s.onCoreCtx c x f).startFails = s.startFails := by unfold State.onCoreCtx; split <;> rfl
@[simp] theorem onCoreCtx_portsDown (s : State) (c x : Nat) (f : CoreCtx → CoreCtx) : (s.onCoreCtx c x f).portsDown = s.portsDown := by unfold State.onCoreCtx; split <;> rfl
@[simp] theorem onCoreCtx_up (s : State) (c x : Nat) (f : CoreCtx → CoreCtx) : (s.onCoreCtx c x f).up = s.up := by unfold State.onCoreCtx; split <;> rfl
@[simp] theorem onCoreCtx_attempting (s : State) (c x : Nat) (f : CoreCtx → CoreCtx) : (s.onCoreCtx c x f).attempting = s.attempting := by unfold State.onCoreCtx; split <;> rfl
@[simp] theorem onCoreCtx_minDie (s : State) (c x : Nat) (f : CoreCtx → CoreCtx) : (s.onCoreCtx c x f).minDie = s.minDie := by unfold State.onCoreCtx; split <;> rfl
@[simp] theorem onCoreCtx_pwrLimit (s : State) (c x : Nat) (f : CoreCtx → CoreCtx) : (s.onCoreCtx c x f).pwrLimit = s.pwrLimit := by unfold State.onCoreCtx; split <;> rfl
@[simp] theorem onCoreCtx_clockStep (s : State) (c x : Nat) (f : CoreCtx → CoreCtx) : (s.onCoreCtx c x f).clockStep = s.clockStep := by unfold State.onCoreCtx; split <;> rfl
@[simp] theorem onCoreCtx_throttled (s : State) (c x : Nat) (f : CoreCtx → CoreCtx) : (s.onCoreCtx c x f).throttled = s.throttled := by unfold State.onCoreCtx; split <;> rfl
@[simp] theorem onCoreCtx_sensors (s : State) (c x : Nat) (f : CoreCtx → CoreCtx) : (s.onCoreCtx c x f).sensors = s.sensors := by unfold State.onCoreCtx; split <;> rfl
@[simp] theorem onCoreCtx_eid (s : State) (c x : Nat) (f : CoreCtx → CoreCtx) : (s.onCoreCtx c x f).eid = s.eid := by unfold State.onCoreCtx; split <;> rfl
@[simp] theorem onCoreCtx_spdm (s : State) (c x : Nat) (f : CoreCtx → CoreCtx) : (s.onCoreCtx c x f).spdm = s.spdm := by unfold State.onCoreCtx; split <;> rfl
@[simp] theorem onCoreCtx_recalls (s : State) (c x : Nat) (f : CoreCtx → CoreCtx) : (s.onCoreCtx c x f).recalls = s.recalls := by unfold State.onCoreCtx; split <;> rfl

@[simp] theorem onTwin_cur (s : State) (n : Nat) (f : Twin → Twin) : (s.onTwin n f).cur = s.cur := rfl
@[simp] theorem onTwin_inbox (s : State) (n : Nat) (f : Twin → Twin) : (s.onTwin n f).inbox = s.inbox := rfl
@[simp] theorem onTwin_due (s : State) (n : Nat) (f : Twin → Twin) : (s.onTwin n f).due = s.due := rfl
@[simp] theorem onTwin_begun (s : State) (n : Nat) (f : Twin → Twin) : (s.onTwin n f).begun = s.begun := rfl
@[simp] theorem onTwin_out (s : State) (n : Nat) (f : Twin → Twin) : (s.onTwin n f).out = s.out := rfl
@[simp] theorem onTwin_nextId (s : State) (n : Nat) (f : Twin → Twin) : (s.onTwin n f).nextId = s.nextId := rfl
@[simp] theorem onTwin_issues (s : State) (n : Nat) (f : Twin → Twin) : (s.onTwin n f).issues = s.issues := rfl
@[simp] theorem onTwin_freeTick (s : State) (n : Nat) (f : Twin → Twin) : (s.onTwin n f).freeTick = s.freeTick := rfl
@[simp] theorem onTwin_part (s : State) (n : Nat) (f : Twin → Twin) : (s.onTwin n f).part = s.part := rfl
@[simp] theorem onTwin_cap (s : State) (n : Nat) (f : Twin → Twin) : (s.onTwin n f).cap = s.cap := rfl
@[simp] theorem onTwin_teams (s : State) (n : Nat) (f : Twin → Twin) : (s.onTwin n f).teams = s.teams := rfl
@[simp] theorem onTwin_launches (s : State) (n : Nat) (f : Twin → Twin) : (s.onTwin n f).launches = s.launches := rfl
@[simp] theorem onTwin_queues (s : State) (n : Nat) (f : Twin → Twin) : (s.onTwin n f).queues = s.queues := rfl
@[simp] theorem onTwin_served (s : State) (n : Nat) (f : Twin → Twin) : (s.onTwin n f).served = s.served := rfl
@[simp] theorem onTwin_images (s : State) (n : Nat) (f : Twin → Twin) : (s.onTwin n f).images = s.images := rfl
@[simp] theorem onTwin_ctxs (s : State) (n : Nat) (f : Twin → Twin) : (s.onTwin n f).ctxs = s.ctxs := rfl
@[simp] theorem onTwin_cores (s : State) (n : Nat) (f : Twin → Twin) : (s.onTwin n f).cores = s.cores := rfl
@[simp] theorem onTwin_coreCtxs (s : State) (n : Nat) (f : Twin → Twin) : (s.onTwin n f).coreCtxs = s.coreCtxs := rfl
@[simp] theorem onTwin_stamps (s : State) (n : Nat) (f : Twin → Twin) : (s.onTwin n f).stamps = s.stamps := rfl
@[simp] theorem onTwin_decisions (s : State) (n : Nat) (f : Twin → Twin) : (s.onTwin n f).decisions = s.decisions := rfl
@[simp] theorem onTwin_mem (s : State) (n : Nat) (f : Twin → Twin) : (s.onTwin n f).mem = s.mem := rfl
@[simp] theorem onTwin_held (s : State) (n : Nat) (f : Twin → Twin) : (s.onTwin n f).held = s.held := rfl
@[simp] theorem onTwin_marks (s : State) (n : Nat) (f : Twin → Twin) : (s.onTwin n f).marks = s.marks := rfl
@[simp] theorem onTwin_poison (s : State) (n : Nat) (f : Twin → Twin) : (s.onTwin n f).poison = s.poison := rfl
@[simp] theorem onTwin_accesses (s : State) (n : Nat) (f : Twin → Twin) : (s.onTwin n f).accesses = s.accesses := rfl
@[simp] theorem onTwin_wc (s : State) (n : Nat) (f : Twin → Twin) : (s.onTwin n f).wc = s.wc := rfl
@[simp] theorem onTwin_heldOut (s : State) (n : Nat) (f : Twin → Twin) : (s.onTwin n f).heldOut = s.heldOut := rfl
@[simp] theorem onTwin_reqs (s : State) (n : Nat) (f : Twin → Twin) : (s.onTwin n f).reqs = s.reqs := rfl
@[simp] theorem onTwin_rids (s : State) (n : Nat) (f : Twin → Twin) : (s.onTwin n f).rids = s.rids := rfl
@[simp] theorem onTwin_faultq (s : State) (n : Nat) (f : Twin → Twin) : (s.onTwin n f).faultq = s.faultq := rfl
@[simp] theorem onTwin_copies (s : State) (n : Nat) (f : Twin → Twin) : (s.onTwin n f).copies = s.copies := rfl
@[simp] theorem onTwin_sends (s : State) (n : Nat) (f : Twin → Twin) : (s.onTwin n f).sends = s.sends := rfl
@[simp] theorem onTwin_works (s : State) (n : Nat) (f : Twin → Twin) : (s.onTwin n f).works = s.works := rfl
@[simp] theorem onTwin_tileops (s : State) (n : Nat) (f : Twin → Twin) : (s.onTwin n f).tileops = s.tileops := rfl
@[simp] theorem onTwin_slips (s : State) (n : Nat) (f : Twin → Twin) : (s.onTwin n f).slips = s.slips := rfl
@[simp] theorem onTwin_accessions (s : State) (n : Nat) (f : Twin → Twin) : (s.onTwin n f).accessions = s.accessions := rfl
@[simp] theorem onTwin_colls (s : State) (n : Nat) (f : Twin → Twin) : (s.onTwin n f).colls = s.colls := rfl
@[simp] theorem onTwin_pubs (s : State) (n : Nat) (f : Twin → Twin) : (s.onTwin n f).pubs = s.pubs := rfl
@[simp] theorem onTwin_migrations (s : State) (n : Nat) (f : Twin → Twin) : (s.onTwin n f).migrations = s.migrations := rfl
@[simp] theorem onTwin_objects (s : State) (n : Nat) (f : Twin → Twin) : (s.onTwin n f).objects = s.objects := rfl
@[simp] theorem onTwin_scrubs (s : State) (n : Nat) (f : Twin → Twin) : (s.onTwin n f).scrubs = s.scrubs := rfl
@[simp] theorem onTwin_planes (s : State) (n : Nat) (f : Twin → Twin) : (s.onTwin n f).planes = s.planes := rfl
@[simp] theorem onTwin_nextPlanes (s : State) (n : Nat) (f : Twin → Twin) : (s.onTwin n f).nextPlanes = s.nextPlanes := rfl
@[simp] theorem onTwin_kept (s : State) (n : Nat) (f : Twin → Twin) : (s.onTwin n f).kept = s.kept := rfl
@[simp] theorem onTwin_links (s : State) (n : Nat) (f : Twin → Twin) : (s.onTwin n f).links = s.links := rfl
@[simp] theorem onTwin_linksDown (s : State) (n : Nat) (f : Twin → Twin) : (s.onTwin n f).linksDown = s.linksDown := rfl
@[simp] theorem onTwin_cache (s : State) (n : Nat) (f : Twin → Twin) : (s.onTwin n f).cache = s.cache := rfl
@[simp] theorem onTwin_expiry (s : State) (n : Nat) (f : Twin → Twin) : (s.onTwin n f).expiry = s.expiry := rfl
@[simp] theorem onTwin_busy (s : State) (n : Nat) (f : Twin → Twin) : (s.onTwin n f).busy = s.busy := rfl
@[simp] theorem onTwin_exports (s : State) (n : Nat) (f : Twin → Twin) : (s.onTwin n f).exports = s.exports := rfl
@[simp] theorem onTwin_reorder (s : State) (n : Nat) (f : Twin → Twin) : (s.onTwin n f).reorder = s.reorder := rfl
@[simp] theorem onTwin_barriers (s : State) (n : Nat) (f : Twin → Twin) : (s.onTwin n f).barriers = s.barriers := rfl
@[simp] theorem onTwin_starts (s : State) (n : Nat) (f : Twin → Twin) : (s.onTwin n f).starts = s.starts := rfl
@[simp] theorem onTwin_facEnded (s : State) (n : Nat) (f : Twin → Twin) : (s.onTwin n f).facEnded = s.facEnded := rfl
@[simp] theorem onTwin_routers (s : State) (n : Nat) (f : Twin → Twin) : (s.onTwin n f).routers = s.routers := rfl
@[simp] theorem onTwin_frames (s : State) (n : Nat) (f : Twin → Twin) : (s.onTwin n f).frames = s.frames := rfl
@[simp] theorem onTwin_areas (s : State) (n : Nat) (f : Twin → Twin) : (s.onTwin n f).areas = s.areas := rfl
@[simp] theorem onTwin_scrubAreas (s : State) (n : Nat) (f : Twin → Twin) : (s.onTwin n f).scrubAreas = s.scrubAreas := rfl
@[simp] theorem onTwin_scrubAt (s : State) (n : Nat) (f : Twin → Twin) : (s.onTwin n f).scrubAt = s.scrubAt := rfl
@[simp] theorem onTwin_stalls (s : State) (n : Nat) (f : Twin → Twin) : (s.onTwin n f).stalls = s.stalls := rfl
@[simp] theorem onTwin_far (s : State) (n : Nat) (f : Twin → Twin) : (s.onTwin n f).far = s.far := rfl
@[simp] theorem onTwin_bgbud (s : State) (n : Nat) (f : Twin → Twin) : (s.onTwin n f).bgbud = s.bgbud := rfl
@[simp] theorem onTwin_bguse (s : State) (n : Nat) (f : Twin → Twin) : (s.onTwin n f).bguse = s.bguse := rfl
@[simp] theorem onTwin_warncfg (s : State) (n : Nat) (f : Twin → Twin) : (s.onTwin n f).warncfg = s.warncfg := rfl
@[simp] theorem onTwin_errors (s : State) (n : Nat) (f : Twin → Twin) : (s.onTwin n f).errors = s.errors := rfl
@[simp] theorem onTwin_errHist (s : State) (n : Nat) (f : Twin → Twin) : (s.onTwin n f).errHist = s.errHist := rfl
@[simp] theorem onTwin_plog (s : State) (n : Nat) (f : Twin → Twin) : (s.onTwin n f).plog = s.plog := rfl
@[simp] theorem onTwin_passTime (s : State) (n : Nat) (f : Twin → Twin) : (s.onTwin n f).passTime = s.passTime := rfl
@[simp] theorem onTwin_facs (s : State) (n : Nat) (f : Twin → Twin) : (s.onTwin n f).facs = s.facs := rfl
@[simp] theorem onTwin_meters (s : State) (n : Nat) (f : Twin → Twin) : (s.onTwin n f).meters = s.meters := rfl
@[simp] theorem onTwin_statements (s : State) (n : Nat) (f : Twin → Twin) : (s.onTwin n f).statements = s.statements := rfl
@[simp] theorem onTwin_chained (s : State) (n : Nat) (f : Twin → Twin) : (s.onTwin n f).chained = s.chained := rfl
@[simp] theorem onTwin_slices (s : State) (n : Nat) (f : Twin → Twin) : (s.onTwin n f).slices = s.slices := rfl
@[simp] theorem onTwin_spares (s : State) (n : Nat) (f : Twin → Twin) : (s.onTwin n f).spares = s.spares := rfl
@[simp] theorem onTwin_retired (s : State) (n : Nat) (f : Twin → Twin) : (s.onTwin n f).retired = s.retired := rfl
@[simp] theorem onTwin_clusterMap (s : State) (n : Nat) (f : Twin → Twin) : (s.onTwin n f).clusterMap = s.clusterMap := rfl
@[simp] theorem onTwin_stackMap (s : State) (n : Nat) (f : Twin → Twin) : (s.onTwin n f).stackMap = s.stackMap := rfl
@[simp] theorem onTwin_windows (s : State) (n : Nat) (f : Twin → Twin) : (s.onTwin n f).windows = s.windows := rfl
@[simp] theorem onTwin_mailboxes (s : State) (n : Nat) (f : Twin → Twin) : (s.onTwin n f).mailboxes = s.mailboxes := rfl
@[simp] theorem onTwin_startMode (s : State) (n : Nat) (f : Twin → Twin) : (s.onTwin n f).startMode = s.startMode := rfl
@[simp] theorem onTwin_startReason (s : State) (n : Nat) (f : Twin → Twin) : (s.onTwin n f).startReason = s.startReason := rfl
@[simp] theorem onTwin_startFails (s : State) (n : Nat) (f : Twin → Twin) : (s.onTwin n f).startFails = s.startFails := rfl
@[simp] theorem onTwin_portsDown (s : State) (n : Nat) (f : Twin → Twin) : (s.onTwin n f).portsDown = s.portsDown := rfl
@[simp] theorem onTwin_up (s : State) (n : Nat) (f : Twin → Twin) : (s.onTwin n f).up = s.up := rfl
@[simp] theorem onTwin_attempting (s : State) (n : Nat) (f : Twin → Twin) : (s.onTwin n f).attempting = s.attempting := rfl
@[simp] theorem onTwin_minDie (s : State) (n : Nat) (f : Twin → Twin) : (s.onTwin n f).minDie = s.minDie := rfl
@[simp] theorem onTwin_pwrLimit (s : State) (n : Nat) (f : Twin → Twin) : (s.onTwin n f).pwrLimit = s.pwrLimit := rfl
@[simp] theorem onTwin_clockStep (s : State) (n : Nat) (f : Twin → Twin) : (s.onTwin n f).clockStep = s.clockStep := rfl
@[simp] theorem onTwin_throttled (s : State) (n : Nat) (f : Twin → Twin) : (s.onTwin n f).throttled = s.throttled := rfl
@[simp] theorem onTwin_sensors (s : State) (n : Nat) (f : Twin → Twin) : (s.onTwin n f).sensors = s.sensors := rfl
@[simp] theorem onTwin_eid (s : State) (n : Nat) (f : Twin → Twin) : (s.onTwin n f).eid = s.eid := rfl
@[simp] theorem onTwin_spdm (s : State) (n : Nat) (f : Twin → Twin) : (s.onTwin n f).spdm = s.spdm := rfl
@[simp] theorem onTwin_recalls (s : State) (n : Nat) (f : Twin → Twin) : (s.onTwin n f).recalls = s.recalls := rfl

@[simp] theorem send_cur (s : State) (n : Notice) : (s.send n).cur = s.cur := rfl
@[simp] theorem send_inbox (s : State) (n : Notice) : (s.send n).inbox = s.inbox := rfl
@[simp] theorem send_due (s : State) (n : Notice) : (s.send n).due = s.due := rfl
@[simp] theorem send_begun (s : State) (n : Notice) : (s.send n).begun = s.begun := rfl
@[simp] theorem send_nextId (s : State) (n : Notice) : (s.send n).nextId = s.nextId := rfl
@[simp] theorem send_issues (s : State) (n : Notice) : (s.send n).issues = s.issues := rfl
@[simp] theorem send_freeTick (s : State) (n : Notice) : (s.send n).freeTick = s.freeTick := rfl
@[simp] theorem send_part (s : State) (n : Notice) : (s.send n).part = s.part := rfl
@[simp] theorem send_cap (s : State) (n : Notice) : (s.send n).cap = s.cap := rfl
@[simp] theorem send_teams (s : State) (n : Notice) : (s.send n).teams = s.teams := rfl
@[simp] theorem send_launches (s : State) (n : Notice) : (s.send n).launches = s.launches := rfl
@[simp] theorem send_queues (s : State) (n : Notice) : (s.send n).queues = s.queues := rfl
@[simp] theorem send_served (s : State) (n : Notice) : (s.send n).served = s.served := rfl
@[simp] theorem send_images (s : State) (n : Notice) : (s.send n).images = s.images := rfl
@[simp] theorem send_ctxs (s : State) (n : Notice) : (s.send n).ctxs = s.ctxs := rfl
@[simp] theorem send_cores (s : State) (n : Notice) : (s.send n).cores = s.cores := rfl
@[simp] theorem send_coreCtxs (s : State) (n : Notice) : (s.send n).coreCtxs = s.coreCtxs := rfl
@[simp] theorem send_stamps (s : State) (n : Notice) : (s.send n).stamps = s.stamps := rfl
@[simp] theorem send_decisions (s : State) (n : Notice) : (s.send n).decisions = s.decisions := rfl
@[simp] theorem send_mem (s : State) (n : Notice) : (s.send n).mem = s.mem := rfl
@[simp] theorem send_held (s : State) (n : Notice) : (s.send n).held = s.held := rfl
@[simp] theorem send_marks (s : State) (n : Notice) : (s.send n).marks = s.marks := rfl
@[simp] theorem send_poison (s : State) (n : Notice) : (s.send n).poison = s.poison := rfl
@[simp] theorem send_accesses (s : State) (n : Notice) : (s.send n).accesses = s.accesses := rfl
@[simp] theorem send_wc (s : State) (n : Notice) : (s.send n).wc = s.wc := rfl
@[simp] theorem send_heldOut (s : State) (n : Notice) : (s.send n).heldOut = s.heldOut := rfl
@[simp] theorem send_reqs (s : State) (n : Notice) : (s.send n).reqs = s.reqs := rfl
@[simp] theorem send_rids (s : State) (n : Notice) : (s.send n).rids = s.rids := rfl
@[simp] theorem send_faultq (s : State) (n : Notice) : (s.send n).faultq = s.faultq := rfl
@[simp] theorem send_copies (s : State) (n : Notice) : (s.send n).copies = s.copies := rfl
@[simp] theorem send_sends (s : State) (n : Notice) : (s.send n).sends = s.sends := rfl
@[simp] theorem send_works (s : State) (n : Notice) : (s.send n).works = s.works := rfl
@[simp] theorem send_tileops (s : State) (n : Notice) : (s.send n).tileops = s.tileops := rfl
@[simp] theorem send_slips (s : State) (n : Notice) : (s.send n).slips = s.slips := rfl
@[simp] theorem send_accessions (s : State) (n : Notice) : (s.send n).accessions = s.accessions := rfl
@[simp] theorem send_colls (s : State) (n : Notice) : (s.send n).colls = s.colls := rfl
@[simp] theorem send_pubs (s : State) (n : Notice) : (s.send n).pubs = s.pubs := rfl
@[simp] theorem send_migrations (s : State) (n : Notice) : (s.send n).migrations = s.migrations := rfl
@[simp] theorem send_twins (s : State) (n : Notice) : (s.send n).twins = s.twins := rfl
@[simp] theorem send_objects (s : State) (n : Notice) : (s.send n).objects = s.objects := rfl
@[simp] theorem send_scrubs (s : State) (n : Notice) : (s.send n).scrubs = s.scrubs := rfl
@[simp] theorem send_planes (s : State) (n : Notice) : (s.send n).planes = s.planes := rfl
@[simp] theorem send_nextPlanes (s : State) (n : Notice) : (s.send n).nextPlanes = s.nextPlanes := rfl
@[simp] theorem send_kept (s : State) (n : Notice) : (s.send n).kept = s.kept := rfl
@[simp] theorem send_links (s : State) (n : Notice) : (s.send n).links = s.links := rfl
@[simp] theorem send_linksDown (s : State) (n : Notice) : (s.send n).linksDown = s.linksDown := rfl
@[simp] theorem send_cache (s : State) (n : Notice) : (s.send n).cache = s.cache := rfl
@[simp] theorem send_expiry (s : State) (n : Notice) : (s.send n).expiry = s.expiry := rfl
@[simp] theorem send_busy (s : State) (n : Notice) : (s.send n).busy = s.busy := rfl
@[simp] theorem send_exports (s : State) (n : Notice) : (s.send n).exports = s.exports := rfl
@[simp] theorem send_reorder (s : State) (n : Notice) : (s.send n).reorder = s.reorder := rfl
@[simp] theorem send_barriers (s : State) (n : Notice) : (s.send n).barriers = s.barriers := rfl
@[simp] theorem send_starts (s : State) (n : Notice) : (s.send n).starts = s.starts := rfl
@[simp] theorem send_facEnded (s : State) (n : Notice) : (s.send n).facEnded = s.facEnded := rfl
@[simp] theorem send_routers (s : State) (n : Notice) : (s.send n).routers = s.routers := rfl
@[simp] theorem send_frames (s : State) (n : Notice) : (s.send n).frames = s.frames := rfl
@[simp] theorem send_areas (s : State) (n : Notice) : (s.send n).areas = s.areas := rfl
@[simp] theorem send_scrubAreas (s : State) (n : Notice) : (s.send n).scrubAreas = s.scrubAreas := rfl
@[simp] theorem send_scrubAt (s : State) (n : Notice) : (s.send n).scrubAt = s.scrubAt := rfl
@[simp] theorem send_stalls (s : State) (n : Notice) : (s.send n).stalls = s.stalls := rfl
@[simp] theorem send_far (s : State) (n : Notice) : (s.send n).far = s.far := rfl
@[simp] theorem send_bgbud (s : State) (n : Notice) : (s.send n).bgbud = s.bgbud := rfl
@[simp] theorem send_bguse (s : State) (n : Notice) : (s.send n).bguse = s.bguse := rfl
@[simp] theorem send_warncfg (s : State) (n : Notice) : (s.send n).warncfg = s.warncfg := rfl
@[simp] theorem send_errors (s : State) (n : Notice) : (s.send n).errors = s.errors := rfl
@[simp] theorem send_errHist (s : State) (n : Notice) : (s.send n).errHist = s.errHist := rfl
@[simp] theorem send_plog (s : State) (n : Notice) : (s.send n).plog = s.plog := rfl
@[simp] theorem send_passTime (s : State) (n : Notice) : (s.send n).passTime = s.passTime := rfl
@[simp] theorem send_facs (s : State) (n : Notice) : (s.send n).facs = s.facs := rfl
@[simp] theorem send_meters (s : State) (n : Notice) : (s.send n).meters = s.meters := rfl
@[simp] theorem send_statements (s : State) (n : Notice) : (s.send n).statements = s.statements := rfl
@[simp] theorem send_chained (s : State) (n : Notice) : (s.send n).chained = s.chained := rfl
@[simp] theorem send_slices (s : State) (n : Notice) : (s.send n).slices = s.slices := rfl
@[simp] theorem send_spares (s : State) (n : Notice) : (s.send n).spares = s.spares := rfl
@[simp] theorem send_retired (s : State) (n : Notice) : (s.send n).retired = s.retired := rfl
@[simp] theorem send_clusterMap (s : State) (n : Notice) : (s.send n).clusterMap = s.clusterMap := rfl
@[simp] theorem send_stackMap (s : State) (n : Notice) : (s.send n).stackMap = s.stackMap := rfl
@[simp] theorem send_windows (s : State) (n : Notice) : (s.send n).windows = s.windows := rfl
@[simp] theorem send_mailboxes (s : State) (n : Notice) : (s.send n).mailboxes = s.mailboxes := rfl
@[simp] theorem send_startMode (s : State) (n : Notice) : (s.send n).startMode = s.startMode := rfl
@[simp] theorem send_startReason (s : State) (n : Notice) : (s.send n).startReason = s.startReason := rfl
@[simp] theorem send_startFails (s : State) (n : Notice) : (s.send n).startFails = s.startFails := rfl
@[simp] theorem send_portsDown (s : State) (n : Notice) : (s.send n).portsDown = s.portsDown := rfl
@[simp] theorem send_up (s : State) (n : Notice) : (s.send n).up = s.up := rfl
@[simp] theorem send_attempting (s : State) (n : Notice) : (s.send n).attempting = s.attempting := rfl
@[simp] theorem send_minDie (s : State) (n : Notice) : (s.send n).minDie = s.minDie := rfl
@[simp] theorem send_pwrLimit (s : State) (n : Notice) : (s.send n).pwrLimit = s.pwrLimit := rfl
@[simp] theorem send_clockStep (s : State) (n : Notice) : (s.send n).clockStep = s.clockStep := rfl
@[simp] theorem send_throttled (s : State) (n : Notice) : (s.send n).throttled = s.throttled := rfl
@[simp] theorem send_sensors (s : State) (n : Notice) : (s.send n).sensors = s.sensors := rfl
@[simp] theorem send_eid (s : State) (n : Notice) : (s.send n).eid = s.eid := rfl
@[simp] theorem send_spdm (s : State) (n : Notice) : (s.send n).spdm = s.spdm := rfl
@[simp] theorem send_recalls (s : State) (n : Notice) : (s.send n).recalls = s.recalls := rfl

@[simp] theorem owe_cur (s : State) (i : Instr) : (s.owe i).cur = s.cur := rfl
@[simp] theorem owe_inbox (s : State) (i : Instr) : (s.owe i).inbox = s.inbox := rfl
@[simp] theorem owe_begun (s : State) (i : Instr) : (s.owe i).begun = s.begun := rfl
@[simp] theorem owe_out (s : State) (i : Instr) : (s.owe i).out = s.out := rfl
@[simp] theorem owe_nextId (s : State) (i : Instr) : (s.owe i).nextId = s.nextId := rfl
@[simp] theorem owe_issues (s : State) (i : Instr) : (s.owe i).issues = s.issues := rfl
@[simp] theorem owe_freeTick (s : State) (i : Instr) : (s.owe i).freeTick = s.freeTick := rfl
@[simp] theorem owe_part (s : State) (i : Instr) : (s.owe i).part = s.part := rfl
@[simp] theorem owe_cap (s : State) (i : Instr) : (s.owe i).cap = s.cap := rfl
@[simp] theorem owe_teams (s : State) (i : Instr) : (s.owe i).teams = s.teams := rfl
@[simp] theorem owe_launches (s : State) (i : Instr) : (s.owe i).launches = s.launches := rfl
@[simp] theorem owe_queues (s : State) (i : Instr) : (s.owe i).queues = s.queues := rfl
@[simp] theorem owe_served (s : State) (i : Instr) : (s.owe i).served = s.served := rfl
@[simp] theorem owe_images (s : State) (i : Instr) : (s.owe i).images = s.images := rfl
@[simp] theorem owe_ctxs (s : State) (i : Instr) : (s.owe i).ctxs = s.ctxs := rfl
@[simp] theorem owe_cores (s : State) (i : Instr) : (s.owe i).cores = s.cores := rfl
@[simp] theorem owe_coreCtxs (s : State) (i : Instr) : (s.owe i).coreCtxs = s.coreCtxs := rfl
@[simp] theorem owe_stamps (s : State) (i : Instr) : (s.owe i).stamps = s.stamps := rfl
@[simp] theorem owe_decisions (s : State) (i : Instr) : (s.owe i).decisions = s.decisions := rfl
@[simp] theorem owe_mem (s : State) (i : Instr) : (s.owe i).mem = s.mem := rfl
@[simp] theorem owe_held (s : State) (i : Instr) : (s.owe i).held = s.held := rfl
@[simp] theorem owe_marks (s : State) (i : Instr) : (s.owe i).marks = s.marks := rfl
@[simp] theorem owe_poison (s : State) (i : Instr) : (s.owe i).poison = s.poison := rfl
@[simp] theorem owe_accesses (s : State) (i : Instr) : (s.owe i).accesses = s.accesses := rfl
@[simp] theorem owe_wc (s : State) (i : Instr) : (s.owe i).wc = s.wc := rfl
@[simp] theorem owe_heldOut (s : State) (i : Instr) : (s.owe i).heldOut = s.heldOut := rfl
@[simp] theorem owe_reqs (s : State) (i : Instr) : (s.owe i).reqs = s.reqs := rfl
@[simp] theorem owe_rids (s : State) (i : Instr) : (s.owe i).rids = s.rids := rfl
@[simp] theorem owe_faultq (s : State) (i : Instr) : (s.owe i).faultq = s.faultq := rfl
@[simp] theorem owe_copies (s : State) (i : Instr) : (s.owe i).copies = s.copies := rfl
@[simp] theorem owe_sends (s : State) (i : Instr) : (s.owe i).sends = s.sends := rfl
@[simp] theorem owe_works (s : State) (i : Instr) : (s.owe i).works = s.works := rfl
@[simp] theorem owe_tileops (s : State) (i : Instr) : (s.owe i).tileops = s.tileops := rfl
@[simp] theorem owe_slips (s : State) (i : Instr) : (s.owe i).slips = s.slips := rfl
@[simp] theorem owe_accessions (s : State) (i : Instr) : (s.owe i).accessions = s.accessions := rfl
@[simp] theorem owe_colls (s : State) (i : Instr) : (s.owe i).colls = s.colls := rfl
@[simp] theorem owe_pubs (s : State) (i : Instr) : (s.owe i).pubs = s.pubs := rfl
@[simp] theorem owe_migrations (s : State) (i : Instr) : (s.owe i).migrations = s.migrations := rfl
@[simp] theorem owe_twins (s : State) (i : Instr) : (s.owe i).twins = s.twins := rfl
@[simp] theorem owe_objects (s : State) (i : Instr) : (s.owe i).objects = s.objects := rfl
@[simp] theorem owe_scrubs (s : State) (i : Instr) : (s.owe i).scrubs = s.scrubs := rfl
@[simp] theorem owe_planes (s : State) (i : Instr) : (s.owe i).planes = s.planes := rfl
@[simp] theorem owe_nextPlanes (s : State) (i : Instr) : (s.owe i).nextPlanes = s.nextPlanes := rfl
@[simp] theorem owe_kept (s : State) (i : Instr) : (s.owe i).kept = s.kept := rfl
@[simp] theorem owe_links (s : State) (i : Instr) : (s.owe i).links = s.links := rfl
@[simp] theorem owe_linksDown (s : State) (i : Instr) : (s.owe i).linksDown = s.linksDown := rfl
@[simp] theorem owe_cache (s : State) (i : Instr) : (s.owe i).cache = s.cache := rfl
@[simp] theorem owe_expiry (s : State) (i : Instr) : (s.owe i).expiry = s.expiry := rfl
@[simp] theorem owe_busy (s : State) (i : Instr) : (s.owe i).busy = s.busy := rfl
@[simp] theorem owe_exports (s : State) (i : Instr) : (s.owe i).exports = s.exports := rfl
@[simp] theorem owe_reorder (s : State) (i : Instr) : (s.owe i).reorder = s.reorder := rfl
@[simp] theorem owe_barriers (s : State) (i : Instr) : (s.owe i).barriers = s.barriers := rfl
@[simp] theorem owe_starts (s : State) (i : Instr) : (s.owe i).starts = s.starts := rfl
@[simp] theorem owe_facEnded (s : State) (i : Instr) : (s.owe i).facEnded = s.facEnded := rfl
@[simp] theorem owe_routers (s : State) (i : Instr) : (s.owe i).routers = s.routers := rfl
@[simp] theorem owe_frames (s : State) (i : Instr) : (s.owe i).frames = s.frames := rfl
@[simp] theorem owe_areas (s : State) (i : Instr) : (s.owe i).areas = s.areas := rfl
@[simp] theorem owe_scrubAreas (s : State) (i : Instr) : (s.owe i).scrubAreas = s.scrubAreas := rfl
@[simp] theorem owe_scrubAt (s : State) (i : Instr) : (s.owe i).scrubAt = s.scrubAt := rfl
@[simp] theorem owe_stalls (s : State) (i : Instr) : (s.owe i).stalls = s.stalls := rfl
@[simp] theorem owe_far (s : State) (i : Instr) : (s.owe i).far = s.far := rfl
@[simp] theorem owe_bgbud (s : State) (i : Instr) : (s.owe i).bgbud = s.bgbud := rfl
@[simp] theorem owe_bguse (s : State) (i : Instr) : (s.owe i).bguse = s.bguse := rfl
@[simp] theorem owe_warncfg (s : State) (i : Instr) : (s.owe i).warncfg = s.warncfg := rfl
@[simp] theorem owe_errors (s : State) (i : Instr) : (s.owe i).errors = s.errors := rfl
@[simp] theorem owe_errHist (s : State) (i : Instr) : (s.owe i).errHist = s.errHist := rfl
@[simp] theorem owe_plog (s : State) (i : Instr) : (s.owe i).plog = s.plog := rfl
@[simp] theorem owe_passTime (s : State) (i : Instr) : (s.owe i).passTime = s.passTime := rfl
@[simp] theorem owe_facs (s : State) (i : Instr) : (s.owe i).facs = s.facs := rfl
@[simp] theorem owe_meters (s : State) (i : Instr) : (s.owe i).meters = s.meters := rfl
@[simp] theorem owe_statements (s : State) (i : Instr) : (s.owe i).statements = s.statements := rfl
@[simp] theorem owe_chained (s : State) (i : Instr) : (s.owe i).chained = s.chained := rfl
@[simp] theorem owe_slices (s : State) (i : Instr) : (s.owe i).slices = s.slices := rfl
@[simp] theorem owe_spares (s : State) (i : Instr) : (s.owe i).spares = s.spares := rfl
@[simp] theorem owe_retired (s : State) (i : Instr) : (s.owe i).retired = s.retired := rfl
@[simp] theorem owe_clusterMap (s : State) (i : Instr) : (s.owe i).clusterMap = s.clusterMap := rfl
@[simp] theorem owe_stackMap (s : State) (i : Instr) : (s.owe i).stackMap = s.stackMap := rfl
@[simp] theorem owe_windows (s : State) (i : Instr) : (s.owe i).windows = s.windows := rfl
@[simp] theorem owe_mailboxes (s : State) (i : Instr) : (s.owe i).mailboxes = s.mailboxes := rfl
@[simp] theorem owe_startMode (s : State) (i : Instr) : (s.owe i).startMode = s.startMode := rfl
@[simp] theorem owe_startReason (s : State) (i : Instr) : (s.owe i).startReason = s.startReason := rfl
@[simp] theorem owe_startFails (s : State) (i : Instr) : (s.owe i).startFails = s.startFails := rfl
@[simp] theorem owe_portsDown (s : State) (i : Instr) : (s.owe i).portsDown = s.portsDown := rfl
@[simp] theorem owe_up (s : State) (i : Instr) : (s.owe i).up = s.up := rfl
@[simp] theorem owe_attempting (s : State) (i : Instr) : (s.owe i).attempting = s.attempting := rfl
@[simp] theorem owe_minDie (s : State) (i : Instr) : (s.owe i).minDie = s.minDie := rfl
@[simp] theorem owe_pwrLimit (s : State) (i : Instr) : (s.owe i).pwrLimit = s.pwrLimit := rfl
@[simp] theorem owe_clockStep (s : State) (i : Instr) : (s.owe i).clockStep = s.clockStep := rfl
@[simp] theorem owe_throttled (s : State) (i : Instr) : (s.owe i).throttled = s.throttled := rfl
@[simp] theorem owe_sensors (s : State) (i : Instr) : (s.owe i).sensors = s.sensors := rfl
@[simp] theorem owe_eid (s : State) (i : Instr) : (s.owe i).eid = s.eid := rfl
@[simp] theorem owe_spdm (s : State) (i : Instr) : (s.owe i).spdm = s.spdm := rfl
@[simp] theorem owe_recalls (s : State) (i : Instr) : (s.owe i).recalls = s.recalls := rfl

@[simp] theorem unowe_cur (s : State) (i : Instr) : (s.unowe i).cur = s.cur := rfl
@[simp] theorem unowe_inbox (s : State) (i : Instr) : (s.unowe i).inbox = s.inbox := rfl
@[simp] theorem unowe_begun (s : State) (i : Instr) : (s.unowe i).begun = s.begun := rfl
@[simp] theorem unowe_out (s : State) (i : Instr) : (s.unowe i).out = s.out := rfl
@[simp] theorem unowe_nextId (s : State) (i : Instr) : (s.unowe i).nextId = s.nextId := rfl
@[simp] theorem unowe_issues (s : State) (i : Instr) : (s.unowe i).issues = s.issues := rfl
@[simp] theorem unowe_freeTick (s : State) (i : Instr) : (s.unowe i).freeTick = s.freeTick := rfl
@[simp] theorem unowe_part (s : State) (i : Instr) : (s.unowe i).part = s.part := rfl
@[simp] theorem unowe_cap (s : State) (i : Instr) : (s.unowe i).cap = s.cap := rfl
@[simp] theorem unowe_teams (s : State) (i : Instr) : (s.unowe i).teams = s.teams := rfl
@[simp] theorem unowe_launches (s : State) (i : Instr) : (s.unowe i).launches = s.launches := rfl
@[simp] theorem unowe_queues (s : State) (i : Instr) : (s.unowe i).queues = s.queues := rfl
@[simp] theorem unowe_served (s : State) (i : Instr) : (s.unowe i).served = s.served := rfl
@[simp] theorem unowe_images (s : State) (i : Instr) : (s.unowe i).images = s.images := rfl
@[simp] theorem unowe_ctxs (s : State) (i : Instr) : (s.unowe i).ctxs = s.ctxs := rfl
@[simp] theorem unowe_cores (s : State) (i : Instr) : (s.unowe i).cores = s.cores := rfl
@[simp] theorem unowe_coreCtxs (s : State) (i : Instr) : (s.unowe i).coreCtxs = s.coreCtxs := rfl
@[simp] theorem unowe_stamps (s : State) (i : Instr) : (s.unowe i).stamps = s.stamps := rfl
@[simp] theorem unowe_decisions (s : State) (i : Instr) : (s.unowe i).decisions = s.decisions := rfl
@[simp] theorem unowe_mem (s : State) (i : Instr) : (s.unowe i).mem = s.mem := rfl
@[simp] theorem unowe_held (s : State) (i : Instr) : (s.unowe i).held = s.held := rfl
@[simp] theorem unowe_marks (s : State) (i : Instr) : (s.unowe i).marks = s.marks := rfl
@[simp] theorem unowe_poison (s : State) (i : Instr) : (s.unowe i).poison = s.poison := rfl
@[simp] theorem unowe_accesses (s : State) (i : Instr) : (s.unowe i).accesses = s.accesses := rfl
@[simp] theorem unowe_wc (s : State) (i : Instr) : (s.unowe i).wc = s.wc := rfl
@[simp] theorem unowe_heldOut (s : State) (i : Instr) : (s.unowe i).heldOut = s.heldOut := rfl
@[simp] theorem unowe_reqs (s : State) (i : Instr) : (s.unowe i).reqs = s.reqs := rfl
@[simp] theorem unowe_rids (s : State) (i : Instr) : (s.unowe i).rids = s.rids := rfl
@[simp] theorem unowe_faultq (s : State) (i : Instr) : (s.unowe i).faultq = s.faultq := rfl
@[simp] theorem unowe_copies (s : State) (i : Instr) : (s.unowe i).copies = s.copies := rfl
@[simp] theorem unowe_sends (s : State) (i : Instr) : (s.unowe i).sends = s.sends := rfl
@[simp] theorem unowe_works (s : State) (i : Instr) : (s.unowe i).works = s.works := rfl
@[simp] theorem unowe_tileops (s : State) (i : Instr) : (s.unowe i).tileops = s.tileops := rfl
@[simp] theorem unowe_slips (s : State) (i : Instr) : (s.unowe i).slips = s.slips := rfl
@[simp] theorem unowe_accessions (s : State) (i : Instr) : (s.unowe i).accessions = s.accessions := rfl
@[simp] theorem unowe_colls (s : State) (i : Instr) : (s.unowe i).colls = s.colls := rfl
@[simp] theorem unowe_pubs (s : State) (i : Instr) : (s.unowe i).pubs = s.pubs := rfl
@[simp] theorem unowe_migrations (s : State) (i : Instr) : (s.unowe i).migrations = s.migrations := rfl
@[simp] theorem unowe_twins (s : State) (i : Instr) : (s.unowe i).twins = s.twins := rfl
@[simp] theorem unowe_objects (s : State) (i : Instr) : (s.unowe i).objects = s.objects := rfl
@[simp] theorem unowe_scrubs (s : State) (i : Instr) : (s.unowe i).scrubs = s.scrubs := rfl
@[simp] theorem unowe_planes (s : State) (i : Instr) : (s.unowe i).planes = s.planes := rfl
@[simp] theorem unowe_nextPlanes (s : State) (i : Instr) : (s.unowe i).nextPlanes = s.nextPlanes := rfl
@[simp] theorem unowe_kept (s : State) (i : Instr) : (s.unowe i).kept = s.kept := rfl
@[simp] theorem unowe_links (s : State) (i : Instr) : (s.unowe i).links = s.links := rfl
@[simp] theorem unowe_linksDown (s : State) (i : Instr) : (s.unowe i).linksDown = s.linksDown := rfl
@[simp] theorem unowe_cache (s : State) (i : Instr) : (s.unowe i).cache = s.cache := rfl
@[simp] theorem unowe_expiry (s : State) (i : Instr) : (s.unowe i).expiry = s.expiry := rfl
@[simp] theorem unowe_busy (s : State) (i : Instr) : (s.unowe i).busy = s.busy := rfl
@[simp] theorem unowe_exports (s : State) (i : Instr) : (s.unowe i).exports = s.exports := rfl
@[simp] theorem unowe_reorder (s : State) (i : Instr) : (s.unowe i).reorder = s.reorder := rfl
@[simp] theorem unowe_barriers (s : State) (i : Instr) : (s.unowe i).barriers = s.barriers := rfl
@[simp] theorem unowe_starts (s : State) (i : Instr) : (s.unowe i).starts = s.starts := rfl
@[simp] theorem unowe_facEnded (s : State) (i : Instr) : (s.unowe i).facEnded = s.facEnded := rfl
@[simp] theorem unowe_routers (s : State) (i : Instr) : (s.unowe i).routers = s.routers := rfl
@[simp] theorem unowe_frames (s : State) (i : Instr) : (s.unowe i).frames = s.frames := rfl
@[simp] theorem unowe_areas (s : State) (i : Instr) : (s.unowe i).areas = s.areas := rfl
@[simp] theorem unowe_scrubAreas (s : State) (i : Instr) : (s.unowe i).scrubAreas = s.scrubAreas := rfl
@[simp] theorem unowe_scrubAt (s : State) (i : Instr) : (s.unowe i).scrubAt = s.scrubAt := rfl
@[simp] theorem unowe_stalls (s : State) (i : Instr) : (s.unowe i).stalls = s.stalls := rfl
@[simp] theorem unowe_far (s : State) (i : Instr) : (s.unowe i).far = s.far := rfl
@[simp] theorem unowe_bgbud (s : State) (i : Instr) : (s.unowe i).bgbud = s.bgbud := rfl
@[simp] theorem unowe_bguse (s : State) (i : Instr) : (s.unowe i).bguse = s.bguse := rfl
@[simp] theorem unowe_warncfg (s : State) (i : Instr) : (s.unowe i).warncfg = s.warncfg := rfl
@[simp] theorem unowe_errors (s : State) (i : Instr) : (s.unowe i).errors = s.errors := rfl
@[simp] theorem unowe_errHist (s : State) (i : Instr) : (s.unowe i).errHist = s.errHist := rfl
@[simp] theorem unowe_plog (s : State) (i : Instr) : (s.unowe i).plog = s.plog := rfl
@[simp] theorem unowe_passTime (s : State) (i : Instr) : (s.unowe i).passTime = s.passTime := rfl
@[simp] theorem unowe_facs (s : State) (i : Instr) : (s.unowe i).facs = s.facs := rfl
@[simp] theorem unowe_meters (s : State) (i : Instr) : (s.unowe i).meters = s.meters := rfl
@[simp] theorem unowe_statements (s : State) (i : Instr) : (s.unowe i).statements = s.statements := rfl
@[simp] theorem unowe_chained (s : State) (i : Instr) : (s.unowe i).chained = s.chained := rfl
@[simp] theorem unowe_slices (s : State) (i : Instr) : (s.unowe i).slices = s.slices := rfl
@[simp] theorem unowe_spares (s : State) (i : Instr) : (s.unowe i).spares = s.spares := rfl
@[simp] theorem unowe_retired (s : State) (i : Instr) : (s.unowe i).retired = s.retired := rfl
@[simp] theorem unowe_clusterMap (s : State) (i : Instr) : (s.unowe i).clusterMap = s.clusterMap := rfl
@[simp] theorem unowe_stackMap (s : State) (i : Instr) : (s.unowe i).stackMap = s.stackMap := rfl
@[simp] theorem unowe_windows (s : State) (i : Instr) : (s.unowe i).windows = s.windows := rfl
@[simp] theorem unowe_mailboxes (s : State) (i : Instr) : (s.unowe i).mailboxes = s.mailboxes := rfl
@[simp] theorem unowe_startMode (s : State) (i : Instr) : (s.unowe i).startMode = s.startMode := rfl
@[simp] theorem unowe_startReason (s : State) (i : Instr) : (s.unowe i).startReason = s.startReason := rfl
@[simp] theorem unowe_startFails (s : State) (i : Instr) : (s.unowe i).startFails = s.startFails := rfl
@[simp] theorem unowe_portsDown (s : State) (i : Instr) : (s.unowe i).portsDown = s.portsDown := rfl
@[simp] theorem unowe_up (s : State) (i : Instr) : (s.unowe i).up = s.up := rfl
@[simp] theorem unowe_attempting (s : State) (i : Instr) : (s.unowe i).attempting = s.attempting := rfl
@[simp] theorem unowe_minDie (s : State) (i : Instr) : (s.unowe i).minDie = s.minDie := rfl
@[simp] theorem unowe_pwrLimit (s : State) (i : Instr) : (s.unowe i).pwrLimit = s.pwrLimit := rfl
@[simp] theorem unowe_clockStep (s : State) (i : Instr) : (s.unowe i).clockStep = s.clockStep := rfl
@[simp] theorem unowe_throttled (s : State) (i : Instr) : (s.unowe i).throttled = s.throttled := rfl
@[simp] theorem unowe_sensors (s : State) (i : Instr) : (s.unowe i).sensors = s.sensors := rfl
@[simp] theorem unowe_eid (s : State) (i : Instr) : (s.unowe i).eid = s.eid := rfl
@[simp] theorem unowe_spdm (s : State) (i : Instr) : (s.unowe i).spdm = s.spdm := rfl
@[simp] theorem unowe_recalls (s : State) (i : Instr) : (s.unowe i).recalls = s.recalls := rfl

@[simp] theorem oweOnce_cur (s : State) (i : Instr) : (s.oweOnce i).cur = s.cur := by unfold State.oweOnce; split <;> rfl
@[simp] theorem oweOnce_inbox (s : State) (i : Instr) : (s.oweOnce i).inbox = s.inbox := by unfold State.oweOnce; split <;> rfl
@[simp] theorem oweOnce_begun (s : State) (i : Instr) : (s.oweOnce i).begun = s.begun := by unfold State.oweOnce; split <;> rfl
@[simp] theorem oweOnce_out (s : State) (i : Instr) : (s.oweOnce i).out = s.out := by unfold State.oweOnce; split <;> rfl
@[simp] theorem oweOnce_nextId (s : State) (i : Instr) : (s.oweOnce i).nextId = s.nextId := by unfold State.oweOnce; split <;> rfl
@[simp] theorem oweOnce_issues (s : State) (i : Instr) : (s.oweOnce i).issues = s.issues := by unfold State.oweOnce; split <;> rfl
@[simp] theorem oweOnce_freeTick (s : State) (i : Instr) : (s.oweOnce i).freeTick = s.freeTick := by unfold State.oweOnce; split <;> rfl
@[simp] theorem oweOnce_part (s : State) (i : Instr) : (s.oweOnce i).part = s.part := by unfold State.oweOnce; split <;> rfl
@[simp] theorem oweOnce_cap (s : State) (i : Instr) : (s.oweOnce i).cap = s.cap := by unfold State.oweOnce; split <;> rfl
@[simp] theorem oweOnce_teams (s : State) (i : Instr) : (s.oweOnce i).teams = s.teams := by unfold State.oweOnce; split <;> rfl
@[simp] theorem oweOnce_launches (s : State) (i : Instr) : (s.oweOnce i).launches = s.launches := by unfold State.oweOnce; split <;> rfl
@[simp] theorem oweOnce_queues (s : State) (i : Instr) : (s.oweOnce i).queues = s.queues := by unfold State.oweOnce; split <;> rfl
@[simp] theorem oweOnce_served (s : State) (i : Instr) : (s.oweOnce i).served = s.served := by unfold State.oweOnce; split <;> rfl
@[simp] theorem oweOnce_images (s : State) (i : Instr) : (s.oweOnce i).images = s.images := by unfold State.oweOnce; split <;> rfl
@[simp] theorem oweOnce_ctxs (s : State) (i : Instr) : (s.oweOnce i).ctxs = s.ctxs := by unfold State.oweOnce; split <;> rfl
@[simp] theorem oweOnce_cores (s : State) (i : Instr) : (s.oweOnce i).cores = s.cores := by unfold State.oweOnce; split <;> rfl
@[simp] theorem oweOnce_coreCtxs (s : State) (i : Instr) : (s.oweOnce i).coreCtxs = s.coreCtxs := by unfold State.oweOnce; split <;> rfl
@[simp] theorem oweOnce_stamps (s : State) (i : Instr) : (s.oweOnce i).stamps = s.stamps := by unfold State.oweOnce; split <;> rfl
@[simp] theorem oweOnce_decisions (s : State) (i : Instr) : (s.oweOnce i).decisions = s.decisions := by unfold State.oweOnce; split <;> rfl
@[simp] theorem oweOnce_mem (s : State) (i : Instr) : (s.oweOnce i).mem = s.mem := by unfold State.oweOnce; split <;> rfl
@[simp] theorem oweOnce_held (s : State) (i : Instr) : (s.oweOnce i).held = s.held := by unfold State.oweOnce; split <;> rfl
@[simp] theorem oweOnce_marks (s : State) (i : Instr) : (s.oweOnce i).marks = s.marks := by unfold State.oweOnce; split <;> rfl
@[simp] theorem oweOnce_poison (s : State) (i : Instr) : (s.oweOnce i).poison = s.poison := by unfold State.oweOnce; split <;> rfl
@[simp] theorem oweOnce_accesses (s : State) (i : Instr) : (s.oweOnce i).accesses = s.accesses := by unfold State.oweOnce; split <;> rfl
@[simp] theorem oweOnce_wc (s : State) (i : Instr) : (s.oweOnce i).wc = s.wc := by unfold State.oweOnce; split <;> rfl
@[simp] theorem oweOnce_heldOut (s : State) (i : Instr) : (s.oweOnce i).heldOut = s.heldOut := by unfold State.oweOnce; split <;> rfl
@[simp] theorem oweOnce_reqs (s : State) (i : Instr) : (s.oweOnce i).reqs = s.reqs := by unfold State.oweOnce; split <;> rfl
@[simp] theorem oweOnce_rids (s : State) (i : Instr) : (s.oweOnce i).rids = s.rids := by unfold State.oweOnce; split <;> rfl
@[simp] theorem oweOnce_faultq (s : State) (i : Instr) : (s.oweOnce i).faultq = s.faultq := by unfold State.oweOnce; split <;> rfl
@[simp] theorem oweOnce_copies (s : State) (i : Instr) : (s.oweOnce i).copies = s.copies := by unfold State.oweOnce; split <;> rfl
@[simp] theorem oweOnce_sends (s : State) (i : Instr) : (s.oweOnce i).sends = s.sends := by unfold State.oweOnce; split <;> rfl
@[simp] theorem oweOnce_works (s : State) (i : Instr) : (s.oweOnce i).works = s.works := by unfold State.oweOnce; split <;> rfl
@[simp] theorem oweOnce_tileops (s : State) (i : Instr) : (s.oweOnce i).tileops = s.tileops := by unfold State.oweOnce; split <;> rfl
@[simp] theorem oweOnce_slips (s : State) (i : Instr) : (s.oweOnce i).slips = s.slips := by unfold State.oweOnce; split <;> rfl
@[simp] theorem oweOnce_accessions (s : State) (i : Instr) : (s.oweOnce i).accessions = s.accessions := by unfold State.oweOnce; split <;> rfl
@[simp] theorem oweOnce_colls (s : State) (i : Instr) : (s.oweOnce i).colls = s.colls := by unfold State.oweOnce; split <;> rfl
@[simp] theorem oweOnce_pubs (s : State) (i : Instr) : (s.oweOnce i).pubs = s.pubs := by unfold State.oweOnce; split <;> rfl
@[simp] theorem oweOnce_migrations (s : State) (i : Instr) : (s.oweOnce i).migrations = s.migrations := by unfold State.oweOnce; split <;> rfl
@[simp] theorem oweOnce_twins (s : State) (i : Instr) : (s.oweOnce i).twins = s.twins := by unfold State.oweOnce; split <;> rfl
@[simp] theorem oweOnce_objects (s : State) (i : Instr) : (s.oweOnce i).objects = s.objects := by unfold State.oweOnce; split <;> rfl
@[simp] theorem oweOnce_scrubs (s : State) (i : Instr) : (s.oweOnce i).scrubs = s.scrubs := by unfold State.oweOnce; split <;> rfl
@[simp] theorem oweOnce_planes (s : State) (i : Instr) : (s.oweOnce i).planes = s.planes := by unfold State.oweOnce; split <;> rfl
@[simp] theorem oweOnce_nextPlanes (s : State) (i : Instr) : (s.oweOnce i).nextPlanes = s.nextPlanes := by unfold State.oweOnce; split <;> rfl
@[simp] theorem oweOnce_kept (s : State) (i : Instr) : (s.oweOnce i).kept = s.kept := by unfold State.oweOnce; split <;> rfl
@[simp] theorem oweOnce_links (s : State) (i : Instr) : (s.oweOnce i).links = s.links := by unfold State.oweOnce; split <;> rfl
@[simp] theorem oweOnce_linksDown (s : State) (i : Instr) : (s.oweOnce i).linksDown = s.linksDown := by unfold State.oweOnce; split <;> rfl
@[simp] theorem oweOnce_cache (s : State) (i : Instr) : (s.oweOnce i).cache = s.cache := by unfold State.oweOnce; split <;> rfl
@[simp] theorem oweOnce_expiry (s : State) (i : Instr) : (s.oweOnce i).expiry = s.expiry := by unfold State.oweOnce; split <;> rfl
@[simp] theorem oweOnce_busy (s : State) (i : Instr) : (s.oweOnce i).busy = s.busy := by unfold State.oweOnce; split <;> rfl
@[simp] theorem oweOnce_exports (s : State) (i : Instr) : (s.oweOnce i).exports = s.exports := by unfold State.oweOnce; split <;> rfl
@[simp] theorem oweOnce_reorder (s : State) (i : Instr) : (s.oweOnce i).reorder = s.reorder := by unfold State.oweOnce; split <;> rfl
@[simp] theorem oweOnce_barriers (s : State) (i : Instr) : (s.oweOnce i).barriers = s.barriers := by unfold State.oweOnce; split <;> rfl
@[simp] theorem oweOnce_starts (s : State) (i : Instr) : (s.oweOnce i).starts = s.starts := by unfold State.oweOnce; split <;> rfl
@[simp] theorem oweOnce_facEnded (s : State) (i : Instr) : (s.oweOnce i).facEnded = s.facEnded := by unfold State.oweOnce; split <;> rfl
@[simp] theorem oweOnce_routers (s : State) (i : Instr) : (s.oweOnce i).routers = s.routers := by unfold State.oweOnce; split <;> rfl
@[simp] theorem oweOnce_frames (s : State) (i : Instr) : (s.oweOnce i).frames = s.frames := by unfold State.oweOnce; split <;> rfl
@[simp] theorem oweOnce_areas (s : State) (i : Instr) : (s.oweOnce i).areas = s.areas := by unfold State.oweOnce; split <;> rfl
@[simp] theorem oweOnce_scrubAreas (s : State) (i : Instr) : (s.oweOnce i).scrubAreas = s.scrubAreas := by unfold State.oweOnce; split <;> rfl
@[simp] theorem oweOnce_scrubAt (s : State) (i : Instr) : (s.oweOnce i).scrubAt = s.scrubAt := by unfold State.oweOnce; split <;> rfl
@[simp] theorem oweOnce_stalls (s : State) (i : Instr) : (s.oweOnce i).stalls = s.stalls := by unfold State.oweOnce; split <;> rfl
@[simp] theorem oweOnce_far (s : State) (i : Instr) : (s.oweOnce i).far = s.far := by unfold State.oweOnce; split <;> rfl
@[simp] theorem oweOnce_bgbud (s : State) (i : Instr) : (s.oweOnce i).bgbud = s.bgbud := by unfold State.oweOnce; split <;> rfl
@[simp] theorem oweOnce_bguse (s : State) (i : Instr) : (s.oweOnce i).bguse = s.bguse := by unfold State.oweOnce; split <;> rfl
@[simp] theorem oweOnce_warncfg (s : State) (i : Instr) : (s.oweOnce i).warncfg = s.warncfg := by unfold State.oweOnce; split <;> rfl
@[simp] theorem oweOnce_errors (s : State) (i : Instr) : (s.oweOnce i).errors = s.errors := by unfold State.oweOnce; split <;> rfl
@[simp] theorem oweOnce_errHist (s : State) (i : Instr) : (s.oweOnce i).errHist = s.errHist := by unfold State.oweOnce; split <;> rfl
@[simp] theorem oweOnce_plog (s : State) (i : Instr) : (s.oweOnce i).plog = s.plog := by unfold State.oweOnce; split <;> rfl
@[simp] theorem oweOnce_passTime (s : State) (i : Instr) : (s.oweOnce i).passTime = s.passTime := by unfold State.oweOnce; split <;> rfl
@[simp] theorem oweOnce_facs (s : State) (i : Instr) : (s.oweOnce i).facs = s.facs := by unfold State.oweOnce; split <;> rfl
@[simp] theorem oweOnce_meters (s : State) (i : Instr) : (s.oweOnce i).meters = s.meters := by unfold State.oweOnce; split <;> rfl
@[simp] theorem oweOnce_statements (s : State) (i : Instr) : (s.oweOnce i).statements = s.statements := by unfold State.oweOnce; split <;> rfl
@[simp] theorem oweOnce_chained (s : State) (i : Instr) : (s.oweOnce i).chained = s.chained := by unfold State.oweOnce; split <;> rfl
@[simp] theorem oweOnce_slices (s : State) (i : Instr) : (s.oweOnce i).slices = s.slices := by unfold State.oweOnce; split <;> rfl
@[simp] theorem oweOnce_spares (s : State) (i : Instr) : (s.oweOnce i).spares = s.spares := by unfold State.oweOnce; split <;> rfl
@[simp] theorem oweOnce_retired (s : State) (i : Instr) : (s.oweOnce i).retired = s.retired := by unfold State.oweOnce; split <;> rfl
@[simp] theorem oweOnce_clusterMap (s : State) (i : Instr) : (s.oweOnce i).clusterMap = s.clusterMap := by unfold State.oweOnce; split <;> rfl
@[simp] theorem oweOnce_stackMap (s : State) (i : Instr) : (s.oweOnce i).stackMap = s.stackMap := by unfold State.oweOnce; split <;> rfl
@[simp] theorem oweOnce_windows (s : State) (i : Instr) : (s.oweOnce i).windows = s.windows := by unfold State.oweOnce; split <;> rfl
@[simp] theorem oweOnce_mailboxes (s : State) (i : Instr) : (s.oweOnce i).mailboxes = s.mailboxes := by unfold State.oweOnce; split <;> rfl
@[simp] theorem oweOnce_startMode (s : State) (i : Instr) : (s.oweOnce i).startMode = s.startMode := by unfold State.oweOnce; split <;> rfl
@[simp] theorem oweOnce_startReason (s : State) (i : Instr) : (s.oweOnce i).startReason = s.startReason := by unfold State.oweOnce; split <;> rfl
@[simp] theorem oweOnce_startFails (s : State) (i : Instr) : (s.oweOnce i).startFails = s.startFails := by unfold State.oweOnce; split <;> rfl
@[simp] theorem oweOnce_portsDown (s : State) (i : Instr) : (s.oweOnce i).portsDown = s.portsDown := by unfold State.oweOnce; split <;> rfl
@[simp] theorem oweOnce_up (s : State) (i : Instr) : (s.oweOnce i).up = s.up := by unfold State.oweOnce; split <;> rfl
@[simp] theorem oweOnce_attempting (s : State) (i : Instr) : (s.oweOnce i).attempting = s.attempting := by unfold State.oweOnce; split <;> rfl
@[simp] theorem oweOnce_minDie (s : State) (i : Instr) : (s.oweOnce i).minDie = s.minDie := by unfold State.oweOnce; split <;> rfl
@[simp] theorem oweOnce_pwrLimit (s : State) (i : Instr) : (s.oweOnce i).pwrLimit = s.pwrLimit := by unfold State.oweOnce; split <;> rfl
@[simp] theorem oweOnce_clockStep (s : State) (i : Instr) : (s.oweOnce i).clockStep = s.clockStep := by unfold State.oweOnce; split <;> rfl
@[simp] theorem oweOnce_throttled (s : State) (i : Instr) : (s.oweOnce i).throttled = s.throttled := by unfold State.oweOnce; split <;> rfl
@[simp] theorem oweOnce_sensors (s : State) (i : Instr) : (s.oweOnce i).sensors = s.sensors := by unfold State.oweOnce; split <;> rfl
@[simp] theorem oweOnce_eid (s : State) (i : Instr) : (s.oweOnce i).eid = s.eid := by unfold State.oweOnce; split <;> rfl
@[simp] theorem oweOnce_spdm (s : State) (i : Instr) : (s.oweOnce i).spdm = s.spdm := by unfold State.oweOnce; split <;> rfl
@[simp] theorem oweOnce_recalls (s : State) (i : Instr) : (s.oweOnce i).recalls = s.recalls := by unfold State.oweOnce; split <;> rfl

@[simp] theorem onTeam_teams (s : State) (u : Nat) (f : Team → Team) : (s.onTeam u f).teams = modTeam u f s.teams := rfl
@[simp] theorem onLaunch_launches (s : State) (u : Nat) (f : Launch → Launch) :
    (s.onLaunch u f).launches = s.launches.map (fun l => if l.uid = u then f l else l) := rfl
@[simp] theorem onCtx_ctxs (s : State) (n : Nat) (f : Ctx → Ctx) :
    (s.onCtx n f).ctxs = s.ctxs.map (fun c => if c.num = n then f c else c) := rfl
@[simp] theorem onTwin_twins (s : State) (n : Nat) (f : Twin → Twin) :
    (s.onTwin n f).twins = s.twins.map (fun w => if w.num = n then f w else w) := rfl
@[simp] theorem send_out (s : State) (n : Notice) : (s.send n).out = n :: s.out := rfl
@[simp] theorem owe_due (s : State) (i : Instr) : (s.owe i).due = s.due ++ [i] := rfl

end Sys2Proof.Machine
end

