-- ==== Sys2Proof/Laws/Issue.lean ====
section
/-!
SUPPORT. What retiring an issue does, once for every instruction.
-/
namespace Sys2Proof.Machine

open Host (Outcome Cell)

theorem issue_spec {s : State} {i : Issue} (h : s.issue? = some i) :
    s.cur = some i.cur ∧ s.team? i.cur.team = some i.team ∧ i.team.group? i.cur.grp = some i.grp ∧
    s.launch? i.team.launch = some i.launch ∧ s.image? i.launch.image = some i.image := by
  unfold State.issue? at h
  split at h
  · cases h
  · rename_i c hc
    split at h
    · cases h
    · rename_i tm ht
      split at h
      · rename_i g l hg hl
        split at h
        · rename_i m hm
          cases h
          exact ⟨hc, ht, hg, hl, hm⟩
        · cases h
      · cases h

theorem findTeam_mod (u : Nat) (f : Team → Team) (hf : ∀ t, (f t).uid = t.uid) (ts : List Team) (v : Nat) :
    findTeam v (modTeam u f ts) = if v = u then (findTeam u ts).map f else findTeam v ts := by
  induction ts with
  | nil => simp [modTeam, findTeam]
  | cons t ts ih =>
    by_cases h : t.uid = u
    · by_cases hv : v = u
      · subst hv; simp [modTeam, findTeam, h, hf]
      · have : ¬ u = v := fun e => hv e.symm
        simp [modTeam, findTeam, h, hf, hv, this]
    · by_cases hv : v = u
      · subst hv; simp [modTeam, findTeam, h, ih]
      · by_cases ht : t.uid = v <;> simp [modTeam, findTeam, h, ih, hv, ht]

theorem team_onTeam (s : State) (u v : Nat) (f : Team → Team) (hf : ∀ t, (f t).uid = t.uid) :
    (s.onTeam u f).team? v = if v = u then (s.team? u).map f else s.team? v := findTeam_mod u f hf s.teams v

theorem group_modGroup (t : Team) (k : Nat) (f : Group → Group) (hf : ∀ g, g.idx = k → (f g).idx = k) :
    (t.modGroup k f).group? k = (t.group? k).map f := by
  unfold Team.group? Team.modGroup
  simp only
  induction t.groups with
  | nil => rfl
  | cons g gs ih =>
    by_cases h : g.idx = k
    · have := hf g h
      simp [List.find?, h, this]
    · have h2 : ((if g.idx = k then f g else g).idx == k) = false := by simp [h]
      have h3 : (g.idx == k) = false := by simp [h]
      simp only [List.map_cons, List.find?_cons, h2, h3]
      exact ih

theorem group_onGroup (s : State) (u k : Nat) (f : Group → Group) (hf : ∀ g, g.idx = k → (f g).idx = k) :
    (s.onGroup u k f).group? u k = (s.group? u k).map f := by
  unfold State.group? State.onGroup
  rw [team_onTeam s u u (fun t => t.modGroup k f) (fun _ => rfl)]
  cases h : s.team? u with
  | none => simp
  | some t => simp [group_modGroup _ _ _ hf]

/-! ### Lanes -/

theorem getAt_map {α β : Type} (f : α → β) (xs : List α) (k : Nat) (a : α) (b : β) (h : f a = b) :
    getAt (xs.map f) k b = f (getAt xs k a) := by
  induction xs generalizing k with
  | nil => simp [getAt, h]
  | cons x xs ih => cases k with
    | zero => simp [getAt]
    | succ k => simpa [getAt] using ih k

theorem getAt_mapFrom {α β : Type} (f : Nat → α → β) (xs : List α) (n k : Nat) (a : α) (b : β) (h : k < xs.length) :
    getAt (mapFrom f n xs) k b = f (n + k) (getAt xs k a) := by
  induction xs generalizing n k with
  | nil => simp at h
  | cons x xs ih => cases k with
    | zero => simp [mapFrom, getAt]
    | succ k =>
      have := ih (n + 1) k (by simpa using h)
      simpa [mapFrom, getAt, Nat.add_assoc, Nat.add_comm, Nat.add_left_comm] using this

theorem mapFrom_length {α β : Type} (f : Nat → α → β) (xs : List α) (n : Nat) : (mapFrom f n xs).length = xs.length := by
  induction xs generalizing n with
  | nil => rfl
  | cons x xs ih => simp [mapFrom, ih]

/-- Only the pcv and the wait of waiting lanes may differ. -/
structure Released (g g' : Group) : Prop where
  rest : { g' with lanes := g.lanes } = g
  width : g'.lanes.length = g.lanes.length
  regs : ∀ l, (g'.lane l).regs = (g.lane l).regs
  preds : ∀ l, (g'.lane l).preds = (g.lane l).preds
  exited : ∀ l, (g'.lane l).exited = (g.lane l).exited
  yx : ∀ l, (g'.lane l).yx = (g.lane l).yx
  free : ∀ l, (g.lane l).waitm = none → g'.lane l = g.lane l

theorem Released.refl (g : Group) : Released g g := ⟨rfl, rfl, fun _ => rfl, fun _ => rfl, fun _ => rfl, fun _ => rfl, fun _ _ => rfl⟩

theorem Released.trans {a b c : Group} (h : Released a b) (k : Released b c) : Released a c where
  rest := by
    have h1 := h.rest; have h2 := k.rest
    rw [← h2] at h1; exact h1
  width := k.width.trans h.width
  regs l := (k.regs l).trans (h.regs l)
  preds l := (k.preds l).trans (h.preds l)
  exited l := (k.exited l).trans (h.exited l)
  yx l := (k.yx l).trans (h.yx l)
  free l hl := by
    have e := h.free l hl
    rw [k.free l (by rw [e]; exact hl), e]

theorem release_released (g : Group) (n : Nat) (w : Word) : Released g (g.release n w) := by
  have key : ∀ l, (g.release n w).lane l = (if (g.lane l).waitm = some n ∧ (g.lane l).pcv = w ∧ (g.lane l).exited = false
      then { g.lane l with waitm := none, pcv := w + 4 } else g.lane l) := by
    intro l
    unfold Group.release Group.lane
    exact getAt_map (fun (l : Lane) => if l.waitm = some n ∧ l.pcv = w ∧ l.exited = false
      then { l with waitm := none, pcv := w + 4 } else l) g.lanes l ⟨[], 1, 0, true, none, false⟩ ⟨[], 1, 0, true, none, false⟩ (by simp)
  refine ⟨rfl, by simp [Group.release], ?_, ?_, ?_, ?_, ?_⟩ <;> intro l
  · rw [key]; split <;> rfl
  · rw [key]; split <;> rfl
  · rw [key]; split <;> rfl
  · rw [key]; split <;> rfl
  · intro h; rw [key]; simp [h]

theorem foldl_released {α : Type} (f : Group → α → Group) (hf : ∀ g x, Released g (f g x)) (xs : List α) (g : Group) :
    Released g (xs.foldl f g) := by
  induction xs generalizing g with
  | nil => exact Released.refl g
  | cons x xs ih => exact (hf g x).trans (ih _)

theorem testMasks_released (g : Group) : Released g g.testMasks := by
  unfold Group.testMasks
  refine foldl_released _ (fun g n => foldl_released _ (fun g w => ?_) _ _) _ _
  split
  · exact release_released g n w
  · exact Released.refl g

/-! ### The parts of a state that an issue touches -/

theorem find_map_keep {α : Type} (g : α → α) (p : α → Bool) (hp : ∀ x, p (g x) = p x) (xs : List α) :
    (xs.map g).find? p = (xs.find? p).map g := by
  induction xs with
  | nil => rfl
  | cons x xs ih =>
    simp only [List.map_cons, List.find?_cons, hp, ih]
    cases p x <;> rfl

theorem core_onCore (s : State) (c d : Nat) (f : CoreSt → CoreSt) (hf : ∀ x, (f x).core = x.core) :
    (s.onCore c f).core d = if d = c then f (s.core c) else s.core d := by
  unfold State.onCore
  split
  · rename_i hany
    have hk : ∀ x : CoreSt, ((if x.core = c then f x else x).core == d) = (x.core == d) := by
      intro x; split <;> simp [hf]
    show ((s.cores.map (fun x => if x.core = c then f x else x)).find? (fun x => x.core == d)).getD (CoreSt.fresh d) = _
    rw [find_map_keep _ _ hk]
    unfold State.core
    cases hfd : s.cores.find? (fun x => x.core == d) with
    | some x =>
      have hxd : x.core = d := by simpa using List.find?_some hfd
      by_cases hd : d = c
      · subst hd; simp [hxd, hfd]
      · have hcd : ¬ x.core = c := by rw [hxd]; exact hd
        simp [hcd, hd]
    | none =>
      by_cases hd : d = c
      · subst hd
        rw [List.find?_eq_none] at hfd
        rw [List.any_eq_true] at hany
        obtain ⟨x, hx, hp⟩ := hany
        exact absurd hp (hfd x hx)
      · simp [hd]
  · rename_i hany
    show ((f (CoreSt.fresh c) :: s.cores).find? (fun x => x.core == d)).getD (CoreSt.fresh d) = _
    have hfc : (f (CoreSt.fresh c)).core = c := hf _
    by_cases hd : d = c
    · subst hd
      have hn : s.cores.find? (fun x => x.core == d) = none := by
        rw [List.find?_eq_none]
        intro x hx hp
        exact hany (List.any_eq_true.mpr ⟨x, hx, hp⟩)
      simp [hfc, State.core, hn]
    · have hcd : (c == d) = false := by simp only [beq_eq_false_iff_ne]; exact fun e => hd e.symm
      simp [hfc, hd, hcd, State.core]

theorem coreCtx_onCoreCtx (s : State) (c x c' x' : Nat) (f : CoreCtx → CoreCtx) (hc : ∀ r, (f r).core = r.core)
    (hx : ∀ r, (f r).ctx = r.ctx) :
    (s.onCoreCtx c x f).coreCtx c' x' = if c' = c ∧ x' = x then f (s.coreCtx c x) else s.coreCtx c' x' := by
  unfold State.onCoreCtx
  split
  · rename_i hany
    have hk : ∀ r : CoreCtx, ((if r.core = c ∧ r.ctx = x then f r else r).core == c' && (if r.core = c ∧ r.ctx = x then f r else r).ctx == x') =
        (r.core == c' && r.ctx == x') := by
      intro r; split <;> simp [hc, hx]
    show ((s.coreCtxs.map (fun r => if r.core = c ∧ r.ctx = x then f r else r)).find? (fun r => r.core == c' && r.ctx == x')).getD (CoreCtx.fresh c' x') = _
    rw [find_map_keep _ _ hk]
    unfold State.coreCtx
    cases hfd : s.coreCtxs.find? (fun r => r.core == c' && r.ctx == x') with
    | some r =>
      have hr : r.core = c' ∧ r.ctx = x' := by simpa using List.find?_some hfd
      by_cases hd : c' = c ∧ x' = x
      · obtain ⟨rfl, rfl⟩ := hd; simp [hr, hfd]
      · have hcd : ¬ (r.core = c ∧ r.ctx = x) := by rw [hr.1, hr.2]; exact hd
        simp [hcd, hd]
    | none =>
      by_cases hd : c' = c ∧ x' = x
      · obtain ⟨rfl, rfl⟩ := hd
        rw [List.find?_eq_none] at hfd
        rw [List.any_eq_true] at hany
        obtain ⟨r, hr, hp⟩ := hany
        exact absurd hp (hfd r hr)
      · simp [hd]
  · rename_i hany
    show ((f (CoreCtx.fresh c x) :: s.coreCtxs).find? (fun r => r.core == c' && r.ctx == x')).getD (CoreCtx.fresh c' x') = _
    have h1 : (f (CoreCtx.fresh c x)).core = c := hc _
    have h2 : (f (CoreCtx.fresh c x)).ctx = x := hx _
    by_cases hd : c' = c ∧ x' = x
    · obtain ⟨rfl, rfl⟩ := hd
      have hn : s.coreCtxs.find? (fun r => r.core == c' && r.ctx == x') = none := by
        rw [List.find?_eq_none]
        intro r hr hp
        exact hany (List.any_eq_true.mpr ⟨r, hr, hp⟩)
      simp [h1, h2, State.coreCtx, hn]
    · have e1 : ((c == c') && (x == x')) = false := by
        rw [Bool.and_eq_false_iff]
        by_cases e : c' = c
        · right; simp only [beq_eq_false_iff_ne]; intro e2; exact hd ⟨e, e2.symm⟩
        · left; simp only [beq_eq_false_iff_ne]; exact fun e2 => e e2.symm
      simp [h1, h2, hd, e1, State.coreCtx]

/-- What stepping changes of a twin. -/
def Twin.stepTo (team grp : Nat) (trap : Bool) (w : Twin) : Twin :=
  match w.step with
  | some (t, g, n) => if t = team ∧ g = grp then { w with step := some (t, g, if trap then 0 else n - 1) } else w
  | none => w

theorem Twin.stepTo_only (team grp : Nat) (trap : Bool) (w : Twin) : { w.stepTo team grp trap with step := w.step } = w := by
  unfold Twin.stepTo
  split
  · split <;> rfl
  · rfl

theorem stepped_eq (s : State) (team grp : Nat) (trap : Bool) :
    s.stepped team grp trap = { s with twins := s.twins.map (Twin.stepTo team grp trap) } := by
  unfold State.stepped
  split
  · rename_i h
    have : s.twins = [] := by simpa using h
    cases s; simp_all
  · rfl

theorem twinNum_map (s : State) (k : Twin → Twin) (hk : ∀ w, { k w with step := w.step } = w) (n : Nat) :
    ({ s with twins := s.twins.map k } : State).twinNum? n = (s.twinNum? n).map k := by
  unfold State.twinNum?
  apply find_map_keep
  intro w
  have := congrArg Twin.num (hk w)
  simpa using congrArg (· == n) this

theorem viewByte_twins (s : State) (k : Twin → Twin) (hk : ∀ w, { k w with step := w.step } = w) (ctx a : Nat) :
    ({ s with twins := s.twins.map k } : State).viewByte ctx a = s.viewByte ctx a := by
  unfold State.viewByte
  rw [twinNum_map s k hk]
  cases s.twinNum? ctx with
  | none => rfl
  | some w =>
    have h : ∀ v, (k v).overlay = v.overlay := fun v => by simpa using congrArg Twin.overlay (hk v)
    have ho : (k w).orig = w.orig := by simpa using congrArg Twin.orig (hk w)
    simp only [Option.map_some, ho, twinNum_map s k hk, Option.bind_map, h, Function.comp_def]

/-- What an issue leaves of the group before the instruction's own effect. -/
def Issue.counted (i : Issue) (lt : Latch) (cycles : Dword) (n : Nat) (g : Group) : Group :=
  { g.count i.image.code i.cur.pc with
    latches := pushLatch lt (g.count i.image.code i.cur.pc).latches, lastExec := i.cur.exec, stall := 0, lapse := (g.count i.image.code i.cur.pc).lapseBut i.cur.exec, bpPass := false,
    twinPass := false, parked := [], refused := [], lineWait := [],
    cyc := (g.count i.image.code i.cur.pc).cyc + cycles, age := n + 1 }

theorem count_keeps (g : Group) (code : List Word) (pc : Word) :
    { g.count code pc with chain := g.chain, chpc := g.chpc, ret := g.ret } = g := by
  unfold Group.count
  split
  · split <;> rfl
  · split <;> rfl

theorem count_ret (g : Group) (code : List Word) (pc : Word) (h : g.chain = none) (hc : chainFrom code (pc.toNat / 4) = none) :
    (g.count code pc).ret = g.ret + 1 := by
  unfold Group.count; simp [h, hc]

/-- What ends an issue does to the group (R114, R339). -/
def pauseFor (claimed : Bool) (g : Group) : Group := if g.chain.isNone && claimed then { g with wait := .claim } else g

/-- The release test and the pause, after the instruction's own effect (R114, R339). -/
def settle (claimed : Bool) (g : Group) : Group := pauseFor claimed g.testMasks

theorem pauseFor_eq (c : Bool) (g : Group) : pauseFor c g = { g with wait := (pauseFor c g).wait } := by
  unfold pauseFor; split <;> rfl

theorem settle_eq (c : Bool) (g : Group) : ∃ x w, Released g x ∧ settle c g = { x with wait := w } :=
  ⟨g.testMasks, (pauseFor c g.testMasks).wait, testMasks_released g, pauseFor_eq c _⟩

theorem twins_erase (s : State) (team grp : Nat) (trap : Bool) :
    (s.twins.map (Twin.stepTo team grp trap)).map (fun w => { w with step := none }) = s.twins.map (fun w => { w with step := none }) := by
  rw [List.map_map]
  apply List.map_congr_left
  intro w _
  have h := Twin.stepTo_only team grp trap w
  show { Twin.stepTo team grp trap w with step := none } = { w with step := none }
  have h2 := congrArg (fun w => ({ w with step := none } : Twin)) h
  simpa using h2

theorem scratch_onGroup (s : State) (u k : Nat) (f : Group → Group) (v off : Nat) :
    ((s.onGroup u k f).team? v).map (fun x => Memory.get x.scratch off) = (s.team? v).map (fun x => Memory.get x.scratch off) := by
  have hg : (s.onGroup u k f).team? v = if v = u then (s.team? u).map (fun t => t.modGroup k f) else s.team? v :=
    team_onTeam s u v (fun t => t.modGroup k f) (fun _ => rfl)
  rw [hg]
  split
  · rename_i e; subst e; rw [Option.map_map]; rfl
  · rfl

/-- A state that differs from another only in its groups, cores, counts and the steps of its twins has the same bytes. -/
theorem sameBytes_of {s t : State} (u k : Nat) (f : Group → Group) (q : Twin → Twin) (hq : ∀ w, { q w with step := w.step } = w)
    (ht : t.teams = (s.onGroup u k f).teams) (hw : t.twins = s.twins.map q) (hm : t.mem = s.mem) (hh : t.held = s.held)
    (hc : t.wc = s.wc) (hp : t.part = s.part) (hpu : t.pubs = s.pubs) (hmi : t.migrations = s.migrations) : SameBytes s t := by
  have hv : ∀ ctx a, t.viewByte ctx a = s.viewByte ctx a := by
    intro ctx a
    rw [← viewByte_twins s q hq ctx a]
    unfold State.viewByte State.twinNum?
    simp only [hw, hm]
  have hsel : ∀ ctx p, t.selOf ctx p = s.selOf ctx p := by
    intro ctx p
    unfold State.selOf State.twinNum?
    rw [hw, show (s.twins.map q).find? (fun w => w.num == ctx) = (s.twins.find? (fun w => w.num == ctx)).map q from twinNum_map s q hq ctx]
    cases s.twins.find? (fun w => w.num == ctx) with
    | none => rfl
    | some w => simp only [Option.map_some, show (q w).sels = w.sels from by simpa using congrArg Twin.sels (hq w)]
  have hpl : ∀ ctx a, t.placeFor ctx a = s.placeFor ctx a := by
    intro ctx a; unfold State.placeFor State.moved State.effFor State.migration? State.pubAt?; simp only [hpu, hmi, hsel]
  refine ⟨hv, ?_, ?_⟩
  · intro u ctx core a
    unfold State.teamByte
    simp only [hc, hp, hh, hpl, hv]
  · intro v off
    rw [← scratch_onGroup s u k f v off]
    unfold State.team?
    rw [ht]

/-- All that retiring an issue does (R15, R29, R114): `f` is the instruction's own effect on the group. -/
theorem finish_spec {s : State} {i : Issue} (hs : s.group? i.cur.team i.cur.grp = some i.grp) (lt : Latch) (f : Group → Group)
    (hidx : ∀ g, (f g).idx = g.idx) :
    ∃ t cycles claimed, i.finish lt f s = .next t ∧
      t.group? i.cur.team i.cur.grp = some (settle claimed (f (i.counted lt cycles s.issues i.grp))) ∧
      { t with coreCtxs := s.coreCtxs, twins := s.twins, issues := s.issues, freeTick := s.freeTick } =
        s.onGroup i.cur.team i.cur.grp (fun g => settle claimed (f (i.counted lt cycles s.issues g))) ∧
      t.cores = s.cores ∧
      (∀ c x, { t.coreCtx c x with wdog := (s.coreCtx c x).wdog } = s.coreCtx c x) ∧
      t.twins.map (fun w => { w with step := none }) = s.twins.map (fun w => { w with step := none }) ∧
      SameBytes s t := by
  have hset : ∀ c g, (settle c g).idx = g.idx := by
    intro c g
    obtain ⟨x, w, hx, e⟩ := settle_eq c g
    rw [e]
    have h := congrArg Group.idx hx.rest
    exact h
  have hcnt : ∀ c n g, (i.counted lt c n g).idx = g.idx := by
    intro c n g
    have := congrArg Group.idx (count_keeps g i.image.code i.cur.pc)
    simpa [Issue.counted] using this
  refine ⟨_, s.cyclesOf i.team.ctx, s.claimed i.cur.team i.cur.grp, rfl, ?_⟩
  let F : Group → Group := fun g => settle (s.claimed i.cur.team i.cur.grp) (f (i.counted lt (s.cyclesOf i.team.ctx) s.issues g))
  let s1 := s.onGroup i.cur.team i.cur.grp F
  let s2 := s1.stepped i.cur.team i.cur.grp false
  let cc : CoreCtx → CoreCtx := fun c => { c with wdog := tickDog (((s2.ctx? i.team.ctx).map (fun c => c.wdogLimit)).getD 0) c.wdog (s.cyclesOf i.team.ctx) }
  let s3 := s2.onCoreCtx i.grp.core i.team.ctx cc
  have e2 : s2 = { s1 with twins := s1.twins.map (Twin.stepTo i.cur.team i.cur.grp false) } := stepped_eq _ _ _ _
  show ({ s3 with issues := s.issues + 1, freeTick := s3.freeTick + 1 } : State).group? i.cur.team i.cur.grp = some (F i.grp) ∧
    ({ s3 with issues := s.issues, freeTick := s.freeTick, coreCtxs := s.coreCtxs, twins := s.twins } : State) = s1 ∧
    s3.cores = s.cores ∧
    (∀ c x, { s3.coreCtx c x with wdog := (s.coreCtx c x).wdog } = s.coreCtx c x) ∧
    s3.twins.map (fun w => { w with step := none }) = s.twins.map (fun w => { w with step := none }) ∧
    SameBytes s { s3 with issues := s.issues + 1, freeTick := s3.freeTick + 1 }
  have t3 : s3.teams = s1.teams := by simp only [s3, onCoreCtx_teams, e2]
  have w3 : s3.twins = s.twins.map (Twin.stepTo i.cur.team i.cur.grp false) := by
    simp only [s3, onCoreCtx_twins, e2]; rfl
  refine ⟨?_, ?_, ?_, ?_, ?_, ?_⟩
  · have hg := group_onGroup s i.cur.team i.cur.grp F (fun g hg => by simp only [F]; rw [hset, hidx, hcnt]; exact hg)
    rw [hs] at hg
    unfold State.group? State.team? at hg ⊢
    simp only [t3]
    exact hg
  · have e3 : s3 = { s2 with coreCtxs := s3.coreCtxs } := by
      show s2.onCoreCtx _ _ _ = { s2 with coreCtxs := (s2.onCoreCtx _ _ _).coreCtxs }
      unfold State.onCoreCtx; split <;> rfl
    rw [e3, e2]
    rfl
  · simp only [s3, onCoreCtx_cores, e2]; rfl
  · intro c x
    have h3 : s3.coreCtx c x = if c = i.grp.core ∧ x = i.team.ctx then cc (s2.coreCtx i.grp.core i.team.ctx) else s2.coreCtx c x :=
      coreCtx_onCoreCtx s2 _ _ _ _ cc (fun _ => rfl) (fun _ => rfl)
    have h2 : ∀ c x, s2.coreCtx c x = s.coreCtx c x := by
      intro c x; unfold State.coreCtx; simp only [e2]; rfl
    rw [h3]
    split
    · rename_i e; obtain ⟨rfl, rfl⟩ := e; rw [h2]
    · rw [h2]
  · rw [w3]; exact twins_erase s _ _ _
  · refine sameBytes_of i.cur.team i.cur.grp F _ (Twin.stepTo_only i.cur.team i.cur.grp false) t3 w3 ?_ ?_ ?_ ?_ ?_ ?_ <;>
      simp only [s3, onCoreCtx_mem, onCoreCtx_held, onCoreCtx_wc, onCoreCtx_part, onCoreCtx_pubs, onCoreCtx_migrations, e2] <;> rfl

theorem counted_keeps (i : Issue) (lt : Latch) (c : Dword) (n : Nat) (g : Group) : g.Keeps (i.counted lt c n g) := by
  have h := count_keeps g i.image.code i.cur.pc
  unfold Group.Keeps Issue.counted
  have h2 := congrArg (fun (x : Group) => ({ x with latches := g.latches, lastExec := g.lastExec, stall := g.stall, lapse := g.lapse, bpPass := g.bpPass, twinPass := g.twinPass, parked := g.parked, refused := g.refused, lineWait := g.lineWait, cyc := g.cyc, age := g.age, wait := g.wait, lanes := g.lanes } : Group)) h
  exact h2

theorem counted_lanes (i : Issue) (lt : Latch) (c : Dword) (n : Nat) (g : Group) : (i.counted lt c n g).lanes = g.lanes := by
  have h := congrArg Group.lanes (count_keeps g i.image.code i.cur.pc)
  simpa [Issue.counted] using h

theorem counted_wb (i : Issue) (lt : Latch) (c : Dword) (n : Nat) (g : Group) : (i.counted lt c n g).wb = g.wb := by
  have h := congrArg Group.wb (count_keeps g i.image.code i.cur.pc)
  simpa [Issue.counted] using h

theorem counted_latches (i : Issue) (lt : Latch) (c : Dword) (n : Nat) (g : Group) :
    (i.counted lt c n g).latches = (lt :: g.latches).take 8 := by
  have h := congrArg Group.latches (count_keeps g i.image.code i.cur.pc)
  simp only [Issue.counted, pushLatch]
  rw [show (g.count i.image.code i.cur.pc).latches = g.latches from by simpa using h]

theorem keeps_lanes {g x y : Group} (e : { x with lanes := y.lanes } = y) (k : g.Keeps y) : g.Keeps x := by
  unfold Group.Keeps at k ⊢
  have e2 := congrArg (fun (z : Group) => ({ z with lanes := g.lanes, latches := g.latches, lastExec := g.lastExec, chain := g.chain, chpc := g.chpc, ret := g.ret, cyc := g.cyc, wait := g.wait, stall := g.stall, lineWait := g.lineWait, lapse := g.lapse, parked := g.parked, refused := g.refused, bpPass := g.bpPass, twinPass := g.twinPass, age := g.age } : Group)) e
  exact e2.trans k

theorem keeps_wait {g x : Group} (w : Wait) (k : g.Keeps x) : g.Keeps { x with wait := w } := k

theorem keeps_settle {g g' : Group} (c : Bool) (h : g.Keeps g') : g.Keeps (settle c g') := by
  obtain ⟨x, w, hx, e⟩ := settle_eq c g'
  rw [e]
  exact keeps_wait w (keeps_lanes hx.rest h)

theorem lanes_settle {i : Issue} {g' : Group} {v : LaneView} (c : Bool) (h : LanesAre i g' v)
    (hw : ∀ l, l < i.width → (i.grp.lane l).waitm = none → (g'.lane l).waitm = none) : LanesAre i (settle c g') v := by
  obtain ⟨x, w, r, e⟩ := settle_eq c g'
  rw [e]
  have hl : ({ x with wait := w } : Group).lanes = x.lanes := rfl
  have hln : ∀ l, ({ x with wait := w } : Group).lane l = x.lane l := fun _ => rfl
  refine ⟨?_, ?_, ?_, ?_, ?_, ?_, ?_⟩
  · rw [hl, r.width]; exact h.width
  · intro l hl; rw [hln, r.regs]; exact h.size l hl
  · intro l hl p hp; unfold Lane.reg; rw [hln, r.regs]; exact h.regs l hl p hp
  · intro l hl; rw [hln, r.preds]; exact h.preds l hl
  · intro l hl; rw [hln, r.exited]; exact h.exited l hl
  · intro l hl; rw [hln, r.yx]; exact h.yx l hl
  · intro ha l hl
    rw [hln, r.free l (hw l hl (ha l hl))]
    exact h.pc ha l hl

/-- The group of an issue in its own state. -/
theorem issue_group {s : State} {i : Issue} (h : s.issue? = some i) : s.group? i.cur.team i.cur.grp = some i.grp := by
  obtain ⟨-, hteam, hgrp, -, -⟩ := issue_spec h
  unfold State.group?; rw [hteam]; exact hgrp

theorem ret_settle (c : Bool) (g : Group) : (settle c g).ret = g.ret := by
  obtain ⟨x, w, hx, e⟩ := settle_eq c g
  have h := congrArg Group.ret hx.rest
  rw [e]; exact h

theorem latches_settle (c : Bool) (g : Group) : (settle c g).latches = g.latches := by
  obtain ⟨x, w, hx, e⟩ := settle_eq c g
  have h := congrArg Group.latches hx.rest
  rw [e]; exact h

/-- What an issue does when it retires, for an instruction that changes its group's lanes and, by `k`, other fields of it. -/
theorem finish_acts {s : State} {i : Issue} (hs : s.group? i.cur.team i.cur.grp = some i.grp) (lt : Latch) (f k : Group → Group)
    (v : LaneView) (hk : ∀ g, { f g with lanes := g.lanes } = k g) (hi : ∀ g, (k g).idx = g.idx) (hr : ∀ g, (k g).ret = g.ret)
    (hlt : ∀ g, (k g).latches = g.latches) (hkeep : ∀ g g', g.Keeps g' → (k g).Keeps (k g'))
    (hl : ∀ g, g.lanes = i.grp.lanes → g.wb = i.grp.wb → LanesAre i (f g) v)
    (hw : ∀ g, g.lanes = i.grp.lanes → ∀ l, l < i.width → (i.grp.lane l).waitm = none → ((f g).lane l).waitm = none) :
    ∃ t g', i.finish lt f s = .next t ∧ Retires s t i g' ∧ SameBytes s t ∧ (k i.grp).Keeps g' ∧ LanesAre i g' v ∧ i.grp.Latched g' lt := by
  have hidx : ∀ g, (f g).idx = g.idx := fun g => by
    show ({ f g with lanes := g.lanes } : Group).idx = _
    rw [hk, hi]
  obtain ⟨t, c, cl, ht, hg, ho, h1, h2, h3, h4⟩ := finish_spec hs lt f hidx
  have hlanes := counted_lanes i lt c s.issues i.grp
  have hwb := counted_wb i lt c s.issues i.grp
  refine ⟨t, settle cl (f (i.counted lt c s.issues i.grp)), ht, ⟨hg, ⟨fun g => settle cl (f (i.counted lt c s.issues g)), rfl, ho⟩, h1, h2, h3, ?_⟩, h4, ?_, ?_, ?_⟩
  · intro hc hcf
    rw [ret_settle]
    have e2 : (f (i.counted lt c s.issues i.grp)).ret = (i.counted lt c s.issues i.grp).ret := by
      show ({ f (i.counted lt c s.issues i.grp) with lanes := (i.counted lt c s.issues i.grp).lanes } : Group).ret = _
      rw [hk, hr]
    rw [e2]
    exact count_ret i.grp i.image.code i.cur.pc hc hcf
  · apply keeps_settle
    have kk := hkeep _ _ (counted_keeps i lt c s.issues i.grp)
    have e := hk (i.counted lt c s.issues i.grp)
    rw [← e] at kk
    exact keeps_lanes (y := { f (i.counted lt c s.issues i.grp) with lanes := (i.counted lt c s.issues i.grp).lanes }) rfl kk
  · exact lanes_settle cl (hl _ hlanes hwb) (hw _ hlanes)
  · unfold Group.Latched
    rw [latches_settle]
    have e2 : (f (i.counted lt c s.issues i.grp)).latches = (i.counted lt c s.issues i.grp).latches := by
      show ({ f (i.counted lt c s.issues i.grp) with lanes := (i.counted lt c s.issues i.grp).lanes } : Group).latches = _
      rw [hk, hlt]
    rw [e2]
    exact counted_latches i lt c s.issues i.grp

/-- An instruction that changes only its group's lanes: what its issue does when it retires. -/
theorem finish_lanes {s : State} {i : Issue} (h : s.issue? = some i) (lt : Latch) (f : Group → Group) (v : LaneView)
    (hk : ∀ g, { f g with lanes := g.lanes } = g)
    (hl : ∀ g, g.lanes = i.grp.lanes → g.wb = i.grp.wb → LanesAre i (f g) v)
    (hw : ∀ g, g.lanes = i.grp.lanes → ∀ l, l < i.width → (i.grp.lane l).waitm = none → ((f g).lane l).waitm = none) :
    ∃ t g', i.finish lt f s = .next t ∧ Retires s t i g' ∧ SameBytes s t ∧ i.grp.Keeps g' ∧ LanesAre i g' v ∧ i.grp.Latched g' lt :=
  finish_acts (issue_group h) lt f id v hk (fun _ => rfl) (fun _ => rfl) (fun _ => rfl) (fun _ _ h => h) hl hw

end Sys2Proof.Machine
end

