-- ==== Sys2Proof/Laws/Lanes.lean ====
section
/-!
SUPPORT. What writing registers and predicates does to the lanes of a group, and what a register-only operation and a retired
instruction complete with.
-/
namespace Sys2Proof.Machine

open Host (Outcome Cell)

theorem lane_onLanes (g : Group) (m : LaneMask) (f : Nat → Lane → Lane) (l : Nat) (h : l < g.lanes.length) :
    (g.onLanes m f).lane l = if inMask m l then f l (g.lane l) else g.lane l := by
  unfold Group.lane Group.onLanes
  have := getAt_mapFrom (fun i l => if inMask m i then f i l else l) g.lanes 0 l ⟨[], 1, 0, true, none, false⟩
    (⟨[], 1, 0, true, none, false⟩ : Lane) h
  simpa using this

theorem length_onLanes (g : Group) (m : LaneMask) (f : Nat → Lane → Lane) : (g.onLanes m f).lanes.length = g.lanes.length :=
  mapFrom_length _ _ _

theorem keeps_onLanes (g : Group) (m : LaneMask) (f : Nat → Lane → Lane) : { g.onLanes m f with lanes := g.lanes } = g := rfl

theorem getAt_setAt {α : Type} (xs : List α) (i k : Nat) (v d : α) :
    getAt (setAt xs i v) k d = if k = i ∧ i < xs.length then v else getAt xs k d := by
  induction xs generalizing i k with
  | nil => simp [setAt, getAt]
  | cons x xs ih => cases i with
    | zero => cases k <;> simp [setAt, getAt]
    | succ i => cases k with
      | zero => simp [setAt, getAt]
      | succ k => simp [setAt, getAt, ih]

theorem setAt_length {α : Type} (xs : List α) (i : Nat) (v : α) : (setAt xs i v).length = xs.length := by
  induction xs generalizing i with
  | nil => rfl
  | cons x xs ih => cases i <;> simp [setAt, ih]

/-- The fold by which registers are written, from a physical index. -/
def putRegs (base : Nat) (ws : List Word) (l : Lane) : Lane :=
  (mapFrom (fun k v => (base + k, v)) 0 ws).foldl (fun l kv => l.setReg kv.1 kv.2) l

theorem putRegs_from (base n : Nat) (ws : List Word) (l : Lane) :
    let r := (mapFrom (fun k v => (base + k, v)) n ws).foldl (fun (l : Lane) kv => l.setReg kv.1 kv.2) l
    { r with regs := l.regs } = l ∧ r.regs.length = l.regs.length ∧
    ∀ p, p < l.regs.length → r.reg p = if base + n ≤ p ∧ p < base + n + ws.length then getAt ws (p - (base + n)) 0 else l.reg p := by
  induction ws generalizing n l with
  | nil => exact ⟨rfl, rfl, fun p _ => (if_neg (fun h => absurd h.2 (Nat.not_lt.mpr h.1))).symm⟩
  | cons w ws ih =>
    have h := ih (n + 1) (l.setReg (base + n) w)
    simp only [mapFrom, List.foldl_cons]
    obtain ⟨h1, h2, h3⟩ := h
    refine ⟨?_, ?_, ?_⟩
    · have e := congrArg (fun (x : Lane) => ({ x with regs := l.regs } : Lane)) h1
      exact e
    · rw [h2]; exact setAt_length _ _ _
    · intro p hp
      have hp' : p < (l.setReg (base + n) w).regs.length := by rw [show (l.setReg (base + n) w).regs.length = l.regs.length from setAt_length _ _ _]; exact hp
      rw [h3 p hp']
      have hs : (l.setReg (base + n) w).reg p = if p = base + n ∧ base + n < l.regs.length then w else l.reg p := getAt_setAt _ _ _ _ _
      by_cases hpe : p = base + n
      · subst hpe
        have : ¬ (base + (n + 1) ≤ base + n ∧ base + n < base + (n + 1) + ws.length) := by omega
        rw [if_neg this, hs, if_pos ⟨rfl, hp⟩, if_pos (by simp)]
        simp [getAt]
      · have hs' : (l.setReg (base + n) w).reg p = l.reg p := by rw [hs, if_neg (fun h => hpe h.1)]
        rw [hs']
        by_cases hc : base + (n + 1) ≤ p ∧ p < base + (n + 1) + ws.length
        · rw [if_pos hc, if_pos (by simp only [List.length_cons]; omega)]
          have : p - (base + n) = (p - (base + (n + 1))) + 1 := by omega
          rw [this]; rfl
        · rw [if_neg hc, if_neg (by simp only [List.length_cons]; omega)]

theorem putRegs_spec (base : Nat) (ws : List Word) (l : Lane) :
    { putRegs base ws l with regs := l.regs } = l ∧ (putRegs base ws l).regs.length = l.regs.length ∧
    ∀ p, p < l.regs.length → (putRegs base ws l).reg p = if base ≤ p ∧ p < base + ws.length then getAt ws (p - base) 0 else l.reg p := by
  have h := putRegs_from base 0 ws l
  simp only [Nat.add_zero] at h
  exact h

theorem writeRegs_eq (g : Group) (d : Nat) (m : LaneMask) (vals : Nat → List Word) :
    g.writeRegs d m vals = g.onLanes m (fun i l => putRegs (g.phys d) (vals i) l) := rfl

theorem phys_onLanes (g : Group) (m : LaneMask) (f : Nat → Lane → Lane) (d : Nat) : (g.onLanes m f).phys d = g.phys d := rfl

/-- Advancing and writing registers leaves the lanes as R13 and R96 say. -/
theorem lanes_written (i : Issue) (g : Group) (hg : g.lanes = i.grp.lanes) (hwb : g.wb = i.grp.wb) (eff : LaneMask) (d n : Nat)
    (vals : Nat → List Word) (hn : ∀ l, (vals l).length = n) :
    LanesAre i ((i.advance g).writeRegs d eff vals) { i.view with regs := i.written eff d n vals } := by
  have hln : ∀ l, g.lane l = i.grp.lane l := by intro l; unfold Group.lane; rw [hg]
  have hlen : g.lanes.length = i.width := by rw [hg]; rfl
  have key : ∀ l, l < i.width → ((i.advance g).writeRegs d eff vals).lane l =
      let a := if inMask i.cur.exec l then { i.grp.lane l with pcv := (i.grp.lane l).pcv + 4 } else i.grp.lane l
      if inMask eff l then putRegs (i.grp.wb + d) (vals l) a else a := by
    intro l hl
    have h1 : l < g.lanes.length := by omega
    rw [writeRegs_eq]
    rw [lane_onLanes _ _ _ _ (by unfold Issue.advance; rw [length_onLanes]; exact h1)]
    unfold Issue.advance
    rw [lane_onLanes _ _ _ _ h1, phys_onLanes, hln]
    unfold Group.phys
    rw [hwb]
  have hw : ((i.advance g).writeRegs d eff vals).lanes.length = i.grp.lanes.length := by
    rw [writeRegs_eq, length_onLanes]; unfold Issue.advance; rw [length_onLanes, hg]
  have ha : ∀ l, let a := if inMask i.cur.exec l then { i.grp.lane l with pcv := (i.grp.lane l).pcv + 4 } else i.grp.lane l
      a.regs = (i.grp.lane l).regs ∧ a.preds = (i.grp.lane l).preds ∧ a.exited = (i.grp.lane l).exited ∧ a.yx = (i.grp.lane l).yx ∧
      a.waitm = (i.grp.lane l).waitm ∧ a.pcv = i.view.pc l := by
    intro l
    by_cases he : inMask i.cur.exec l <;> simp [he, Issue.view]
  refine ⟨hw, ?_, ?_, ?_, ?_, ?_, ?_⟩
  · intro l hl
    rw [key l hl]; dsimp only
    obtain ⟨h1, -⟩ := ha l
    split
    · rw [(putRegs_spec _ _ _).2.1, h1]
    · rw [h1]
  · intro l hl p hp
    rw [key l hl]; dsimp only
    obtain ⟨h1, -⟩ := ha l
    have hr : ∀ a : Lane, a.regs = (i.grp.lane l).regs → a.reg p = (i.grp.lane l).reg p := by intro a e; unfold Lane.reg; rw [e]
    unfold Issue.written
    by_cases he : inMask eff l
    · simp only [he, if_true, true_and]
      rw [(putRegs_spec _ _ _).2.2 p (by rw [h1]; exact hp), hn l, hr _ h1]
    · simp only [he, reduceCtorEq, if_false]
      exact hr _ h1
  · intro l hl
    rw [key l hl]; dsimp only
    obtain ⟨-, h, -⟩ := ha l
    split
    · have := congrArg Lane.preds (putRegs_spec (i.grp.wb + d) (vals l) (if inMask i.cur.exec l then { i.grp.lane l with pcv := (i.grp.lane l).pcv + 4 } else i.grp.lane l)).1
      exact this.trans h
    · exact h
  · intro l hl
    rw [key l hl]; dsimp only
    obtain ⟨-, -, h, -⟩ := ha l
    split
    · have := congrArg Lane.exited (putRegs_spec (i.grp.wb + d) (vals l) (if inMask i.cur.exec l then { i.grp.lane l with pcv := (i.grp.lane l).pcv + 4 } else i.grp.lane l)).1
      exact this.trans h
    · exact h
  · intro l hl
    rw [key l hl]; dsimp only
    obtain ⟨-, -, -, h, -⟩ := ha l
    split
    · have := congrArg Lane.yx (putRegs_spec (i.grp.wb + d) (vals l) (if inMask i.cur.exec l then { i.grp.lane l with pcv := (i.grp.lane l).pcv + 4 } else i.grp.lane l)).1
      exact this.trans h
    · exact h
  · intro hall l hl
    rw [key l hl]; dsimp only
    obtain ⟨-, -, -, -, h, hp⟩ := ha l
    split
    · have e := (putRegs_spec (i.grp.wb + d) (vals l) (if inMask i.cur.exec l then { i.grp.lane l with pcv := (i.grp.lane l).pcv + 4 } else i.grp.lane l)).1
      exact ⟨(congrArg Lane.pcv e).trans hp, ((congrArg Lane.waitm e).trans h).trans (hall l hl)⟩
    · exact ⟨hp, h.trans (hall l hl)⟩

theorem waitm_written (i : Issue) (g : Group) (hg : g.lanes = i.grp.lanes) (eff : LaneMask) (d : Nat) (vals : Nat → List Word) (l : Nat)
    (hl : l < i.width) (hw : (i.grp.lane l).waitm = none) : (((i.advance g).writeRegs d eff vals).lane l).waitm = none := by
  have h1 : l < g.lanes.length := by rw [hg]; exact hl
  have hln : g.lane l = i.grp.lane l := by unfold Group.lane; rw [hg]
  rw [writeRegs_eq, lane_onLanes _ _ _ _ (by unfold Issue.advance; rw [length_onLanes]; exact h1)]
  unfold Issue.advance
  rw [lane_onLanes _ _ _ _ h1, hln]
  have ha : (if inMask i.cur.exec l then { i.grp.lane l with pcv := (i.grp.lane l).pcv + 4 } else i.grp.lane l).waitm = none := by
    split <;> exact hw
  split
  · exact (congrArg Lane.waitm (putRegs_spec _ (vals l) _).1).trans ha
  · exact ha

theorem lanes_advanced (i : Issue) (g : Group) (hg : g.lanes = i.grp.lanes) : LanesAre i (i.advance g) i.view := by
  have h1 : ∀ l, l < i.width → (i.advance g).lane l = if inMask i.cur.exec l then { i.grp.lane l with pcv := (i.grp.lane l).pcv + 4 } else i.grp.lane l := by
    intro l hl
    have hln : g.lane l = i.grp.lane l := by unfold Group.lane; rw [hg]
    unfold Issue.advance
    rw [lane_onLanes _ _ _ _ (by rw [hg]; exact hl), hln]
  refine ⟨?_, ?_, ?_, ?_, ?_, ?_, ?_⟩
  · unfold Issue.advance; rw [length_onLanes, hg]
  · intro l hl; rw [h1 l hl]; split <;> rfl
  · intro l hl p hp; rw [h1 l hl]; split <;> rfl
  · intro l hl; rw [h1 l hl]; split <;> rfl
  · intro l hl; rw [h1 l hl]; split <;> rfl
  · intro l hl; rw [h1 l hl]; split <;> rfl
  · intro ha l hl
    rw [h1 l hl]
    by_cases he : inMask i.cur.exec l
    · simp [he, Issue.view, ha l hl]
    · simp [he, Issue.view, ha l hl]

theorem waitm_advanced (i : Issue) (g : Group) (hg : g.lanes = i.grp.lanes) (l : Nat) (hl : l < i.width)
    (hw : (i.grp.lane l).waitm = none) : ((i.advance g).lane l).waitm = none := by
  have hln : g.lane l = i.grp.lane l := by unfold Group.lane; rw [hg]
  unfold Issue.advance
  rw [lane_onLanes _ _ _ _ (by rw [hg]; exact hl), hln]
  split <;> exact hw

/-- A register-only operation completes with its words written (R15, R96). -/
theorem regOnly_writes {s : State} {i : Issue} (h : s.issue? = some i) (eff : LaneMask) (d : RegField) (n : Nat) (latched : Bool)
    (vals : Nat → List Word) (hn : ∀ l, (vals l).length = n) :
    ∃ t g', regOnly i eff d latched vals s = .next t ∧ WritesD s t i eff d n latched vals g' := by
  unfold regOnly
  by_cases hd : d.toNat = 127
  · obtain ⟨t, g', ht, h1, h2, h3, h4, h5⟩ := finish_lanes h
      ⟨latched, if latched then (List.range i.width).map (fun l => if inMask eff l then getAt (vals l) 0 0 else 0) else []⟩
      (fun g => i.advance g) i.view (fun g => rfl) (fun g hg _ => lanes_advanced i g hg) (fun g hg l hl hw => waitm_advanced i g hg l hl hw)
    refine ⟨t, g', ?_, h1, h2, h3, ?_, ?_⟩
    · simpa [hd] using ht
    · have e : i.view = { i.view with regs := i.written eff d.toNat (if d.toNat = 127 then 0 else n) vals } := by
        have : (i.view).regs = i.written eff d.toNat (if d.toNat = 127 then 0 else n) vals := by
          funext l p
          unfold Issue.written
          rw [if_neg]
          · rfl
          · simp only [hd, if_true]; omega
        rw [← this]
      rw [← e]; exact h4
    · simpa [hd] using h5
  · obtain ⟨t, g', ht, h1, h2, h3, h4, h5⟩ := finish_lanes h
      ⟨latched, if latched then (List.range i.width).map (fun l => if inMask eff l then getAt (vals l) 0 0 else i.regAt d 0 l) else []⟩
      (fun g => (i.advance g).writeRegs d.toNat eff vals) { i.view with regs := i.written eff d.toNat n vals } (fun g => rfl)
      (fun g hg hwb => lanes_written i g hg hwb eff d.toNat n vals hn) (fun g hg l hl hw => waitm_written i g hg eff d.toNat vals l hl hw)
    refine ⟨t, g', ?_, h1, h2, h3, ?_, ?_⟩
    · simpa [hd, Issue.regAt] using ht
    · simpa [hd] using h4
    · simpa [hd] using h5

/-- An instruction that writes registers and is not register-only completes with them written. -/
theorem retire_writes {s : State} {i : Issue} (h : s.issue? = some i) (eff : LaneMask) (d n : Nat) (vals : Nat → List Word)
    (hn : ∀ l, (vals l).length = n) :
    ∃ t g', i.retire (fun g => g.writeRegs d eff vals) s = .next t ∧ Completes s t i { i.view with regs := i.written eff d n vals } g' := by
  obtain ⟨t, g', ht, h1, h2, h3, h4, h5⟩ := finish_lanes h ⟨false, []⟩ (fun g => (i.advance g).writeRegs d eff vals)
    { i.view with regs := i.written eff d n vals } (fun g => rfl)
    (fun g hg hwb => lanes_written i g hg hwb eff d n vals hn) (fun g hg l hl hw => waitm_written i g hg eff d vals l hl hw)
  exact ⟨t, g', ht, h1, h2, h3, h4, h5⟩

/-- An instruction with no effect of its own completes with its lanes advanced. -/
theorem skip_completes {s : State} {i : Issue} (h : s.issue? = some i) :
    ∃ t g', i.retire id s = .next t ∧ Completes s t i i.view g' := by
  obtain ⟨t, g', ht, h1, h2, h3, h4, h5⟩ := finish_lanes h ⟨false, []⟩ (fun g => i.advance g) i.view (fun g => rfl)
    (fun g hg _ => lanes_advanced i g hg) (fun g hg l hl hw => waitm_advanced i g hg l hl hw)
  exact ⟨t, g', ht, h1, h2, h3, h4, h5⟩

/-- An instruction whose issue passes its checks runs its own part. -/
theorem issued_passes {s : State} {i : Issue} {form scope : Bool} {os : Issue → List Opnd} (h : Passes s i form (os i) scope)
    (k : Issue → Outcome State Fault Refusal) : issued s form os scope k = k i := by
  unfold issued
  rw [h.issuing]
  simp only [h.checks, h.free]
  rfl

end Sys2Proof.Machine
end

