-- ==== Sys2Proof/Laws/Access.lean ====
section
/-!
SUPPORT. What an instruction that begins an access, or changes other fields of its group, does when it retires.
-/
namespace Sys2Proof.Machine

open Host (Outcome Cell)

theorem advance_only (i : Issue) (g : Group) : { i.advance g with lanes := g.lanes } = g := rfl

/-- An instruction that advances and gives its group other fields by `k`, over a state with its other effects. -/
theorem retire_acts {s : State} {i : Issue} (hs : s.group? i.cur.team i.cur.grp = some i.grp) (k : Group → Group)
    (hk : ∀ g, { k (i.advance g) with lanes := g.lanes } = k g) (hln : ∀ g, (k g).lanes = g.lanes) (hi : ∀ g, (k g).idx = g.idx)
    (hr : ∀ g, (k g).ret = g.ret) (hlt : ∀ g, (k g).latches = g.latches) (hkeep : ∀ g g', g.Keeps g' → (k g).Keeps (k g')) :
    ∃ t g', i.retire k s = .next t ∧ Acts s t i (k i.grp) i.view g' := by
  have hlane : ∀ g l, (k g).lane l = g.lane l := by intro g l; unfold Group.lane; rw [hln]
  obtain ⟨t, g', ht, h1, h2, h3, h4, h5⟩ := finish_acts hs ⟨false, []⟩ (fun g => k (i.advance g)) k i.view hk hi hr hlt hkeep
    (fun g hg _ => by
      have h := lanes_advanced i g hg
      refine ⟨?_, ?_, ?_, ?_, ?_, ?_, ?_⟩
      · rw [hln]; exact h.width
      · intro l hl; rw [hlane]; exact h.size l hl
      · intro l hl p hp; rw [hlane]; exact h.regs l hl p hp
      · intro l hl; rw [hlane]; exact h.preds l hl
      · intro l hl; rw [hlane]; exact h.exited l hl
      · intro l hl; rw [hlane]; exact h.yx l hl
      · intro ha l hl; rw [hlane]; exact h.pc ha l hl)
    (fun g hg l hl hw => by rw [hlane]; exact waitm_advanced i g hg l hl hw)
  exact ⟨t, g', ht, hs, h1, h2, h3, h4, h5⟩

theorem bump_keeps (c : Option Nat) (g g' : Group) (h : g.Keeps g') : (g.bump c).Keeps (g'.bump c) := by
  unfold Group.bump
  cases c with
  | none => exact h
  | some k =>
    unfold Group.Keeps at h
    have hc : g'.ctrs = g.ctrs := by
      have e := congrArg Group.ctrs h
      exact e
    have e := congrArg (fun (x : Group) => ({ x with ctrs := setAt g.ctrs k (getAt g.ctrs k 0 + 1) } : Group)) h
    unfold Group.Keeps
    dsimp only
    rw [hc]
    exact e

/-- An access begins: outstanding, owed its completion, counted (R138, R139, R149). -/
theorem begin_acts {s : State} {i : Issue} (hs : s.group? i.cur.team i.cur.grp = some i.grp) (kind : AccKind) (ctr : Option Nat)
    (dst n size : Nat) (signed : Bool) (lanes : List LaneAcc) (got : List (Nat × List Byte × Nat)) :
    ∃ t g' a, i.begin kind ctr dst n size signed lanes got s = .next t ∧ Begun s i a ctr dst n size ∧ a.kind = kind ∧ a.lanes = lanes ∧
      a.got = got ∧ a.signed = signed ∧ Acts (s.withAccess a) t i (i.grp.bump ctr) i.view g' := by
  unfold Issue.begin
  let a : Access := ⟨s.nextId, i.cur.team, i.cur.grp, i.grp.core, kind, ctr, i.grp.wb + dst, n, size, signed, i.cur.pc, lanes,
    i.cur.exec, got, false, s.marksCut i.team.ctx i.grp.core⟩
  have hb : ∀ (g : Group), (g.bump ctr).lanes = g.lanes ∧ (g.bump ctr).idx = g.idx ∧ (g.bump ctr).ret = g.ret ∧ (g.bump ctr).latches = g.latches := by
    intro g; unfold Group.bump; cases ctr <;> exact ⟨rfl, rfl, rfl, rfl⟩
  obtain ⟨t, g', ht, ha⟩ := retire_acts (s := s.withAccess a) (i := i) hs (fun g => g.bump ctr)
    (by intro g; unfold Group.bump; cases ctr <;> rfl) (fun g => (hb g).1) (fun g => (hb g).2.1) (fun g => (hb g).2.2.1)
    (fun g => (hb g).2.2.2) (bump_keeps ctr)
  exact ⟨t, g', a, ht, ⟨rfl, ⟨rfl, rfl, rfl⟩, rfl, ⟨rfl, rfl⟩, rfl, ⟨rfl, rfl, rfl⟩⟩, rfl, rfl, rfl, rfl, ha⟩

/-! ### The checks of R135 pass -/

theorem firstTrap_none {xs : List (Nat × Dword)} {p : Nat × Dword → Bool} {t : Dword → Trap} (h : ∀ x ∈ xs, p x = false) :
    firstTrap xs p t = none := by
  unfold firstTrap
  rw [Option.map_eq_none_iff, List.find?_eq_none]
  intro x hx; rw [h x hx]; exact Bool.false_ne_true

theorem orElse_none {α : Type} {a : Option α} {b : Unit → Option α} (ha : a = none) (hb : b () = none) : a.orElse b = none := by
  rw [ha]; exact hb

/-- Nothing stops an access whose addresses are reachable (R135, R271, R391). -/
theorem globalStop_none {s : State} {i : Issue} {xs : List (Nat × Dword)} {n sc : Nat} {u : Use} (h : Reachable s i xs n u)
    (hd : i.image.det = true → sc ≤ 2) : i.globalStop s xs n sc u = none := by
  have hx : ∀ x ∈ xs, ∃ l, i.xlate s x.2 u = .ok l ∧ s.meterRefuses l i.image.meas = false ∧
      (u ≠ .write → l.part = s.part → s.poisonedFor i.cur.team i.team.ctx i.grp.core l.pa n = false) := h.mapped
  unfold Issue.globalStop
  refine orElse_none ?_ (orElse_none ?_ (orElse_none ?_ (orElse_none ?_ ?_)))
  · exact firstTrap_none (fun x hm => by simp [h.aligned x hm])
  · unfold Issue.detStop
    split
    · rename_i e; simp only [Bool.and_eq_true, decide_eq_true_eq] at e; have := hd e.1; omega
    · rfl
  · exact firstTrap_none (fun x hm => by obtain ⟨l, hl, -⟩ := hx x hm; rw [hl])
  · unfold Issue.parkStop
    have : xs.filter (fun x => i.xlate s x.2 u == .replay) = [] := by
      rw [List.filter_eq_nil_iff]; intro x hm; obtain ⟨l, hl, -⟩ := hx x hm
      simp [hl]
    simp [this]
  · unfold Issue.denyStop
    refine orElse_none ?_ (orElse_none ?_ ?_)
    · exact firstTrap_none (fun x hm => by obtain ⟨l, hl, -⟩ := hx x hm; simp [hl])
    · exact firstTrap_none (fun x hm => by obtain ⟨l, hl, hf, -⟩ := hx x hm; simp [hl, hf])
    · split
      · rfl
      · rename_i hu
        have hbad : ∀ x ∈ xs, i.meetsPoison s u n x = none := by
          intro x hm
          obtain ⟨l, hl, -, hp⟩ := hx x hm
          unfold Issue.meetsPoison
          rw [hl]
          by_cases e : l.part = s.part
          · simp [e, hp hu e]
          · simp [e]
        refine orElse_none (firstTrap_none (fun x hm => by rw [hbad x hm]; rfl)) (if_neg ?_)
        rw [List.any_eq_true]; rintro ⟨x, hm, hb⟩; rw [hbad x hm] at hb; exact Bool.false_ne_true hb

/-- No watchpoint stops such an access (R337). -/
theorem watchStop_none {s : State} {i : Issue} {xs : List (Nat × Dword)} {n : Nat} {u : Use} (h : Reachable s i xs n u)
    (acq : Nat) : i.watchStop s xs n u acq = none := by
  have hh : i.watchHit s xs n u = none := by
    unfold Issue.watchHit
    split
    · rfl
    · rename_i c hc
      split
      · rfl
      · rename_i hp
        simp only [Bool.or_eq_true, not_or, Bool.not_eq_true] at hp
        have hw := h.unwatched c hc (by simpa using hp.1) hp.2
        rw [List.findSome?_eq_none_iff]; intro x hx; rw [hw x hx]; rfl
  unfold Issue.watchStop
  rw [hh]

theorem counterStop_none {s : State} {i : Issue} {α : Type} {xs : List α} {c : Option Nat} (h : Unordered s i xs c) : i.counterStop s c = none := by
  unfold Issue.counterStop
  cases c with
  | none => rfl
  | some k => have := h.room k rfl; simp only []; rw [if_neg (by omega)]

/-- A load whose checks pass begins its access (R138), where it needs no answer of another part. -/
theorem loadGlobal_begins {s : State} {i : Issue} (h : s.issue? = some i) {xs : List (Nat × Dword)} {n sc : Nat} (hr : Reachable s i xs n .read)
    (hn : Near s i xs .read) (hd : i.image.det = true → sc ≤ 2) {ctr : Option Nat} (hu : Unordered s i xs ctr) (dN : Nat) (signed : Bool) (kind : AccKind) (d : RegField) :
    ∃ t g' a, loadGlobal i xs n dN signed kind sc ctr d s = .next t ∧ Begun s i a ctr d.toNat dN n ∧
      a.kind = (if xs.isEmpty then .done 0 else kind) ∧ a.signed = signed ∧ a.got = [] ∧
      a.lanes = xs.map (fun x => ⟨x.1, x.2.toNat, i.locOf s x.2 .read, []⟩) ∧ Acts (s.withAccess a) t i (i.grp.bump ctr) i.view g' := by
  unfold loadGlobal
  rw [globalStop_none hr hd, counterStop_none hu]
  simp only [Issue.unless]
  cases xs with
  | nil =>
    obtain ⟨t, g', a, h1, h2, h3, h4, h5, h6, h7⟩ := begin_acts (issue_group h) (.done 0) ctr d.toNat dN n signed [] []
    exact ⟨t, g', a, h1, h2, h3, h6, h5, h4, h7⟩
  | cons x xs =>
    simp only [List.isEmpty_cons, Bool.not_false, Bool.true_and, Bool.false_eq_true, if_false]
    rw [hu.acquired (by simp), watchStop_none hr, ite_self]
    simp only [Bool.false_eq_true, if_false]
    have hall : ((((x :: xs).map (fun x => (⟨x.1, x.2.toNat, i.locOf s x.2 .read, []⟩ : LaneAcc))).all (fun x => x.loc.part == s.part)) ||
        s.quarantined i.team.ctx) = true := by
      rcases hn with hq | hp
      · rw [hq, Bool.or_true]
      · rw [Bool.or_eq_true]; left
        rw [List.all_map, List.all_eq_true]; intro y hy; simpa using hp y hy
    unfold Issue.beginRead
    rw [if_pos hall]
    obtain ⟨t, g', a, h1, h2, h3, h4, h5, h6, h7⟩ := begin_acts (issue_group h) kind ctr d.toNat dN n signed
      ((x :: xs).map (fun x => ⟨x.1, x.2.toNat, i.locOf s x.2 .read, []⟩)) []
    exact ⟨t, g', a, h1, h2, h3, h6, h5, h4, h7⟩

end Sys2Proof.Machine
end

