-- ==== Sys2Proof/Laws/Memory.lean ====
section
/-!
SUPPORT. The canonical form of a memory: what each operation on cells and memories does to a read, and that each keeps the form.
-/
namespace Sys2Proof.Machine

open Host (Cell)

/-! ### The form -/

theorem wfFrom_le {lo hi : Nat} (h : lo ≤ hi) {m : List Cell} (w : Memory.wfFrom hi m = true) : Memory.wfFrom lo m = true := by
  cases m with
  | nil => rfl
  | cons c cs =>
    obtain ⟨k, b⟩ := c
    simp only [Memory.wfFrom, Bool.and_eq_true, decide_eq_true_eq] at w ⊢
    exact ⟨⟨Nat.le_trans h w.1.1, w.1.2⟩, w.2⟩

theorem cellAt_below {lo a : Nat} {m : List Cell} (w : Memory.wfFrom lo m = true) (h : a < lo) : cellAt a m = none := by
  induction m generalizing lo with
  | nil => rfl
  | cons c cs ih =>
    obtain ⟨k, b⟩ := c
    simp only [Memory.wfFrom, Bool.and_eq_true, decide_eq_true_eq] at w
    rw [cellAt, if_neg (by omega)]
    exact ih w.2 (by omega)

/-! ### Listing and unlisting a cell -/

theorem cellAt_cellPut (a c : Nat) (b : Byte) (m : List Cell) : cellAt c (cellPut a b m) = if c = a then some b else cellAt c m := by
  induction m with
  | nil => simp only [cellPut, cellAt, eq_comm]
  | cons x xs ih =>
    obtain ⟨k, v⟩ := x
    unfold cellPut
    split
    · rw [cellAt]; simp only [eq_comm]
    · split
      · rename_i h; subst h; rw [cellAt, cellAt]; by_cases e : a = c
        · rw [if_pos e, if_pos e.symm]
        · rw [if_neg e, if_neg e, if_neg (fun h => e h.symm)]
      · rename_i h; rw [cellAt, cellAt, ih]
        by_cases e : k = c
        · rw [if_pos e, if_pos e, if_neg (by omega)]
        · rw [if_neg e, if_neg e]

theorem wfFrom_cellPut {lo a : Nat} {b : Byte} {m : List Cell} (w : Memory.wfFrom lo m = true) (h : lo ≤ a) (hb : b ≠ Config.emptyByte) :
    Memory.wfFrom lo (cellPut a b m) = true := by
  induction m generalizing lo with
  | nil => simp only [cellPut, Memory.wfFrom, Bool.and_eq_true, decide_eq_true_eq, bne_iff_ne]; exact ⟨⟨h, hb⟩, trivial⟩
  | cons x xs ih =>
    obtain ⟨k, v⟩ := x
    have w' := w
    simp only [Memory.wfFrom, Bool.and_eq_true, decide_eq_true_eq, bne_iff_ne] at w
    unfold cellPut
    split
    · rename_i l
      simp only [Memory.wfFrom, Bool.and_eq_true, decide_eq_true_eq, bne_iff_ne]
      exact ⟨⟨h, hb⟩, ⟨by omega, w.1.2⟩, w.2⟩
    · split
      · rename_i e; subst e
        simp only [Memory.wfFrom, Bool.and_eq_true, decide_eq_true_eq, bne_iff_ne]; exact ⟨⟨h, hb⟩, w.2⟩
      · simp only [Memory.wfFrom, Bool.and_eq_true, decide_eq_true_eq, bne_iff_ne]; exact ⟨w.1, ih w.2 (by omega)⟩

theorem cellAt_cellDrop {lo a c : Nat} {m : List Cell} (w : Memory.wfFrom lo m = true) :
    cellAt c (cellDrop a m) = if c = a then none else cellAt c m := by
  induction m generalizing lo with
  | nil => simp only [cellDrop, cellAt, ite_self]
  | cons x xs ih =>
    obtain ⟨k, v⟩ := x
    simp only [Memory.wfFrom, Bool.and_eq_true, decide_eq_true_eq] at w
    unfold cellDrop
    split
    · rename_i e; subst e; rw [cellAt]
      by_cases e : k = c
      · rw [if_pos e.symm, ← e]; exact cellAt_below w.2 (by omega)
      · rw [if_neg e, if_neg (fun h => e h.symm)]
    · split
      · by_cases e : c = a
        · rw [if_pos e, e, cellAt, if_neg (by omega)]; exact cellAt_below w.2 (by omega)
        · rw [if_neg e]
      · rw [cellAt, cellAt, ih w.2]
        by_cases e : k = c
        · rw [if_pos e, if_pos e, if_neg (by omega)]
        · rw [if_neg e, if_neg e]

theorem wfFrom_cellDrop {lo a : Nat} {m : List Cell} (w : Memory.wfFrom lo m = true) : Memory.wfFrom lo (cellDrop a m) = true := by
  induction m generalizing lo with
  | nil => rfl
  | cons x xs ih =>
    obtain ⟨k, v⟩ := x
    have w' := w
    simp only [Memory.wfFrom, Bool.and_eq_true, decide_eq_true_eq, bne_iff_ne] at w
    unfold cellDrop
    split
    · exact wfFrom_le (by omega) w.2
    · split
      · exact w'
      · simp only [Memory.wfFrom, Bool.and_eq_true, decide_eq_true_eq, bne_iff_ne]; exact ⟨w.1, ih w.2⟩

/-! ### Reads after writes -/

/-- A byte written is read back; every other byte reads as before. -/
theorem Memory.get_set {m : List Cell} (w : Memory.wf m = true) (a c : Nat) (b : Byte) :
    Memory.get (Memory.set m a b) c = if c = a then b else Memory.get m c := by
  unfold Memory.get Memory.set
  by_cases h : b = Config.emptyByte
  · rw [if_pos h, cellAt_cellDrop w]
    by_cases e : c = a
    · rw [if_pos e, if_pos e, h]; rfl
    · rw [if_neg e, if_neg e]
  · rw [if_neg h, cellAt_cellPut]
    by_cases e : c = a
    · rw [if_pos e, if_pos e]; rfl
    · rw [if_neg e, if_neg e]

/-- Writing a byte keeps the canonical form. -/
theorem Memory.wf_set {m : List Cell} (w : Memory.wf m = true) (a : Nat) (b : Byte) : Memory.wf (Memory.set m a b) = true := by
  unfold Memory.set
  split
  · exact wfFrom_cellDrop w
  · rename_i h; exact wfFrom_cellPut w (Nat.zero_le a) h

theorem Memory.wf_write (bs : List Byte) {m : List Cell} (w : Memory.wf m = true) (a : Nat) : Memory.wf (Memory.write m a bs) = true := by
  induction bs generalizing m a with
  | nil => exact w
  | cons b bs ih => exact ih (Memory.wf_set w a b) (a + 1)

theorem Memory.wf_writeCells (cs : List Cell) {m : List Cell} (w : Memory.wf m = true) : Memory.wf (Memory.writeCells m cs) = true := by
  induction cs generalizing m with
  | nil => exact w
  | cons c cs ih => exact ih (Memory.wf_set w c.1 c.2)

/-- Bytes written from an address upward are read back; every other byte reads as before. -/
theorem Memory.get_write (bs : List Byte) {m : List Cell} (w : Memory.wf m = true) (a c : Nat) :
    Memory.get (Memory.write m a bs) c = if a ≤ c ∧ c < a + bs.length then getAt bs (c - a) 0 else Memory.get m c := by
  induction bs generalizing m a with
  | nil => rw [Memory.write, if_neg (by simp only [List.length_nil]; omega)]
  | cons b bs ih =>
    rw [Memory.write, ih (Memory.wf_set w a b), Memory.get_set w, List.length_cons]
    by_cases e : c = a
    · subst e; rw [if_neg (by omega), if_pos rfl, if_pos (by omega), Nat.sub_self]; rfl
    · by_cases h : a + 1 ≤ c ∧ c < a + 1 + bs.length
      · rw [if_pos h, if_pos (by omega), show c - a = (c - (a + 1)) + 1 by omega]; rfl
      · rw [if_neg h, if_neg e, if_neg (by omega)]

/-- A memory without the cells that fail a test keeps the canonical form. -/
theorem Memory.wf_filter (p : Cell → Bool) {lo : Nat} {m : List Cell} (w : Memory.wfFrom lo m = true) : Memory.wfFrom lo (m.filter p) = true := by
  induction m generalizing lo with
  | nil => rfl
  | cons x xs ih =>
    obtain ⟨k, v⟩ := x
    have w' := w
    simp only [Memory.wfFrom, Bool.and_eq_true, decide_eq_true_eq, bne_iff_ne] at w
    rw [List.filter_cons]
    split
    · simp only [Memory.wfFrom, Bool.and_eq_true, decide_eq_true_eq, bne_iff_ne]; exact ⟨w.1, ih w.2⟩
    · exact wfFrom_le (by omega) (ih w.2)

/-- The memory after reset has the canonical form. -/
theorem reset_mem_wf : Memory.wf State.reset.mem = true := rfl

/-! ### Writes at a home -/

theorem discardOne_mem (s : State) (n : Nat) : (s.discardOne n).mem = s.mem := by
  unfold State.discardOne State.unreserveOverlay State.freeAreas
  split <;> rfl

theorem discardTwin_mem (s : State) (n : Nat) : (s.discardTwin n).mem = s.mem := by
  unfold State.discardTwin
  generalize s.twinsBelow 64 n ++ [n] = ns
  induction ns generalizing s with
  | nil => rfl
  | cons k ks ih => rw [List.foldl_cons, ih, discardOne_mem]

theorem addOverlay_mem {s t : State} {w : Twin} {line : Nat} (h : s.addOverlay w line = some t) : t.mem = s.mem := by
  unfold State.addOverlay at h
  dsimp only at h
  split at h
  · cases h; rfl
  · split at h
    · simp only [Option.some.injEq] at h; subst h; rfl
    · split at h
      · exact absurd h (by simp)
      · simp only [Option.some.injEq] at h; subst h; exact discardTwin_mem s w.num

theorem copyOld_mem {a : Nat} {ws : List Twin} {s t : State} (h : s.copyOld a ws = some t) : t.mem = s.mem := by
  induction ws generalizing s with
  | nil => cases h; rfl
  | cons w ws ih =>
    unfold State.copyOld at h
    split at h
    · cases e : s.addOverlay w (a / 256) with
      | none => simp [e] at h
      | some s' => rw [e] at h; rw [ih h, addOverlay_mem e]
    · exact ih h

/-- Whatever is written at homes, memory keeps the canonical form. -/
theorem putCells_wf {ctx : Nat} {cs : List Cell} {s t : State} (h : s.putCells ctx cs = some t) (w : Memory.wf s.mem = true) :
    Memory.wf t.mem = true := by
  induction cs generalizing s with
  | nil => cases h; exact w
  | cons c cs ih =>
    obtain ⟨a, b⟩ := c
    rw [State.putCells] at h
    split at h
    · split at h
      · exact ih h (Memory.wf_set w a b)
      · split at h
        · rename_i s' e
          obtain ⟨s1, e1, e2⟩ := Option.bind_eq_some_iff.mp e
          have w' : Memory.wf s'.mem = true := by rw [addOverlay_mem e2, copyOld_mem e1]; exact w
          split at h
          · cases h; exact w'
          · exact ih h w'
        · exact absurd h (by simp)
    · split at h
      · rename_i e; exact ih h (Memory.wf_set (by rw [copyOld_mem e]; exact w) a b)
      · exact absurd h (by simp)

theorem putHome_wf {ctx : Nat} {cs : List Cell} {s t : State} (h : s.putHome ctx cs = some t) (w : Memory.wf s.mem = true) :
    Memory.wf t.mem = true := by
  unfold State.putHome at h
  cases e : s.putCells ctx cs with
  | none => simp [e] at h
  | some u =>
    rw [e] at h; cases h
    have := putCells_wf e w
    change Memory.wf (State.unpoison u cs).mem = true
    unfold State.unpoison
    split <;> exact this

/-- Without a twin, cells written at their homes go to memory in their order, and nothing else changes. -/
theorem putCells_plain (ctx : Nat) (cs : List Cell) (s : State) (h : s.twins = []) :
    s.putCells ctx cs = some { s with mem := Memory.writeCells s.mem cs } := by
  induction cs generalizing s with
  | nil => rfl
  | cons c cs ih =>
    obtain ⟨a, b⟩ := c
    rw [State.putCells]
    have t : s.twinNum? ctx = none := by rw [State.twinNum?, h]; rfl
    have o : s.copyOld a s.twins = some s := by rw [h]; rfl
    rw [t, o]
    exact ih { s with mem := Memory.set s.mem a b } h

end Sys2Proof.Machine
end

