-- ==== Sys2Proof/Tests/Slice0.lean ====
section
/-!
SUPPORT. Tests of one step or one word each, and for every statement a concrete state and operands that meet its hypotheses.
-/

namespace Sys2Proof.Tests

open Sys2Proof Sys2Proof.Machine Sys2Proof.Claims
open Host (Outcome Cell)

set_option Elab.async false

/-- What a test or witness asks of closed terms, checked by computing it. -/
theorem chk {p : Prop} (h : p := by decide +kernel) : p := h

/-! ### Well-formedness: each check refuses an ill-formed term -/

/-- The guard that holds in every lane. -/
def always : Guard := ⟨false, 0⟩

theorem test_wf_load_size : Instr.wf (.ld always 0 0 0 0 7) = false ∧ Instr.wf (.lds always 0 0 0 7) = false := by decide
theorem test_wf_store_size : Instr.wf (.st always 0 0 0 0 1) = false ∧ Instr.wf (.st always 0 0 0 0 3) = false ∧ Instr.wf (.sts always 0 0 0 7) = false := by decide
theorem test_wf_store_hint : Instr.wf (.st always 0 0 3 0 4) = false := by decide
theorem test_wf_atomic_op : Instr.wf (.atom always 0 0 14 0) = false ∧ Instr.wf (.atoms always 0 0 15 0) = false := by decide
theorem test_wf_mask : Instr.wf (.join always 12) = false ∧ Instr.wf (.leave always 127) = false ∧ Instr.wf (.waitm always 12) = false := by decide
theorem test_wf_window : Instr.wf (.setwb always 31) = false := by decide
theorem test_wf_kind : Instr.wf (.opreg always 64 0) = false ∧ Instr.wf (.opdo always 64 0) = false := by decide
theorem test_events_have_no_word : encode (.loadCompletion 0) = none ∧ encode .getVersion = none := by decide

/-! ### Decoding: every row's word, written out field by field from the opcode table -/

/-- The words of major 0x14. -/
theorem test_decode_int1 : ([
  (0x14#6 ++ 0x1#1 ++ 0x5#4 ++ 0x11#7 ++ 0x2A#7 ++ 0x0#7, .add64 ⟨true, 5⟩ 0x11 0x2A),
  (0x14#6 ++ 0x1#1 ++ 0x5#4 ++ 0x11#7 ++ 0x2A#7 ++ 0x1#7, .sub64 ⟨true, 5⟩ 0x11 0x2A),
  (0x14#6 ++ 0x1#1 ++ 0x5#4 ++ 0x11#7 ++ 0x2A#7 ++ 0x2#7, .divs ⟨true, 5⟩ 0x11 0x2A),
  (0x14#6 ++ 0x1#1 ++ 0x5#4 ++ 0x11#7 ++ 0x2A#7 ++ 0x3#7, .divn ⟨true, 5⟩ 0x11 0x2A),
  (0x14#6 ++ 0x1#1 ++ 0x5#4 ++ 0x11#7 ++ 0x2A#7 ++ 0x4#7, .rems ⟨true, 5⟩ 0x11 0x2A),
  (0x14#6 ++ 0x1#1 ++ 0x5#4 ++ 0x11#7 ++ 0x2A#7 ++ 0x5#7, .remn ⟨true, 5⟩ 0x11 0x2A),
  (0x14#6 ++ 0x1#1 ++ 0x5#4 ++ 0x11#7 ++ 0x2A#7 ++ 0x8#7, .popc ⟨true, 5⟩ 0x11 0x2A),
  (0x14#6 ++ 0x1#1 ++ 0x5#4 ++ 0x11#7 ++ 0x2A#7 ++ 0x9#7, .clz ⟨true, 5⟩ 0x11 0x2A),
  (0x14#6 ++ 0x1#1 ++ 0x5#4 ++ 0x11#7 ++ 0x2A#7 ++ 0xA#7, .brev ⟨true, 5⟩ 0x11 0x2A),
  (0x14#6 ++ 0x1#1 ++ 0x5#4 ++ 0x11#7 ++ 0x2A#7 ++ 0xB#7, .bswap ⟨true, 5⟩ 0x11 0x2A),
  (0x14#6 ++ 0x1#1 ++ 0x5#4 ++ 0x11#7 ++ 0x2A#7 ++ 0xC#7, .iabs ⟨true, 5⟩ 0x11 0x2A),
  (0x14#6 ++ 0x1#1 ++ 0x5#4 ++ 0x11#7 ++ 0x2A#7 ++ 0xD#7, .ineg ⟨true, 5⟩ 0x11 0x2A),
  (0x14#6 ++ 0x1#1 ++ 0x5#4 ++ 0x11#7 ++ 0x2A#7 ++ 0xE#7, .mov ⟨true, 5⟩ 0x11 0x2A)] : List (Word × Instr)).all (fun p => decide (decodeWord p.1 = some p.2)) = true := by decide +kernel

/-- The words of major 0x23. -/
theorem test_decode_float1 : ([
  (0x23#6 ++ 0x1#1 ++ 0x5#4 ++ 0x11#7 ++ 0x2A#7 ++ 0x0#7, .fsqrt ⟨true, 5⟩ 0x11 0x2A),
  (0x23#6 ++ 0x1#1 ++ 0x5#4 ++ 0x11#7 ++ 0x2A#7 ++ 0x1#7, .frcp ⟨true, 5⟩ 0x11 0x2A),
  (0x23#6 ++ 0x1#1 ++ 0x5#4 ++ 0x11#7 ++ 0x2A#7 ++ 0x2#7, .frsq ⟨true, 5⟩ 0x11 0x2A),
  (0x23#6 ++ 0x1#1 ++ 0x5#4 ++ 0x11#7 ++ 0x2A#7 ++ 0x3#7, .fexp2 ⟨true, 5⟩ 0x11 0x2A),
  (0x23#6 ++ 0x1#1 ++ 0x5#4 ++ 0x11#7 ++ 0x2A#7 ++ 0x4#7, .flog2 ⟨true, 5⟩ 0x11 0x2A),
  (0x23#6 ++ 0x1#1 ++ 0x5#4 ++ 0x11#7 ++ 0x2A#7 ++ 0x5#7, .fsin ⟨true, 5⟩ 0x11 0x2A),
  (0x23#6 ++ 0x1#1 ++ 0x5#4 ++ 0x11#7 ++ 0x2A#7 ++ 0x6#7, .fcos ⟨true, 5⟩ 0x11 0x2A),
  (0x23#6 ++ 0x1#1 ++ 0x5#4 ++ 0x11#7 ++ 0x2A#7 ++ 0x7#7, .ftanh ⟨true, 5⟩ 0x11 0x2A),
  (0x23#6 ++ 0x1#1 ++ 0x5#4 ++ 0x11#7 ++ 0x2A#7 ++ 0x8#7, .fabs ⟨true, 5⟩ 0x11 0x2A),
  (0x23#6 ++ 0x1#1 ++ 0x5#4 ++ 0x11#7 ++ 0x2A#7 ++ 0x9#7, .fneg ⟨true, 5⟩ 0x11 0x2A),
  (0x23#6 ++ 0x1#1 ++ 0x5#4 ++ 0x11#7 ++ 0x2A#7 ++ 0xA#7, .frint ⟨true, 5⟩ 0x11 0x2A),
  (0x23#6 ++ 0x1#1 ++ 0x5#4 ++ 0x11#7 ++ 0x2A#7 ++ 0xB#7, .ffloor ⟨true, 5⟩ 0x11 0x2A),
  (0x23#6 ++ 0x1#1 ++ 0x5#4 ++ 0x11#7 ++ 0x2A#7 ++ 0xC#7, .fceil ⟨true, 5⟩ 0x11 0x2A),
  (0x23#6 ++ 0x1#1 ++ 0x5#4 ++ 0x11#7 ++ 0x2A#7 ++ 0xD#7, .ftrunc ⟨true, 5⟩ 0x11 0x2A),
  (0x23#6 ++ 0x1#1 ++ 0x5#4 ++ 0x11#7 ++ 0x2A#7 ++ 0xE#7, .fclass ⟨true, 5⟩ 0x11 0x2A),
  (0x23#6 ++ 0x1#1 ++ 0x5#4 ++ 0x11#7 ++ 0x2A#7 ++ 0x10#7, .habs ⟨true, 5⟩ 0x11 0x2A),
  (0x23#6 ++ 0x1#1 ++ 0x5#4 ++ 0x11#7 ++ 0x2A#7 ++ 0x11#7, .hneg ⟨true, 5⟩ 0x11 0x2A),
  (0x23#6 ++ 0x1#1 ++ 0x5#4 ++ 0x11#7 ++ 0x2A#7 ++ 0x12#7, .hsqrt ⟨true, 5⟩ 0x11 0x2A),
  (0x23#6 ++ 0x1#1 ++ 0x5#4 ++ 0x11#7 ++ 0x2A#7 ++ 0x13#7, .hrcp ⟨true, 5⟩ 0x11 0x2A),
  (0x23#6 ++ 0x1#1 ++ 0x5#4 ++ 0x11#7 ++ 0x2A#7 ++ 0x14#7, .babs ⟨true, 5⟩ 0x11 0x2A),
  (0x23#6 ++ 0x1#1 ++ 0x5#4 ++ 0x11#7 ++ 0x2A#7 ++ 0x15#7, .bneg ⟨true, 5⟩ 0x11 0x2A)] : List (Word × Instr)).all (fun p => decide (decodeWord p.1 = some p.2)) = true := by decide +kernel

/-- The words of major 0x24. -/
theorem test_decode_convert : ([
  (0x24#6 ++ 0x1#1 ++ 0x5#4 ++ 0x11#7 ++ 0x2A#7 ++ 0x0#7, .cvtF32I32 ⟨true, 5⟩ 0x11 0x2A),
  (0x24#6 ++ 0x1#1 ++ 0x5#4 ++ 0x11#7 ++ 0x2A#7 ++ 0x1#7, .cvtF32N32 ⟨true, 5⟩ 0x11 0x2A),
  (0x24#6 ++ 0x1#1 ++ 0x5#4 ++ 0x11#7 ++ 0x2A#7 ++ 0x2#7, .cvtI32F32 ⟨true, 5⟩ 0x11 0x2A),
  (0x24#6 ++ 0x1#1 ++ 0x5#4 ++ 0x11#7 ++ 0x2A#7 ++ 0x3#7, .cvtN32F32 ⟨true, 5⟩ 0x11 0x2A),
  (0x24#6 ++ 0x1#1 ++ 0x5#4 ++ 0x11#7 ++ 0x2A#7 ++ 0x4#7, .cvtF32H2Lo ⟨true, 5⟩ 0x11 0x2A),
  (0x24#6 ++ 0x1#1 ++ 0x5#4 ++ 0x11#7 ++ 0x2A#7 ++ 0x5#7, .cvtF32H2Hi ⟨true, 5⟩ 0x11 0x2A),
  (0x24#6 ++ 0x1#1 ++ 0x5#4 ++ 0x11#7 ++ 0x2A#7 ++ 0x1#1 ++ 0x6#6, .cvtH2F32 ⟨true, 5⟩ 0x11 0x2A true),
  (0x24#6 ++ 0x1#1 ++ 0x5#4 ++ 0x11#7 ++ 0x2A#7 ++ 0x7#7, .cvtF32B2Lo ⟨true, 5⟩ 0x11 0x2A),
  (0x24#6 ++ 0x1#1 ++ 0x5#4 ++ 0x11#7 ++ 0x2A#7 ++ 0x8#7, .cvtF32B2Hi ⟨true, 5⟩ 0x11 0x2A),
  (0x24#6 ++ 0x1#1 ++ 0x5#4 ++ 0x11#7 ++ 0x2A#7 ++ 0x1#1 ++ 0x9#6, .cvtB2F32 ⟨true, 5⟩ 0x11 0x2A true),
  (0x24#6 ++ 0x1#1 ++ 0x5#4 ++ 0x11#7 ++ 0x2A#7 ++ 0x1#1 ++ 0xA#6, .cvtH2B2 ⟨true, 5⟩ 0x11 0x2A true),
  (0x24#6 ++ 0x1#1 ++ 0x5#4 ++ 0x11#7 ++ 0x2A#7 ++ 0x1#1 ++ 0xB#6, .cvtB2H2 ⟨true, 5⟩ 0x11 0x2A true),
  (0x24#6 ++ 0x1#1 ++ 0x5#4 ++ 0x11#7 ++ 0x2A#7 ++ 0x1#1 ++ 0xC#6, .cvtE4m3F32 ⟨true, 5⟩ 0x11 0x2A true),
  (0x24#6 ++ 0x1#1 ++ 0x5#4 ++ 0x11#7 ++ 0x2A#7 ++ 0xD#7, .cvtF32E4m3 ⟨true, 5⟩ 0x11 0x2A),
  (0x24#6 ++ 0x1#1 ++ 0x5#4 ++ 0x11#7 ++ 0x2A#7 ++ 0x1#1 ++ 0xE#6, .cvtE5m2F32 ⟨true, 5⟩ 0x11 0x2A true),
  (0x24#6 ++ 0x1#1 ++ 0x5#4 ++ 0x11#7 ++ 0x2A#7 ++ 0xF#7, .cvtF32E5m2 ⟨true, 5⟩ 0x11 0x2A),
  (0x24#6 ++ 0x1#1 ++ 0x5#4 ++ 0x11#7 ++ 0x2A#7 ++ 0x1#1 ++ 0x10#6, .cvtE2m1F32 ⟨true, 5⟩ 0x11 0x2A true),
  (0x24#6 ++ 0x1#1 ++ 0x5#4 ++ 0x11#7 ++ 0x2A#7 ++ 0x11#7, .cvtF32E2m1 ⟨true, 5⟩ 0x11 0x2A),
  (0x24#6 ++ 0x1#1 ++ 0x5#4 ++ 0x11#7 ++ 0x2A#7 ++ 0x1#1 ++ 0x12#6, .cvtE4m3H2 ⟨true, 5⟩ 0x11 0x2A true),
  (0x24#6 ++ 0x1#1 ++ 0x5#4 ++ 0x11#7 ++ 0x2A#7 ++ 0x13#7, .cvtH2E4m3 ⟨true, 5⟩ 0x11 0x2A),
  (0x24#6 ++ 0x1#1 ++ 0x5#4 ++ 0x11#7 ++ 0x2A#7 ++ 0x14#7, .cvtI8I32 ⟨true, 5⟩ 0x11 0x2A),
  (0x24#6 ++ 0x1#1 ++ 0x5#4 ++ 0x11#7 ++ 0x2A#7 ++ 0x15#7, .cvtI32I8 ⟨true, 5⟩ 0x11 0x2A),
  (0x24#6 ++ 0x1#1 ++ 0x5#4 ++ 0x11#7 ++ 0x2A#7 ++ 0x16#7, .cvtN8N32 ⟨true, 5⟩ 0x11 0x2A),
  (0x24#6 ++ 0x1#1 ++ 0x5#4 ++ 0x11#7 ++ 0x2A#7 ++ 0x17#7, .cvtN32N8 ⟨true, 5⟩ 0x11 0x2A)] : List (Word × Instr)).all (fun p => decide (decodeWord p.1 = some p.2)) = true := by decide +kernel

/-- The words of major 0x28. -/
theorem test_decode_pred : ([
  (0x28#6 ++ 0x1#1 ++ 0x5#4 ++ 0x0#3 ++ 0x6#4 ++ 0x0#3 ++ 0x9#4 ++ 0x0#3 ++ 0xB#4, .pand ⟨true, 5⟩ 6 9 0xB),
  (0x28#6 ++ 0x1#1 ++ 0x5#4 ++ 0x0#3 ++ 0x6#4 ++ 0x0#3 ++ 0x9#4 ++ 0x1#3 ++ 0xB#4, .por ⟨true, 5⟩ 6 9 0xB),
  (0x28#6 ++ 0x1#1 ++ 0x5#4 ++ 0x0#3 ++ 0x6#4 ++ 0x0#3 ++ 0x9#4 ++ 0x2#3 ++ 0xB#4, .pxor ⟨true, 5⟩ 6 9 0xB),
  (0x28#6 ++ 0x1#1 ++ 0x5#4 ++ 0x0#3 ++ 0x6#4 ++ 0x0#3 ++ 0x9#4 ++ 0x3#3 ++ 0xB#4, .pandn ⟨true, 5⟩ 6 9 0xB),
  (0x28#6 ++ 0x1#1 ++ 0x5#4 ++ 0x0#3 ++ 0x6#4 ++ 0x0#3 ++ 0x9#4 ++ 0x40#7, .pnot ⟨true, 5⟩ 6 9),
  (0x28#6 ++ 0x1#1 ++ 0x5#4 ++ 0x0#3 ++ 0x6#4 ++ 0x2A#7 ++ 0x50#7, .ptst ⟨true, 5⟩ 6 0x2A),
  (0x28#6 ++ 0x1#1 ++ 0x5#4 ++ 0x11#7 ++ 0x60#14, .ptov ⟨true, 5⟩ 0x11),
  (0x28#6 ++ 0x1#1 ++ 0x5#4 ++ 0x0#7 ++ 0x2A#7 ++ 0x70#7, .vtop ⟨true, 5⟩ 0x2A)] : List (Word × Instr)).all (fun p => decide (decodeWord p.1 = some p.2)) = true := by decide +kernel

/-- The words of major 0x29. -/
theorem test_decode_lane : ([
  (0x29#6 ++ 0x1#1 ++ 0x5#4 ++ 0x11#7 ++ 0x2A#7 ++ 0x0#7, .shflIdx ⟨true, 5⟩ 0x11 0x2A),
  (0x29#6 ++ 0x1#1 ++ 0x5#4 ++ 0x11#7 ++ 0x2A#7 ++ 0x1#7, .first ⟨true, 5⟩ 0x11 0x2A),
  (0x29#6 ++ 0x1#1 ++ 0x5#4 ++ 0x11#7 ++ 0x2A#7 ++ 0x2#7, .vany ⟨true, 5⟩ 0x11 0x2A),
  (0x29#6 ++ 0x1#1 ++ 0x5#4 ++ 0x11#7 ++ 0x2A#7 ++ 0x3#7, .vall ⟨true, 5⟩ 0x11 0x2A),
  (0x29#6 ++ 0x1#1 ++ 0x5#4 ++ 0x11#7 ++ 0x2A#7 ++ 0x4#7, .vbal ⟨true, 5⟩ 0x11 0x2A),
  (0x29#6 ++ 0x1#1 ++ 0x5#4 ++ 0x11#7 ++ 0x2A#7 ++ 0x8#7, .iredsum ⟨true, 5⟩ 0x11 0x2A),
  (0x29#6 ++ 0x1#1 ++ 0x5#4 ++ 0x11#7 ++ 0x2A#7 ++ 0x9#7, .iredmin ⟨true, 5⟩ 0x11 0x2A),
  (0x29#6 ++ 0x1#1 ++ 0x5#4 ++ 0x11#7 ++ 0x2A#7 ++ 0xA#7, .iredmax ⟨true, 5⟩ 0x11 0x2A),
  (0x29#6 ++ 0x1#1 ++ 0x5#4 ++ 0x11#7 ++ 0x2A#7 ++ 0xB#7, .nredmin ⟨true, 5⟩ 0x11 0x2A),
  (0x29#6 ++ 0x1#1 ++ 0x5#4 ++ 0x11#7 ++ 0x2A#7 ++ 0xC#7, .nredmax ⟨true, 5⟩ 0x11 0x2A),
  (0x29#6 ++ 0x1#1 ++ 0x5#4 ++ 0x11#7 ++ 0x2A#7 ++ 0xD#7, .redand ⟨true, 5⟩ 0x11 0x2A),
  (0x29#6 ++ 0x1#1 ++ 0x5#4 ++ 0x11#7 ++ 0x2A#7 ++ 0xE#7, .redor ⟨true, 5⟩ 0x11 0x2A),
  (0x29#6 ++ 0x1#1 ++ 0x5#4 ++ 0x11#7 ++ 0x2A#7 ++ 0xF#7, .redxor ⟨true, 5⟩ 0x11 0x2A),
  (0x29#6 ++ 0x1#1 ++ 0x5#4 ++ 0x11#7 ++ 0x2A#7 ++ 0x10#7, .fredsum ⟨true, 5⟩ 0x11 0x2A),
  (0x29#6 ++ 0x1#1 ++ 0x5#4 ++ 0x11#7 ++ 0x2A#7 ++ 0x11#7, .fredmin ⟨true, 5⟩ 0x11 0x2A),
  (0x29#6 ++ 0x1#1 ++ 0x5#4 ++ 0x11#7 ++ 0x2A#7 ++ 0x12#7, .fredmax ⟨true, 5⟩ 0x11 0x2A),
  (0x29#6 ++ 0x1#1 ++ 0x5#4 ++ 0x11#7 ++ 0x2A#7 ++ 0x13#7, .hredsum ⟨true, 5⟩ 0x11 0x2A),
  (0x29#6 ++ 0x1#1 ++ 0x5#4 ++ 0x11#7 ++ 0x2A#7 ++ 0x18#7, .iscan ⟨true, 5⟩ 0x11 0x2A),
  (0x29#6 ++ 0x1#1 ++ 0x5#4 ++ 0x11#7 ++ 0x2A#7 ++ 0x19#7, .iscanx ⟨true, 5⟩ 0x11 0x2A),
  (0x29#6 ++ 0x1#1 ++ 0x5#4 ++ 0x11#7 ++ 0x2A#7 ++ 0x1A#7, .fscan ⟨true, 5⟩ 0x11 0x2A),
  (0x29#6 ++ 0x1#1 ++ 0x5#4 ++ 0x11#7 ++ 0x2A#7 ++ 0x1B#7, .fscanx ⟨true, 5⟩ 0x11 0x2A),
  (0x29#6 ++ 0x1#1 ++ 0x5#4 ++ 0x11#7 ++ 0x2A#7 ++ 0x1#2 ++ 0x15#5, .shflUp ⟨true, 5⟩ 0x11 0x2A 0x15),
  (0x29#6 ++ 0x1#1 ++ 0x5#4 ++ 0x11#7 ++ 0x2A#7 ++ 0x2#2 ++ 0x15#5, .shflDn ⟨true, 5⟩ 0x11 0x2A 0x15),
  (0x29#6 ++ 0x1#1 ++ 0x5#4 ++ 0x11#7 ++ 0x2A#7 ++ 0x3#2 ++ 0x15#5, .shflXor ⟨true, 5⟩ 0x11 0x2A 0x15)] : List (Word × Instr)).all (fun p => decide (decodeWord p.1 = some p.2)) = true := by decide +kernel

/-- The words of major 0x33. -/
theorem test_decode_major33 : ([
  (0x33#6 ++ 0x1#1 ++ 0x5#4 ++ 0x0#18 ++ 0x4#3, .fence ⟨true, 5⟩ 4),
  (0x33#6 ++ 0x1#1 ++ 0x5#4 ++ 0x1#18 ++ 0x4#3, .fenceAcq ⟨true, 5⟩ 4),
  (0x33#6 ++ 0x1#1 ++ 0x5#4 ++ 0x2#18 ++ 0x4#3, .fenceRel ⟨true, 5⟩ 4),
  (0x33#6 ++ 0x1#1 ++ 0x5#4 ++ 0x0#8 ++ 0x25#6 ++ 0x6#5 ++ 0x2#2, .waitc ⟨true, 5⟩ 0x25 2),
  (0x33#6 ++ 0x1#1 ++ 0x5#4 ++ 0x11#7 ++ 0x2A#7 ++ 0x4#4 ++ 0x4#3, .await ⟨true, 5⟩ 0x11 0x2A 4),
  (0x33#6 ++ 0x1#1 ++ 0x5#4 ++ 0x11#7 ++ 0x2A#7 ++ 0x28#7, .slfind ⟨true, 5⟩ 0x11 0x2A),
  (0x33#6 ++ 0x1#1 ++ 0x5#4 ++ 0x11#7 ++ 0x2A#7 ++ 0x30#7, .slset ⟨true, 5⟩ 0x11 0x2A),
  (0x33#6 ++ 0x1#1 ++ 0x5#4 ++ 0x0#7 ++ 0x2A#7 ++ 0x38#7, .sldrop ⟨true, 5⟩ 0x2A),
  (0x33#6 ++ 0x1#1 ++ 0x5#4 ++ 0x11#7 ++ 0x2A#7 ++ 0x40#7, .presq ⟨true, 5⟩ 0x11 0x2A),
  (0x33#6 ++ 0x1#1 ++ 0x5#4 ++ 0x0#7 ++ 0x2A#7 ++ 0x12#5 ++ 0x2#2, .pref ⟨true, 5⟩ 0x2A 2)] : List (Word × Instr)).all (fun p => decide (decodeWord p.1 = some p.2)) = true := by decide +kernel

/-- The words of major 0x36. -/
theorem test_decode_major36 : ([
  (0x36#6 ++ 0x1#1 ++ 0x5#4 ++ 0x0#7 ++ 0x2A#7 ++ 0x0#7, .mxclr ⟨true, 5⟩ 0x2A),
  (0x36#6 ++ 0x1#1 ++ 0x5#4 ++ 0x11#7 ++ 0x2A#7 ++ 0x1#7, .mxld ⟨true, 5⟩ 0x11 0x2A),
  (0x36#6 ++ 0x1#1 ++ 0x5#4 ++ 0x11#7 ++ 0x2A#7 ++ 0x2#7, .mxst ⟨true, 5⟩ 0x11 0x2A),
  (0x36#6 ++ 0x1#1 ++ 0x5#4 ++ 0x11#7 ++ 0x2A#7 ++ 0x3#7, .mxdrn ⟨true, 5⟩ 0x11 0x2A),
  (0x36#6 ++ 0x1#1 ++ 0x5#4 ++ 0x0#7 ++ 0x2A#7 ++ 0x4#7, .mxtol ⟨true, 5⟩ 0x2A),
  (0x36#6 ++ 0x1#1 ++ 0x5#4 ++ 0x11#7 ++ 0x5#14, .mxrtol ⟨true, 5⟩ 0x11),
  (0x36#6 ++ 0x1#1 ++ 0x5#4 ++ 0x6#21, .mxwait ⟨true, 5⟩)] : List (Word × Instr)).all (fun p => decide (decodeWord p.1 = some p.2)) = true := by decide +kernel

/-- The words of major 0x3F. -/
theorem test_decode_control : ([
  (0x3F#6 ++ 0x1#1 ++ 0x5#4 ++ 0x0#1 ++ 0x11#6 ++ 0x2ABC#14, .movc ⟨true, 5⟩ 0x11 0x2ABC),
  (0x3F#6 ++ 0x1#1 ++ 0x5#4 ++ 0x40#7 ++ 0x2A#7 ++ 0x0#7, .brx ⟨true, 5⟩ 0x2A),
  (0x3F#6 ++ 0x1#1 ++ 0x5#4 ++ 0x41#7 ++ 0x2A#7 ++ 0x0#7, .ret ⟨true, 5⟩ 0x2A),
  (0x3F#6 ++ 0x1#1 ++ 0x5#4 ++ 0x108000#21, .exit ⟨true, 5⟩),
  (0x3F#6 ++ 0x1#1 ++ 0x5#4 ++ 0x2180#14 ++ 0x7#7, .join ⟨true, 5⟩ 7),
  (0x3F#6 ++ 0x1#1 ++ 0x5#4 ++ 0x2200#14 ++ 0x7#7, .leave ⟨true, 5⟩ 7),
  (0x3F#6 ++ 0x1#1 ++ 0x5#4 ++ 0x2280#14 ++ 0x7#7, .waitm ⟨true, 5⟩ 7),
  (0x3F#6 ++ 0x1#1 ++ 0x5#4 ++ 0x118000#21, .yield ⟨true, 5⟩),
  (0x3F#6 ++ 0x1#1 ++ 0x5#4 ++ 0x2380#14 ++ 0xD#7, .setwb ⟨true, 5⟩ 0xD),
  (0x3F#6 ++ 0x1#1 ++ 0x5#4 ++ 0x120000#21, .brk ⟨true, 5⟩),
  (0x3F#6 ++ 0x1#1 ++ 0x5#4 ++ 0x2480#14 ++ 0x4D#7, .trap ⟨true, 5⟩ 0x4D),
  (0x3F#6 ++ 0x1#1 ++ 0x5#4 ++ 0x128000#21, .tret ⟨true, 5⟩),
  (0x3F#6 ++ 0x1#1 ++ 0x5#4 ++ 0x4B#7 ++ 0x2A#7 ++ 0x38#7, .rdsr ⟨true, 5⟩ 0x2A 0x38),
  (0x3F#6 ++ 0x1#1 ++ 0x5#4 ++ 0x4C#7 ++ 0x2A#7 ++ 0x38#7, .wrsr ⟨true, 5⟩ 0x2A 0x38),
  (0x3F#6 ++ 0x1#1 ++ 0x5#4 ++ 0x4D#7 ++ 0x2A#7 ++ 0x0#7, .launch ⟨true, 5⟩ 0x2A),
  (0x3F#6 ++ 0x1#1 ++ 0x5#4 ++ 0x4E#7 ++ 0x2A#7 ++ 0x0#7, .facsim ⟨true, 5⟩ 0x2A),
  (0x3F#6 ++ 0x1#1 ++ 0x5#4 ++ 0x13C000#21, .smpsusp ⟨true, 5⟩),
  (0x3F#6 ++ 0x1#1 ++ 0x5#4 ++ 0x140000#21, .smpres ⟨true, 5⟩)] : List (Word × Instr)).all (fun p => decide (decodeWord p.1 = some p.2)) = true := by decide +kernel

/-- Words of the majors that have few codes. -/
theorem test_decode_majors1 : ([
  (0x0#6 ++ 0x1#1 ++ 0x5#4 ++ 0x11#7 ++ 0x2A#7 ++ 0x63#7, .iadd ⟨true, 5⟩ 0x11 0x2A 0x63),
  (0x1#6 ++ 0x1#1 ++ 0x5#4 ++ 0x11#7 ++ 0x2A#7 ++ 0x63#7, .isub ⟨true, 5⟩ 0x11 0x2A 0x63),
  (0x2#6 ++ 0x1#1 ++ 0x5#4 ++ 0x11#7 ++ 0x2A#7 ++ 0x63#7, .imul ⟨true, 5⟩ 0x11 0x2A 0x63),
  (0x3#6 ++ 0x1#1 ++ 0x5#4 ++ 0x11#7 ++ 0x2A#7 ++ 0x63#7, .imad ⟨true, 5⟩ 0x11 0x2A 0x63),
  (0x4#6 ++ 0x1#1 ++ 0x5#4 ++ 0x11#7 ++ 0x2A#7 ++ 0x63#7, .imulh ⟨true, 5⟩ 0x11 0x2A 0x63),
  (0x5#6 ++ 0x1#1 ++ 0x5#4 ++ 0x11#7 ++ 0x2A#7 ++ 0x63#7, .imulhn ⟨true, 5⟩ 0x11 0x2A 0x63),
  (0x6#6 ++ 0x1#1 ++ 0x5#4 ++ 0x11#7 ++ 0x2A#7 ++ 0x63#7, .and ⟨true, 5⟩ 0x11 0x2A 0x63),
  (0x7#6 ++ 0x1#1 ++ 0x5#4 ++ 0x11#7 ++ 0x2A#7 ++ 0x63#7, .or ⟨true, 5⟩ 0x11 0x2A 0x63),
  (0x8#6 ++ 0x1#1 ++ 0x5#4 ++ 0x11#7 ++ 0x2A#7 ++ 0x63#7, .xor ⟨true, 5⟩ 0x11 0x2A 0x63),
  (0x9#6 ++ 0x1#1 ++ 0x5#4 ++ 0x11#7 ++ 0x2A#7 ++ 0x63#7, .andn ⟨true, 5⟩ 0x11 0x2A 0x63),
  (0xA#6 ++ 0x1#1 ++ 0x5#4 ++ 0x11#7 ++ 0x2A#7 ++ 0x63#7, .shl ⟨true, 5⟩ 0x11 0x2A 0x63),
  (0xB#6 ++ 0x1#1 ++ 0x5#4 ++ 0x11#7 ++ 0x2A#7 ++ 0x63#7, .shr ⟨true, 5⟩ 0x11 0x2A 0x63),
  (0xC#6 ++ 0x1#1 ++ 0x5#4 ++ 0x11#7 ++ 0x2A#7 ++ 0x63#7, .sra ⟨true, 5⟩ 0x11 0x2A 0x63),
  (0xD#6 ++ 0x1#1 ++ 0x5#4 ++ 0x11#7 ++ 0x2A#7 ++ 0x63#7, .imin ⟨true, 5⟩ 0x11 0x2A 0x63),
  (0xE#6 ++ 0x1#1 ++ 0x5#4 ++ 0x11#7 ++ 0x2A#7 ++ 0x63#7, .imax ⟨true, 5⟩ 0x11 0x2A 0x63),
  (0xF#6 ++ 0x1#1 ++ 0x5#4 ++ 0x11#7 ++ 0x2A#7 ++ 0x63#7, .nmin ⟨true, 5⟩ 0x11 0x2A 0x63),
  (0x10#6 ++ 0x1#1 ++ 0x5#4 ++ 0x11#7 ++ 0x2A#7 ++ 0x63#7, .nmax ⟨true, 5⟩ 0x11 0x2A 0x63),
  (0x11#6 ++ 0x1#1 ++ 0x5#4 ++ 0x11#7 ++ 0x2A#7 ++ 0x63#7, .sel ⟨true, 5⟩ 0x11 0x2A 0x63),
  (0x12#6 ++ 0x1#1 ++ 0x5#4 ++ 0x11#7 ++ 0x2A#7 ++ 0x63#7, .bfx ⟨true, 5⟩ 0x11 0x2A 0x63),
  (0x13#6 ++ 0x1#1 ++ 0x5#4 ++ 0x11#7 ++ 0x2A#7 ++ 0x63#7, .bfi ⟨true, 5⟩ 0x11 0x2A 0x63),
  (0x15#6 ++ 0x1#1 ++ 0x5#4 ++ 0x11#7 ++ 0x2A#7 ++ 0x0#2 ++ 0x15#5, .shli ⟨true, 5⟩ 0x11 0x2A 0x15),
  (0x15#6 ++ 0x1#1 ++ 0x5#4 ++ 0x11#7 ++ 0x2A#7 ++ 0x1#2 ++ 0x15#5, .shri ⟨true, 5⟩ 0x11 0x2A 0x15),
  (0x15#6 ++ 0x1#1 ++ 0x5#4 ++ 0x11#7 ++ 0x2A#7 ++ 0x2#2 ++ 0x15#5, .srai ⟨true, 5⟩ 0x11 0x2A 0x15),
  (0x15#6 ++ 0x1#1 ++ 0x5#4 ++ 0x11#7 ++ 0x2A#7 ++ 0x3#2 ++ 0x15#5, .rori ⟨true, 5⟩ 0x11 0x2A 0x15)] : List (Word × Instr)).all (fun p => decide (decodeWord p.1 = some p.2)) = true := by decide +kernel

/-- Words of the majors that have few codes. -/
theorem test_decode_majors2 : ([
  (0x16#6 ++ 0x1#1 ++ 0x5#4 ++ 0x11#7 ++ 0x2ABC#14, .movi ⟨true, 5⟩ 0x11 0x2ABC),
  (0x17#6 ++ 0x1#1 ++ 0x5#4 ++ 0x11#7 ++ 0x2ABC#14, .addi ⟨true, 5⟩ 0x11 0x2ABC),
  (0x18#6 ++ 0x1#1 ++ 0x5#4 ++ 0x11#7 ++ 0x2A#7 ++ 0x63#7, .fadd ⟨true, 5⟩ 0x11 0x2A 0x63),
  (0x19#6 ++ 0x1#1 ++ 0x5#4 ++ 0x11#7 ++ 0x2A#7 ++ 0x63#7, .fmul ⟨true, 5⟩ 0x11 0x2A 0x63),
  (0x1A#6 ++ 0x1#1 ++ 0x5#4 ++ 0x11#7 ++ 0x2A#7 ++ 0x63#7, .ffma ⟨true, 5⟩ 0x11 0x2A 0x63),
  (0x1B#6 ++ 0x1#1 ++ 0x5#4 ++ 0x11#7 ++ 0x2A#7 ++ 0x63#7, .fmin ⟨true, 5⟩ 0x11 0x2A 0x63),
  (0x1C#6 ++ 0x1#1 ++ 0x5#4 ++ 0x11#7 ++ 0x2A#7 ++ 0x63#7, .fmax ⟨true, 5⟩ 0x11 0x2A 0x63),
  (0x1D#6 ++ 0x1#1 ++ 0x5#4 ++ 0x11#7 ++ 0x2A#7 ++ 0x63#7, .hadd ⟨true, 5⟩ 0x11 0x2A 0x63),
  (0x1E#6 ++ 0x1#1 ++ 0x5#4 ++ 0x11#7 ++ 0x2A#7 ++ 0x63#7, .hmul ⟨true, 5⟩ 0x11 0x2A 0x63),
  (0x1F#6 ++ 0x1#1 ++ 0x5#4 ++ 0x11#7 ++ 0x2A#7 ++ 0x63#7, .hfma ⟨true, 5⟩ 0x11 0x2A 0x63),
  (0x20#6 ++ 0x1#1 ++ 0x5#4 ++ 0x11#7 ++ 0x2A#7 ++ 0x63#7, .hmin ⟨true, 5⟩ 0x11 0x2A 0x63),
  (0x21#6 ++ 0x1#1 ++ 0x5#4 ++ 0x11#7 ++ 0x2A#7 ++ 0x63#7, .hmax ⟨true, 5⟩ 0x11 0x2A 0x63),
  (0x22#6 ++ 0x1#1 ++ 0x5#4 ++ 0x11#7 ++ 0x2A#7 ++ 0x63#7, .bfma ⟨true, 5⟩ 0x11 0x2A 0x63),
  (0x25#6 ++ 0x1#1 ++ 0x5#4 ++ 0x6#4 ++ 0x2#3 ++ 0x2A#7 ++ 0x63#7, .icmp ⟨true, 5⟩ 6 2 0x2A 0x63),
  (0x26#6 ++ 0x1#1 ++ 0x5#4 ++ 0x6#4 ++ 0x2#3 ++ 0x2A#7 ++ 0x63#7, .fcmp ⟨true, 5⟩ 6 2 0x2A 0x63),
  (0x27#6 ++ 0x1#1 ++ 0x5#4 ++ 0x6#4 ++ 0x2#3 ++ 0x2A#7 ++ 0x63#7, .hcmp ⟨true, 5⟩ 6 2 0x2A 0x63),
  (0x2A#6 ++ 0x1#1 ++ 0x5#4 ++ 0x11#7 ++ 0x2A#7 ++ 0x2#2 ++ 0x2#2 ++ 0x4#3, .ld ⟨true, 5⟩ 0x11 0x2A 2 2 4),
  (0x2B#6 ++ 0x1#1 ++ 0x5#4 ++ 0x11#7 ++ 0x2A#7 ++ 0x1#2 ++ 0x2#2 ++ 0x5#3, .st ⟨true, 5⟩ 0x11 0x2A 1 2 5),
  (0x2C#6 ++ 0x1#1 ++ 0x5#4 ++ 0x11#7 ++ 0x2A#7 ++ 0x0#2 ++ 0x2#2 ++ 0x4#3, .lda ⟨true, 5⟩ 0x11 0x2A 2 4),
  (0x2C#6 ++ 0x1#1 ++ 0x5#4 ++ 0x11#7 ++ 0x2A#7 ++ 0x2#2 ++ 0x2#2 ++ 0x4#3, .stl ⟨true, 5⟩ 0x11 0x2A 2 4),
  (0x2D#6 ++ 0x1#1 ++ 0x5#4 ++ 0x11#7 ++ 0x2A#7 ++ 0x0#2 ++ 0x2#2 ++ 0x4#3, .lds ⟨true, 5⟩ 0x11 0x2A 2 4),
  (0x2E#6 ++ 0x1#1 ++ 0x5#4 ++ 0x11#7 ++ 0x2A#7 ++ 0x0#2 ++ 0x2#2 ++ 0x5#3, .sts ⟨true, 5⟩ 0x11 0x2A 2 5),
  (0x2F#6 ++ 0x1#1 ++ 0x5#4 ++ 0x11#7 ++ 0x2A#7 ++ 0x1#2 ++ 0x1#1 ++ 0x2#2 ++ 0x2#2, .gath ⟨true, 5⟩ 0x11 0x2A 1 true 2 2),
  (0x30#6 ++ 0x1#1 ++ 0x5#4 ++ 0x11#7 ++ 0x2A#7 ++ 0x1#2 ++ 0x1#1 ++ 0x2#2 ++ 0x2#2, .scat ⟨true, 5⟩ 0x11 0x2A 1 true 2 2)] : List (Word × Instr)).all (fun p => decide (decodeWord p.1 = some p.2)) = true := by decide +kernel

/-- Words of the majors that have few codes. -/
theorem test_decode_majors3 : ([
  (0x31#6 ++ 0x1#1 ++ 0x5#4 ++ 0x11#7 ++ 0x2A#7 ++ 0x9#4 ++ 0x4#3, .atom ⟨true, 5⟩ 0x11 0x2A 9 4),
  (0x32#6 ++ 0x1#1 ++ 0x5#4 ++ 0x11#7 ++ 0x2A#7 ++ 0x9#4 ++ 0x4#3, .atoms ⟨true, 5⟩ 0x11 0x2A 9 4),
  (0x34#6 ++ 0x1#1 ++ 0x5#4 ++ 0x11#7 ++ 0x2A#7 ++ 0x63#7, .mma ⟨true, 5⟩ 0x11 0x2A 0x63),
  (0x35#6 ++ 0x1#1 ++ 0x5#4 ++ 0x0#7 ++ 0x2A#7 ++ 0x0#2 ++ 0x2#2 ++ 0x0#3, .tileopGemm ⟨true, 5⟩ 0x2A 2),
  (0x35#6 ++ 0x1#1 ++ 0x5#4 ++ 0x0#7 ++ 0x2A#7 ++ 0x0#2 ++ 0x2#2 ++ 0x1#3, .tileopTrq ⟨true, 5⟩ 0x2A 2),
  (0x35#6 ++ 0x1#1 ++ 0x5#4 ++ 0x0#7 ++ 0x2A#7 ++ 0x0#2 ++ 0x2#2 ++ 0x2#3, .tileopCkv ⟨true, 5⟩ 0x2A 2),
  (0x35#6 ++ 0x1#1 ++ 0x5#4 ++ 0x0#7 ++ 0x2A#7 ++ 0x0#2 ++ 0x2#2 ++ 0x3#3, .tileopDrn ⟨true, 5⟩ 0x2A 2),
  (0x37#6 ++ 0x1#1 ++ 0x5#4 ++ 0x0#7 ++ 0x2A#7 ++ 0x0#3 ++ 0xB#4, .copy ⟨true, 5⟩ 0x2A 0xB),
  (0x37#6 ++ 0x1#1 ++ 0x5#4 ++ 0x0#7 ++ 0x2A#7 ++ 0x10#7, .publish ⟨true, 5⟩ 0x2A),
  (0x38#6 ++ 0x1#1 ++ 0x5#4 ++ 0x11#7 ++ 0x2A#7 ++ 0x0#3 ++ 0xB#4, .mcast ⟨true, 5⟩ 0x11 0x2A 0xB),
  (0x39#6 ++ 0x1#1 ++ 0x5#4 ++ 0x0#7 ++ 0x2A#7 ++ 0x0#3 ++ 0xB#4, .nbinit ⟨true, 5⟩ 0x2A 0xB),
  (0x39#6 ++ 0x1#1 ++ 0x5#4 ++ 0x1#17 ++ 0xB#4, .nbarr ⟨true, 5⟩ 0xB),
  (0x39#6 ++ 0x1#1 ++ 0x5#4 ++ 0x0#7 ++ 0x2A#7 ++ 0x2#3 ++ 0xB#4, .nbwait ⟨true, 5⟩ 0x2A 0xB),
  (0x39#6 ++ 0x1#1 ++ 0x5#4 ++ 0x3#17 ++ 0xB#4, .nbsync ⟨true, 5⟩ 0xB),
  (0x39#6 ++ 0x1#1 ++ 0x5#4 ++ 0x11#7 ++ 0x4#10 ++ 0xB#4, .waitl ⟨true, 5⟩ 0x11 0xB),
  (0x39#6 ++ 0x1#1 ++ 0x5#4 ++ 0x11#7 ++ 0x5#10 ++ 0xB#4, .nbrd ⟨true, 5⟩ 0x11 0xB),
  (0x3A#6 ++ 0x1#1 ++ 0x5#4 ++ 0x11#7 ++ 0x2A#7 ++ 0x0#7, .callslip ⟨true, 5⟩ 0x11 0x2A),
  (0x3A#6 ++ 0x1#1 ++ 0x5#4 ++ 0x11#7 ++ 0x2A#7 ++ 0x1#7, .accession ⟨true, 5⟩ 0x11 0x2A),
  (0x3A#6 ++ 0x1#1 ++ 0x5#4 ++ 0x0#7 ++ 0x2A#7 ++ 0x2#7, .slipcan ⟨true, 5⟩ 0x2A),
  (0x3B#6 ++ 0x1#1 ++ 0x5#4 ++ 0x0#7 ++ 0x2A#7 ++ 0x0#7, .handoff ⟨true, 5⟩ 0x2A),
  (0x3B#6 ++ 0x1#1 ++ 0x5#4 ++ 0x11#7 ++ 0x1#14, .handwait ⟨true, 5⟩ 0x11),
  (0x3B#6 ++ 0x1#1 ++ 0x5#4 ++ 0x0#7 ++ 0x2A#7 ++ 0x2#7, .collred ⟨true, 5⟩ 0x2A),
  (0x3B#6 ++ 0x1#1 ++ 0x5#4 ++ 0x0#7 ++ 0x2A#7 ++ 0x3#7, .collrsc ⟨true, 5⟩ 0x2A),
  (0x3B#6 ++ 0x1#1 ++ 0x5#4 ++ 0x0#7 ++ 0x2A#7 ++ 0x4#7, .collgat ⟨true, 5⟩ 0x2A)] : List (Word × Instr)).all (fun p => decide (decodeWord p.1 = some p.2)) = true := by decide +kernel

/-- Words of the majors that have few codes. -/
theorem test_decode_majors4 : ([
  (0x3B#6 ++ 0x1#1 ++ 0x5#4 ++ 0x0#7 ++ 0x2A#7 ++ 0x5#7, .collbc ⟨true, 5⟩ 0x2A),
  (0x3C#6 ++ 0x1#1 ++ 0x5#4 ++ 0x2D#7 ++ 0x2A#7 ++ 0x0#7, .opreg ⟨true, 5⟩ 0x2D 0x2A),
  (0x3C#6 ++ 0x1#1 ++ 0x5#4 ++ 0x2D#7 ++ 0x2A#7 ++ 0x1#7, .opdo ⟨true, 5⟩ 0x2D 0x2A),
  (0x3C#6 ++ 0x1#1 ++ 0x5#4 ++ 0x0#7 ++ 0x2A#7 ++ 0x2#7, .conld ⟨true, 5⟩ 0x2A),
  (0x3D#6 ++ 0x1#1 ++ 0x5#4 ++ 0x1ABCDE#21, .bra ⟨true, 5⟩ 0x1ABCDE),
  (0x3E#6 ++ 0x1#1 ++ 0x5#4 ++ 0x1ABCDE#21, .call ⟨true, 5⟩ 0x1ABCDE)] : List (Word × Instr)).all (fun p => decide (decodeWord p.1 = some p.2)) = true := by decide +kernel

/-! ### Small states -/

/-- The issue of the loaded kernel's one group, by some lanes of its sixteen. -/
def issuing (lanes : LaneMask) : State := { State.reset.loadCode [0] with cur := some ⟨0, 0, lanes, 0, false⟩, inbox := [] }

/-- A state with some registers set in every lane of the group. -/
def withRegs (s : State) (xs : List (Nat × Word)) : State :=
  s.onGroup 0 0 (fun g => { g with lanes := g.lanes.map (fun l => xs.foldl (fun l x => l.setReg x.1 x.2) l) })

/-- A state with its image's header bytes from an offset replaced. -/
def withHeader (s : State) (off : Nat) (bs : List Byte) : State :=
  { s with images := s.images.map (fun m => { m with header := m.header.take off ++ bs ++ m.header.drop (off + bs.length) }) }

/-- A state whose context 0 maps the gibibyte at 0x40000000 to physical 0, readable and writable, through a table at 0x1000 that is its own
next level; the gibibytes after it are unmapped, left to the host to supply, and mapped without a right. -/
def mapped (s : State) : State :=
  { s with mem := Memory.write s.mem 0x1000 (leBytes 8 0x1001 ++ leBytes 8 0x1B ++ leBytes 8 0 ++ leBytes 8 4 ++ leBytes 8 3) }.onCtx 0 (fun c => { c with base := 0x1000 })

/-- The issue of a state. -/
def iss (s : State) : Issue :=
  match s.issue? with
  | some i => i
  | none => ⟨⟨0, 0, 0, 0, false⟩, loadTeam 0 1 0 (loadImage []), Group.start 0 16 120 0 0 0 1 0, loadLaunch 1, loadImage []⟩

/-- The state that an outcome answers. -/
def after (o : Outcome State Fault Refusal) : State :=
  match o with
  | .next t => t
  | .fault _ => State.reset
  | .refused _ => State.reset

/-- An outcome is a next state. -/
def goes (o : Outcome State Fault Refusal) : Bool :=
  match o with
  | .next _ => true
  | .fault _ => false
  | .refused _ => false

/-- The group of the loaded kernel. -/
def grp (s : State) : Group := (s.group? 0 0).getD (Group.start 0 0 0 0 0 0 0 0)

/-- The team of the loaded kernel. -/
def team (s : State) : Team := (s.team? 0).getD (loadTeam 0 1 0 (loadImage []))

/-- A register of a lane of the loaded kernel's group. -/
def reg (s : State) (l p : Nat) : Word := ((grp s).lane l).reg p

/-- The checks of R72 pass, said as one decision. -/
def passB (s : State) (form : Bool) (os : List Opnd) (scope : Bool) : Bool :=
  s.issue?.isSome && decide ((iss s).checkScope form os scope = none) && !(s.interlocked (iss s) os)

theorem passes {s : State} {form scope : Bool} {os : List Opnd} (h : passB s form os scope = true) : Passes s (iss s) form os scope := by
  simp only [passB, Bool.and_eq_true, decide_eq_true_eq, Bool.not_eq_true'] at h
  refine ⟨?_, h.1.2, h.2⟩
  cases e : s.issue? with
  | none => rw [e] at h; exact absurd h.1.1 (by simp)
  | some i => simp only [iss, e]

/-- The reachability of R135 and R337, said as one decision. -/
def reachB (s : State) (xs : List (Nat × Dword)) (n : Nat) (u : Use) : Bool :=
  xs.all (fun x => decide (x.2.toNat % n = 0) && (match s.translate (iss s).team.ctx x.2 u with
    | .ok l => !(s.meterRefuses l (iss s).image.meas) && !(s.poisonedFor (iss s).cur.team (iss s).team.ctx (iss s).grp.core l.pa n)
    | .fault => false
    | .replay => false
    | .deny => false) &&
    (match s.ctx? (iss s).team.ctx with
     | some c => decide (c.watchpoint x.2.toNat n (u != .write) (u != .read) = none)
     | none => true))

theorem reachable {s : State} {xs : List (Nat × Dword)} {n : Nat} {u : Use} (h : reachB s xs n u = true) : Reachable s (iss s) xs n u := by
  have key : ∀ x ∈ xs, x.2.toNat % n = 0 ∧ (∃ l, s.translate (iss s).team.ctx x.2 u = .ok l ∧ s.meterRefuses l (iss s).image.meas = false ∧
      s.poisonedFor (iss s).cur.team (iss s).team.ctx (iss s).grp.core l.pa n = false) ∧ ∀ c, s.ctx? (iss s).team.ctx = some c → c.watchpoint x.2.toNat n (u != .write) (u != .read) = none := by
    intro x hx
    have a := List.all_eq_true.mp h x hx
    simp only [Bool.and_eq_true, decide_eq_true_eq] at a
    refine ⟨a.1.1, ?_, ?_⟩
    · cases e : s.translate (iss s).team.ctx x.2 u with
      | ok l =>
        have b := a.1.2
        rw [e] at b
        simp only [Bool.and_eq_true, Bool.not_eq_true'] at b
        exact ⟨l, rfl, b.1, b.2⟩
      | fault => have b := a.1.2; rw [e] at b; exact absurd b (by simp)
      | replay => have b := a.1.2; rw [e] at b; exact absurd b (by simp)
      | deny => have b := a.1.2; rw [e] at b; exact absurd b (by simp)
    · intro c hc
      have b := a.2
      rw [hc] at b
      simpa using b
  refine ⟨⟨fun x hx => (key x hx).1, fun x hx => ?_⟩, fun c hc _ _ x hx => (key x hx).2.2 c hc⟩
  obtain ⟨l, p, q, r⟩ := (key x hx).2.1
  exact ⟨l, p, q, fun _ _ => r⟩

/-- Two sources for the register-only tests: v2 = -10, v3 = 3, v4 and v5 a pair, and D v8 = 100. -/
def regs1 : State := withRegs (issuing 0xFFFF) [(2, 0xFFFFFFF6), (3, 3), (4, 0x00000001), (5, 0x80000000), (8, 100), (9, 7)]

/-- The word an instruction leaves in a register of lane 0. -/
def gives (s : State) (i : Instr) (p : Nat) : Word := reg (after (exec i s)) 0 p

/-! ### Register-only operations -/

theorem test_integer_three : ([(.iadd always 1 2 3, 0xFFFFFFF9), (.isub always 1 2 3, 0xFFFFFFF3), (.imul always 1 2 3, 0xFFFFFFE2),
  (.imulh always 1 2 3, 0xFFFFFFFF), (.imulhn always 1 2 3, 2), (.and always 1 2 3, 2), (.or always 1 2 3, 0xFFFFFFF7), (.xor always 1 2 3, 0xFFFFFFF5),
  (.andn always 1 2 3, 0xFFFFFFF4), (.shl always 1 2 3, 0xFFFFFFB0), (.shr always 1 2 3, 0x1FFFFFFE), (.sra always 1 2 3, 0xFFFFFFFE),
  (.imin always 1 2 3, 0xFFFFFFF6), (.imax always 1 2 3, 3), (.nmin always 1 2 3, 3), (.nmax always 1 2 3, 0xFFFFFFF6)] : List (Instr × Word)).all
  (fun c => decide (gives regs1 c.1 1 = c.2)) = true := by decide +kernel

theorem test_integer_shift_by_32 : gives (withRegs (issuing 1) [(2, 0x80000001), (3, 32)]) (.shl always 1 2 3) 1 = 0 ∧
  gives (withRegs (issuing 1) [(2, 0x80000001), (3, 32)]) (.sra always 1 2 3) 1 = 0xFFFFFFFF := by decide +kernel

theorem test_integer_others : ([(.imad always 8 2 3, 8, 70), (.sel always 1 2 3, 1, 0xFFFFFFF6), (.sel ⟨true, 0⟩ 1 2 3, 1, 3), (.bfx always 1 5 9, 1, 0),
  (.bfi always 8 2 9, 8, 100), (.add64 always 8 4, 9, 0x80000007), (.sub64 always 8 4, 9, 0x80000007), (.divs always 2 3, 2, 0xFFFFFFFD),
  (.divn always 2 3, 2, 0x55555552), (.rems always 2 3, 2, 0xFFFFFFFF), (.remn always 2 3, 2, 0), (.divs always 8 1, 8, 0xFFFFFFFF),
  (.remn always 8 1, 8, 100), (.popc always 1 2, 1, 30), (.clz always 1 3, 1, 30), (.brev always 1 3, 1, 0xC0000000),
  (.bswap always 1 2, 1, 0xF6FFFFFF), (.iabs always 1 2, 1, 10), (.ineg always 1 3, 1, 0xFFFFFFFD), (.mov always 1 2, 1, 0xFFFFFFF6),
  (.shli always 1 3 4, 1, 48), (.shri always 1 2 28, 1, 15), (.srai always 1 2 1, 1, 0xFFFFFFFB), (.rori always 1 3 1, 1, 0x80000001),
  (.movi always 1 0x3FFF, 1, 0xFFFFFFFF), (.addi always 8 0x3FFF, 8, 99)] : List (Instr × Nat × Word)).all
  (fun c => decide (gives regs1 c.1 c.2.1 = c.2.2)) = true := by decide +kernel

/-- 1.5, -2.25, 3.0 and a quiet NaN for the floating-point tests, halves 1.0 and 2.0, and halves 0.5 and 4.0. -/
def regs2 : State := withRegs (issuing 0xFFFF) [(2, 0x3FC00000), (3, 0xC0100000), (4, 0x40400000), (5, 0x7FC00001), (6, 0x3C004000), (7, 0x38004400),
  (8, 0x3F800000), (10, 0x40800000)]

theorem test_float_three : ([(.fadd always 1 2 3, 1, 0xBF400000), (.fmul always 1 2 3, 1, 0xC0580000), (.ffma always 4 2 3, 4, 0xBEC00000),
  (.fmin always 1 2 3, 1, 0xC0100000), (.fmax always 1 2 3, 1, 0x3FC00000), (.fmax always 1 2 5, 1, 0x3FC00000), (.hadd always 1 6 7, 1, 0x3E004600),
  (.hmul always 1 6 7, 1, 0x38004800), (.hfma always 6 6 7, 6, 0x3E004900), (.hmin always 1 6 7, 1, 0x38004000), (.hmax always 1 6 7, 1, 0x3C004400)]
  : List (Instr × Nat × Word)).all (fun c => decide (gives regs2 c.1 c.2.1 = c.2.2)) = true := by decide +kernel

theorem test_float_bfma : gives (withRegs (issuing 1) [(1, 0x3F803F80), (2, 0x40004000), (3, 0x40404040)]) (.bfma always 1 2 3) 1 = 0x40E040E0 := by
  decide +kernel

theorem test_float_one : ([(.fsqrt always 1 10, 0x40000000), (.frcp always 1 10, 0x3E800000), (.frsq always 1 10, 0x3F000000), (.fexp2 always 1 4, 0x41000000),
  (.flog2 always 1 10, 0x40000000), (.fsin always 1 0, 0), (.fcos always 1 0, 0x3F800000), (.ftanh always 1 0, 0), (.fabs always 1 3, 0x40100000),
  (.fneg always 1 3, 0x40100000), (.frint always 1 2, 0x40000000), (.ffloor always 1 3, 0xC0400000), (.fceil always 1 3, 0xC0000000),
  (.ftrunc always 1 3, 0xC0000000), (.habs always 1 6, 0x3C004000), (.hneg always 1 6, 0xBC00C000), (.hsqrt always 1 7, 0x39A84000),
  (.hrcp always 1 7, 0x40003400), (.babs always 1 3, 0x40100000), (.bneg always 1 3, 0x40108000)] : List (Instr × Word)).all
  (fun c => decide (gives regs2 c.1 1 = c.2)) = true := by decide +kernel

theorem test_float_class : gives regs2 (.fclass always 1 5) 1 ≠ gives regs2 (.fclass always 1 2) 1 := by decide +kernel

theorem test_convert : ([(regs1, .cvtF32I32 always 1 2, 1, 0xC1200000), (regs1, .cvtF32N32 always 1 3, 1, 0x40400000), (regs2, .cvtI32F32 always 1 3, 1, 0xFFFFFFFE),
  (regs2, .cvtN32F32 always 1 3, 1, 0), (regs2, .cvtF32H2Lo always 1 6, 1, 0x40000000), (regs2, .cvtF32H2Hi always 1 6, 1, 0x3F800000),
  (regs2, .cvtH2F32 always 1 2 false, 1, 0xC0803E00), (regs2, .cvtF32B2Lo always 1 6, 1, 0x40000000), (regs2, .cvtF32B2Hi always 1 8, 1, 0x3F800000),
  (regs2, .cvtB2F32 always 1 2 false, 1, 0xC0103FC0), (regs2, .cvtH2B2 always 1 8 false, 1, 0x3C000000), (regs2, .cvtB2H2 always 1 6 false, 1, 0x3F804000),
  (regs2, .cvtF32E4m3 always 12 8, 15, 0x3FF00000), (regs2, .cvtF32E5m2 always 12 8, 15, 0x3FE00000), (regs1, .cvtI32I8 always 12 2, 12, 0xFFFFFFF6),
  (regs1, .cvtN32N8 always 12 2, 12, 0xF6), (regs1, .cvtI8I32 always 12 1, 12, 0x0103F600), (regs1, .cvtN8N32 always 12 1, 12, 0x0103FF00)]
  : List (State × Instr × Nat × Word)).all (fun c => decide (gives c.1 c.2.1 c.2.2.1 = c.2.2.2)) = true := by decide +kernel

/-- Four FP32 values 1.0, 2.0, -0.5 and 6.0 from v20. -/
def regs3 : State := withRegs (issuing 1) [(20, 0x3F800000), (21, 0x40000000), (22, 0xBF000000), (23, 0x40C00000), (24, 0x3C004000), (25, 0xB8004600), (26, 0x4C38)]

theorem test_convert_narrow : ([(.cvtE4m3F32 always 1 20 false, 1, 0x4CB04038), (.cvtE5m2F32 always 1 20 false, 1, 0x46B8403C), (.cvtE2m1F32 always 1 20 false, 1, 0x7942),
  (.cvtE4m3H2 always 1 24 false, 1, 0xB04C3840), (.cvtF32E2m1 always 4 26, 4, 0x80000000), (.cvtF32E2m1 always 4 26, 7, 0x40000000), (.cvtH2E4m3 always 4 26, 4, 0x46003C00)]
  : List (Instr × Nat × Word)).all (fun c => decide (gives regs3 c.1 c.2.1 = c.2.2)) = true := by decide +kernel

/-- A predicate of lane 0 after an instruction. -/
def predOf (s : State) (i : Instr) (p : Nat) : Bool := ((grp (after (exec i s))).lane 0).pred p

theorem test_compares : ([(regs1, .icmp always 2 2 2 3, true), (regs1, .icmp always 2 6 2 3, false), (regs1, .icmp always 3 0 2 3, false), (regs1, .icmp always 3 0 2 3, false),
  (regs2, .fcmp always 2 4 2 3, true), (regs2, .fcmp always 2 1 2 5, true), (regs2, .fcmp always 2 0 5 5, false), (regs2, .hcmp always 2 2 6 7, true)]
  : List (State × Instr × Bool)).all (fun c => decide (predOf c.1 c.2.1 2 = c.2.2 ∨ predOf c.1 c.2.1 3 = c.2.2)) = true ∧
  predOf regs1 (.icmp always 2 2 2 3) 3 = false ∧ predOf regs1 (.icmp always 2 2 2 3) 2 = true ∧ predOf regs2 (.hcmp always 2 2 6 7) 3 = false := by decide +kernel

theorem test_predicates : predOf regs1 (.pand always 2 0 0) 2 = true ∧ predOf regs1 (.por always 2 1 0) 2 = true ∧ predOf regs1 (.pxor always 2 0 0) 2 = false ∧
  predOf regs1 (.pandn always 2 0 1) 2 = true ∧ predOf regs1 (.pnot always 2 1) 2 = true ∧ predOf regs1 (.pnot always 0 0) 0 = true ∧ predOf regs1 (.ptst always 2 3) 2 = true ∧
  gives regs1 (.ptov always 1) 1 = 1 ∧ predOf regs1 (.vtop always 2) 2 = true ∧ predOf regs1 (.vtop always 2) 3 = false := by decide +kernel

/-- The group with its lane number in v1, plus 5 in v2. -/
def lanes16 (exec : LaneMask) : State :=
  let s := issuing exec
  s.onGroup 0 0 (fun g => { g with lanes := mapFrom (fun (k : Nat) (l : Lane) => (l.setReg 1 (BitVec.ofNat 32 k)).setReg 2 (BitVec.ofNat 32 (k + 5))) 0 g.lanes })

/-- A register of lane 3 after an instruction. -/
def gives3 (i : Instr) (exec : LaneMask) : Word := reg (after (exec_ i (lanes16 exec))) 3 4
where exec_ (i : Instr) (s : State) := Machine.exec i s

theorem test_lane_exchanges : ([(.shflIdx always 4 2, 0xFFFF, 5), (.shflUp always 4 2 1, 0xFFFF, 7), (.shflDn always 4 2 2, 0xFFFF, 10), (.shflXor always 4 2 1, 0xFFFF, 7),
  (.shflDn always 4 2 2, 0x000F, 8), (.first always 4 2, 0xFFFC, 7), (.vany always 4 1, 0xFFFF, 1), (.vall always 4 1, 0xFFFF, 0), (.vbal always 4 1, 0xFFFF, 0xFFFE),
  (.iredsum always 4 1, 0xFFFF, 120), (.iredmin always 4 2, 0xFFF8, 8), (.iredmax always 4 2, 0xFFFF, 20), (.nredmin always 4 2, 0xFFFF, 5),
  (.nredmax always 4 2, 0x000F, 8), (.redand always 4 2, 0x000C, 0), (.redor always 4 2, 0x000F, 15), (.redxor always 4 2, 0x000F, 12), (.iscan always 4 1, 0xFFFF, 6),
  (.iscanx always 4 1, 0xFFFF, 3), (.fredsum always 4 0, 0xFFFF, 0), (.fredmin always 4 0, 0xFFFF, 0), (.fredmax always 4 0, 0xFFFF, 0), (.hredsum always 4 0, 0xFFFF, 0),
  (.fscan always 4 0, 0xFFFF, 0), (.fscanx always 4 0, 0xFFFF, 0)] : List (Instr × LaneMask × Word)).all (fun c => decide (gives3 c.1 c.2.1 = c.2.2)) = true := by decide +kernel

/-! ### Hypotheses that some state meets: register-only operations -/

theorem witness_three_register : ∃ s i, Passes s i true [.dst 1 1, .src 2, .src 3] true := ⟨regs1, _, passes chk⟩
/-- A D of 127 and a latch that is valid pass too (R14, R15). -/
theorem witness_no_destination : ∃ s i, Passes s i true [.dst 127 1, .src 120, .src 3] true :=
  ⟨({ withRegs (State.reset.loadCode [0x00#6 ++ 0#1 ++ 0#4 ++ 1#7 ++ 2#7 ++ 3#7, 0x00#6 ++ 0#1 ++ 0#4 ++ 127#7 ++ 120#7 ++ 3#7]) [(3, 3)] with
      cur := some ⟨0, 0, 0xFFFF, 4, false⟩, inbox := [] } : State).onGroup 0 0 (fun g =>
    { g with latches := ⟨true, List.replicate 16 7⟩ :: List.replicate 7 ⟨false, []⟩, chain := some ⟨0, 4, 1⟩ }), _, passes chk⟩
theorem witness_read_and_written : ∃ s i, Passes s i true [.rw 8 1, .src 2, .src 3] true := ⟨regs1, _, passes chk⟩
theorem witness_one_source : ∃ s i, Passes s i true [.dst 1 1, .src 2] true ∧ Passes s i true [.dst 119 1] true ∧ Passes s i true [.rw 8 1] true ∧
    Passes s i true [.rw 118 2, .srcNoLatch 4 2] true ∧ Passes s i true [.rw 8 1, .src 2] true :=
  ⟨regs1, _, passes chk, passes chk, passes chk, passes chk, passes chk⟩
theorem witness_conversions : ∃ s i, (∀ n ∈ [1, 2, 4], Passes s i true [.dst 1 n, .src 2] true) ∧ (∀ n ∈ [2, 4], Passes s i true [.dst 1 1, .srcNoLatch 2 n] true) :=
  ⟨regs1, iss regs1, by intro n h; simp only [List.mem_cons, List.mem_nil_iff, or_false] at h; rcases h with rfl | rfl | rfl <;> exact passes chk,
    by intro n h; simp only [List.mem_cons, List.mem_nil_iff, or_false] at h; rcases h with rfl | rfl <;> exact passes chk⟩
theorem witness_compares : ∃ s i, Passes s i true [.srcLost 2, .srcLost 3] true ∧ Passes s i true [] true ∧ Passes s i true [.srcLost 2] true ∧ Passes s i true [.dstMem 1 1] true :=
  ⟨regs1, _, passes chk, passes chk, passes chk, passes chk⟩
theorem witness_lanes : ∃ s i, i.width = 2 ^ 4 ∧ Passes s i true [.dstMem 4 1, .srcLost 1] true ∧ Passes s i true [.rw 4 1, .srcLost 1] true ∧ (15 : BitVec 5).toNat < i.width :=
  ⟨lanes16 0xFFFF, iss (lanes16 0xFFFF), chk, passes chk, passes chk, chk⟩

/-! ### Memory instructions -/

/-- One lane with its pair v4 at 0x40000100, its offset v7 at 0x200, data from v10 on, and the bytes 01 02 03 84 05 at physical 0x100. -/
def mem1 (lanes : LaneMask) : State :=
  let s := mapped (withRegs (issuing lanes) [(4, 0x40000100), (5, 0), (6, 0), (7, 0x200), (10, 0x11223344), (11, 0x55), (12, 0), (13, 0), (20, 0x40), (21, 0x40000000)])
  { s with mem := Memory.write s.mem 0x100 [1, 2, 3, 0x84, 5] }

/-- A load's register in lane 0 once its completion has come. -/
def loaded (i : Instr) (p : Nat) : Word := reg (after (exec (.loadCompletion 2) (after (exec i (mem1 1))))) 0 p

theorem test_loads : loaded (.ld always 14 4 0 0 4) 14 = 0x84030201 ∧ loaded (.ld always 14 4 0 0 3) 14 = 0x0201 ∧ loaded (.ld always 14 4 0 0 5) 14 = 0x84030201 ∧
  loaded (.ld always 14 4 0 0 5) 15 = 5 ∧ loaded (.lda always 14 4 2 3) 14 = 0x84030201 ∧ loaded (.gath always 14 20 0 false 2 1) 14 = 0x84030201 := by decide +kernel

theorem test_load_counts : ((grp (after (exec (.ld always 14 4 0 1 4) (mem1 1)))).ctrs = [0, 1, 0, 0]) ∧
  (grp (after (exec (.loadCompletion 2) (after (exec (.ld always 14 4 0 1 4) (mem1 1)))))).ctrs = [0, 0, 0, 0] := by decide +kernel

/-- A byte as the team reads it once a store's completion has come. -/
def storedByte (i e : Instr) (a : Nat) : Byte := (after (exec e (after (exec i (mem1 1))))).teamByte 0 0 0 a

theorem test_stores : storedByte (.st always 10 4 0 0 4) (.storeCompletion 2) 0x100 = 0x44 ∧ storedByte (.st always 10 4 0 0 4) (.storeCompletion 2) 0x103 = 0x11 ∧
  storedByte (.st always 10 4 0 0 4) (.storeCompletion 2) 0x104 = 5 ∧ storedByte (.stl always 10 4 1 0) (.storeCompletion 2) 0x101 = 0x33 ∧
  storedByte (.scat always 10 20 0 false 0 0) (.storeCompletion 2) 0x40 = 0x44 := by decide +kernel

theorem test_atomic : storedByte (.atom always 10 4 1 0) (.atomCompletion 2) 0x100 = 0x45 ∧ storedByte (.atom always 10 4 1 0) (.atomCompletion 2) 0x103 = 0x95 ∧
  reg (after (exec (.atomCompletion 2) (after (exec (.atom always 10 4 1 0) (mem1 1))))) 0 10 = 0x84030201 := by decide +kernel

theorem test_scratchpad : (team (after (exec (.sts always 10 7 0 4) (mem1 1)))).scratch = [(0x200, 0x44), (0x201, 0x33), (0x202, 0x22), (0x203, 0x11)] ∧
  reg (after (exec (.loadCompletion 3) (after (exec (.lds always 14 7 0 2) (after (exec (.sts always 10 7 0 4) (mem1 1))))))) 0 14 = 0x3344 ∧
  (team (after (exec (.atoms always 10 7 1 0) (mem1 1)))).scratch = [(0x200, 0x44), (0x201, 0x33), (0x202, 0x22), (0x203, 0x11)] := by decide +kernel

theorem test_access_traps : ((after (exec (.ld always 14 4 0 0 4) (withRegs (mem1 1) [(4, 0x40000102)]))).launch? 1).map (fun l => l.fatal) =
    some (some ⟨0x03, 0, 0, 0, 0x40000102⟩) ∧
  ((after (exec (.st always 14 4 0 0 4) (withRegs (mem1 1) [(4, 0x80000100)]))).launch? 1).map (fun l => l.fatal) = some (some ⟨0x04, 1, 0, 0, 0x80000100⟩) ∧
  (grp (after (exec (.ld always 14 4 0 0 4) (withRegs (mem1 1) [(4, 0xC0010100)])))).parked = [0xC0010000] := by decide +kernel

theorem test_waits : (grp (after (exec (.waitc always 3 1) (mem1 1)))).wait = .counter 1 3 ∧ goes (exec (.fence always 0) (mem1 1)) = true ∧
  (grp (after (exec (.fenceRel always 1) (mem1 1)))).frel = some (1, []) ∧ (grp (after (exec (.fence always 0) (after (exec (.ld always 14 4 0 0 4) (mem1 1)))))).stall = 6 ∧
  goes (exec (.fenceAcq always 6) (mem1 1)) = true ∧ (grp (after (exec (.pref always 4 0) (mem1 1)))).ret = 1 := by decide +kernel

theorem test_await : (grp (after (exec (.await always 10 4 0) (mem1 1)))).wait = .await 1 ∧
  (grp (after (exec (.awaitCompletion 0 0) (after (exec (.await always 10 4 0) (mem1 1)))))).wait = .none ∧
  ((grp (after (exec (.awaitCompletion 0 0) (after (exec (.await always 10 4 0) (mem1 1)))))).lane 0).pcv = 4 := by decide +kernel

/-- The shelf holds line 2 with the tag 0x40000100. -/
def shelf1 : State := after (exec (.slset always 11 4) (withRegs (mem1 1) [(11, 2)]))

theorem test_shelf : (team shelf1).shelf = [⟨0x40000100, 2⟩] ∧ reg (after (exec (.slfind always 14 4) shelf1)) 0 14 = 2 ∧
  (team (after (exec (.sldrop always 11) shelf1))).shelf = [] ∧ reg (after (exec (.presq always 14 11) shelf1)) 0 14 = 1 := by decide +kernel

/-! ### Hypotheses that some state meets: memory instructions -/

theorem unordered {s : State} {α : Type} {xs : List α} {c : Option Nat}
    (h : (!(s.acquiring (iss s)) && decide ((iss s).grp.ctrs = [0, 0, 0, 0])) = true) : Unordered s (iss s) xs c := by
  simp only [Bool.and_eq_true, Bool.not_eq_true', decide_eq_true_eq] at h
  refine ⟨fun _ => h.1, fun k _ => ?_⟩
  rw [h.2]
  match k with
  | 0 => decide
  | 1 => decide
  | 2 => decide
  | 3 => decide
  | n + 4 => simp [getAt]

theorem drained {s : State} {sc : Nat} (h : (!(s.outstanding (iss s).cur.team (iss s).cur.grp) && (s.drainsFor (iss s).grp.core (iss s).cur.team sc).isEmpty &&
    !(s.awaits (iss s).grp.core (iss s).cur.team sc) && s.heldOut.all (fun e => e.team != (iss s).cur.team)) = true) : Drained s (iss s) sc := by
  simp only [Bool.and_eq_true, Bool.not_eq_true', List.isEmpty_iff, List.all_eq_true, bne_iff_ne] at h
  exact ⟨h.1.1.1, h.1.1.2, h.1.2, fun _ => h.2⟩

theorem some_of {α : Type} {o : Option α} {p : α → Bool} (h : o.any p = true) : ∃ a, o = some a ∧ p a = true := by
  cases o with
  | none => exact absurd h (by simp)
  | some a => exact ⟨a, rfl, by simpa using h⟩

/-- A group and team may release at a scope from 3. -/
def releasesB (s : State) (sc : Nat) : Bool :=
  (!(s.outstanding (iss s).cur.team (iss s).cur.grp) && (s.drainsFor (iss s).grp.core (iss s).cur.team sc).isEmpty &&
    !(s.awaits (iss s).grp.core (iss s).cur.team sc) && s.heldOut.all (fun e => e.team != (iss s).cur.team)) && !((iss s).image.strict) &&
  (s.commit (iss s).cur.team).any (fun s1 => decide (s1.group? (iss s).cur.team (iss s).cur.grp = some (iss s).grp))

theorem releases {s : State} {sc : Nat} (h : releasesB s sc = true) : ∃ s1, Releases s (iss s) sc s1 := by
  simp only [releasesB, Bool.and_eq_true, Bool.not_eq_true'] at h
  obtain ⟨s1, a, b⟩ := some_of h.2
  exact ⟨s1, drained (by simpa using h.1.1), fun e => absurd e (by rw [h.1.2]; simp), a, by simpa using b⟩

theorem witness_loads : ∃ s i, Passes s i (ldSizeOk 6) [.dstMem 10 4, .srcNoLatch 4 2] true ∧ Near s i (i.pairAddrs always 4) .read ∧ Reachable s i (i.pairAddrs always 4) 16 .read ∧
    Unordered s i (i.pairAddrs always 4) (some 3) ∧ Passes s i true [.dstMem 10 2, .srcNoLatch 20 3] true ∧ Reachable s i (indexedVas i always 20 2 true 3) 8 .read ∧
    Unordered s i (indexedVas i always 20 2 true 3) (some 0) ∧ Passes s i true [.dstMem 10 2, .srcNoLatch 4 2] (scopeValid 6) ∧ i.image.det = false ∧
    Unordered s i (i.pairAddrs always 4) none :=
  ⟨mem1 3, _, passes chk, .inr chk, reachable chk, unordered chk, passes chk, reachable chk,
    unordered chk, passes chk, chk, unordered chk⟩

theorem witness_stores : ∃ s i, Passes s i (stSizeOk 6 && stHintOk 2) [.rw 10 4, .srcNoLatch 4 2] true ∧ Reachable s i (i.pairAddrs always 4) 16 .write ∧
    Passes s i true [.rw 10 2, .srcNoLatch 20 3] true ∧ Reachable s i (indexedVas i always 20 2 true 3) 8 .write ∧
    Unordered s i (i.pairAddrs always 4) (some 3) ∧ i.grp.frel = none ∧ i.quota s ((i.pairAddrs always 4).map (fun x => i.locOf s x.2 .write)) = .ok :=
  ⟨mem1 3, _, passes chk, reachable chk, passes chk, reachable chk, unordered chk,
    chk, chk⟩

/-- An image that holds no line (R142). -/
def unheld : State := withHeader (mem1 3) 0x3C (leBytes 4 0)

theorem witness_store_commits : ∃ s i s1, Passes s i (stSizeOk 4 && stHintOk 0) [.rw 10 1, .srcNoLatch 4 2] true ∧ Reachable s i (i.pairAddrs always 4) 4 .write ∧
    Unordered s i (i.pairAddrs always 4) (some 0) ∧ i.grp.frel = none ∧ i.pairAddrs always 4 ≠ [] ∧ i.team.committed = false ∧
    i.quota s ((i.pairAddrs always 4).map (fun x => i.locOf s x.2 .write)) = .commit ∧ s.commit i.cur.team = some s1 ∧ s1.group? i.cur.team i.cur.grp = some i.grp := by
  have h : (unheld.commit (iss unheld).cur.team).any (fun s1 => decide (s1.group? (iss unheld).cur.team (iss unheld).cur.grp = some (iss unheld).grp)) = true := by
    decide +kernel
  obtain ⟨s1, a, b⟩ := some_of h
  exact ⟨unheld, _, s1, passes chk, reachable chk, unordered chk, chk, chk,
    chk, chk, a, of_decide_eq_true b⟩

theorem witness_releases : ∃ s i, Passes s i true [.rw 10 2, .srcNoLatch 4 2] (scopeValid 2) ∧ Passes s i (atomOpOk 13) [.rw 10 4, .srcNoLatch 4 2] (scopeValid 0) ∧ i.image.det = false ∧
    i.pairAddrs always 4 ≠ [] ∧ Reachable s i (i.pairAddrs always 4) 8 .write ∧ Reachable s i (i.pairAddrs always 4) 8 .atomic ∧ Unordered s i (i.pairAddrs always 4) none ∧ i.grp.frel = none ∧
    Drained s i 2 ∧ i.quota s ((i.pairAddrs always 4).map (fun x => i.locOf s x.2 .write)) = .ok ∧ i.team.committed = false ∧ i.image.strict = false ∧ ∃ s1, Releases s i 6 s1 :=
  ⟨mem1 3, _, passes chk, passes chk, chk, chk, reachable chk, reachable chk,
    unordered chk, chk, drained chk, chk, chk, chk, releases chk⟩

theorem witness_release_of_no_lane : ∃ s i, Passes s i true [.rw 10 1, .srcNoLatch 4 2] (scopeValid 6) ∧ i.pairAddrs ⟨true, 0⟩ 4 = [] :=
  ⟨mem1 3, _, passes chk, chk⟩

theorem witness_scratchpad : ∃ s i, Memory.wf i.team.scratch = true ∧ Passes s i (ldSizeOk 6) [.dstMem 10 4, .srcNoLatch 7 1] true ∧ InScratch s i (i.offsets always 7) 16 false ∧
    Unordered s i (i.offsets always 7) (some 0) ∧ s.acquiring i = false ∧ i.team.badLine (i.offsets always 7) 16 = none ∧ Passes s i (stSizeOk 6) [.rw 10 4, .srcNoLatch 7 1] true ∧
    InScratch s i (i.offsets always 7) 16 true ∧ i.grp.frel = none ∧ Passes s i (atomOpOk 13) [.rw 10 4, .srcNoLatch 7 1] (decide ((2 : BitVec 3).toNat ≤ 2)) ∧
    Unordered s i (i.offsets always 7) none ∧ Drained s i 2 :=
  ⟨withRegs (mem1 3) [(7, 65520)], _, chk, passes chk, ⟨chk, chk, chk, chk⟩, unordered chk,
    chk, chk, passes chk, ⟨chk, chk, chk, chk⟩, chk, passes chk,
    unordered chk, drained chk⟩

/-- Line 2 cannot be corrected, line 3 is absent and pending, line 4 is absent. -/
def lines1 (off : Word) : State :=
  (withRegs (mem1 1) [(7, off)]).onTeam 0 (fun t => { t with bad := [2], absent := [⟨3, true, .free, 0, 0⟩, ⟨4, false, .free, 0, 0⟩] })

theorem witness_bad_line : ∃ s i, Memory.wf i.team.scratch = true ∧ Passes s i (ldSizeOk 4) [.dstMem 10 1, .srcNoLatch 7 1] true ∧ InScratch s i (i.offsets always 7) 4 false ∧
    Unordered s i (i.offsets always 7) (some 0) ∧ s.acquiring i = false ∧ i.team.badLine (i.offsets always 7) 4 = some 2 :=
  ⟨lines1 0x200, _, chk, passes chk, ⟨chk, chk, chk, chk⟩, unordered chk, chk, chk⟩

/-- Row by row, a state whose access fails just there: misaligned, unmapped, left to the host, without the right. -/
theorem witness_global_rows : ∃ s i, i.image.det = false ∧ Passes s i (ldSizeOk 4) [.dstMem 10 1, .srcNoLatch 4 2] true ∧
    i.pairAddrs always 4 = [] ++ (0, 0x40000102) :: [] ∧ (0x40000102 : Dword).toNat % 4 ≠ 0 :=
  ⟨withRegs (mem1 1) [(4, 0x40000102)], _, chk, passes chk, chk, by decide⟩
theorem witness_row6 : ∃ s i, i.image.det = false ∧ Passes s i (stSizeOk 4 && stHintOk 0) [.rw 10 1, .srcNoLatch 4 2] true ∧ i.pairAddrs always 4 = [] ++ (0, 0x80000100) :: [] ∧
    (∀ x ∈ i.pairAddrs always 4, x.2.toNat % 4 = 0) ∧ s.translate i.team.ctx 0x80000100 .write = .fault :=
  ⟨withRegs (mem1 1) [(4, 0x80000100)], _, chk, passes chk, chk, chk, chk⟩
theorem witness_row7 : ∃ s i, i.image.det = false ∧ Passes s i true [.dstMem 10 1, .srcNoLatch 4 2] (scopeValid 0) ∧ i.grp.refused = [] ∧
    (∀ x ∈ i.pairAddrs always 4, x.2.toNat % 4 = 0 ∧ s.translate i.team.ctx x.2 .read ≠ .fault) ∧ ∃ x ∈ i.pairAddrs always 4, s.translate i.team.ctx x.2 .read = .replay :=
  ⟨withRegs (mem1 1) [(4, 0xC0000100)], _, chk, passes chk, chk, chk, chk⟩
theorem witness_row8 : ∃ s i, i.image.det = false ∧ Passes s i (atomOpOk 0) [.rw 10 2, .srcNoLatch 4 2] (scopeValid 0) ∧ i.pairAddrs always 4 = [] ++ (0, 0x100000100) :: [] ∧
    (∀ x ∈ i.pairAddrs always 4, x.2.toNat % 4 = 0 ∧ s.translate i.team.ctx x.2 .atomic ≠ .fault ∧ s.translate i.team.ctx x.2 .atomic ≠ .replay) ∧
    s.translate i.team.ctx 0x100000100 .atomic = .deny :=
  ⟨withRegs (mem1 1) [(5, 1), (4, 0x100)], _, chk, passes chk, chk, chk, chk⟩
/-- A strict-relaunch team with no quota. -/
theorem witness_row9 : ∃ s i, i.image.det = false ∧ Passes s i (stSizeOk 4 && stHintOk 0) [.rw 10 1, .srcNoLatch 4 2] true ∧ Reachable s i (i.pairAddrs always 4) 4 .write ∧
    i.pairAddrs always 4 = (0, 0x40000100) :: [] ∧ i.quota s ((i.pairAddrs always 4).map (fun x => i.locOf s x.2 .write)) = .trap 0 0 :=
  ⟨withHeader (withHeader (mem1 1) 0x3C (leBytes 4 0)) 0x1A [0x10, 0], _, chk, passes chk, reachable chk, chk, chk⟩

theorem witness_scratch_rows : (∃ s i, Passes s i (ldSizeOk 4) [.dstMem 10 1, .srcNoLatch 7 1] true ∧ i.offsets always 7 = [] ++ (0, 0x201) :: [] ∧ 0x201 % 4 ≠ 0) ∧
  (∃ s i, Passes s i (stSizeOk 4) [.rw 10 1, .srcNoLatch 7 1] true ∧ i.offsets always 7 = [] ++ (0, 65536) :: [] ∧ 65536 % 4 = 0 ∧ i.image.scratch < 65536 + 4) ∧
  (∃ s i, Passes s i (atomOpOk 0) [.rw 10 2, .srcNoLatch 7 1] (decide ((0 : BitVec 3).toNat ≤ 2)) ∧ i.offsets always 7 = [] ++ (0, 0x400) :: [] ∧ 0x400 % 4 = 0 ∧ 0x400 + 4 ≤ i.image.scratch ∧
    i.grp.lapse = none ∧ ∃ k ∈ linesOf 0x400 4, i.team.isUnfilled k = true) ∧
  (∃ s i, Passes s i (ldSizeOk 4) [.dstMem 10 1, .srcNoLatch 7 1] true ∧ (∀ x ∈ i.offsets always 7, x.2 % 4 = 0 ∧ x.2 + 4 ≤ i.image.scratch ∧ ∀ k ∈ linesOf x.2 4, i.team.isUnfilled k = false) ∧
    ∃ x ∈ i.offsets always 7, ∃ k ∈ linesOf x.2 4, i.team.isPending k = true) :=
  ⟨⟨lines1 0x201, _, passes chk, chk, by decide⟩, ⟨lines1 65536, _, passes chk, chk, by decide, chk⟩,
    ⟨lines1 0x400, _, passes chk, chk, by decide, chk, chk, chk⟩,
    ⟨lines1 0x300, _, passes chk, chk, chk⟩⟩

theorem witness_fences : ∃ s i, Passes s i true [] (scopeValid 2) ∧ Passes s i true [] (scopeValid 6) ∧ i.image.det = false ∧ i.effect always ≠ 0 ∧ i.effect ⟨true, 0⟩ = 0 ∧ i.grp.frel = none ∧ Drained s i 2 ∧
    (∀ a ∈ s.accesses, a.team = i.cur.team → a.grp = i.cur.grp → a.kind = .store ∨ a.kind = .done 1 ∨ ∃ c, a.kind = .release c) ∧ s.claimed i.cur.team i.cur.grp = false ∧
    Passes s i true [.srcNoLatch 4 2] true :=
  ⟨mem1 1, _, passes chk, passes chk, chk, chk, chk, chk, drained chk,
    fun a h => absurd h (by rw [show (mem1 1).accesses = [] from rfl]; exact List.not_mem_nil), chk, passes chk⟩
theorem witness_fence_waits : ∃ s i, Passes s i true [] (scopeValid 0) ∧ i.image.det = false ∧ i.effect always ≠ 0 ∧ i.grp.frel = none ∧ s.outstanding i.cur.team i.cur.grp = true ∧
    ∃ a ∈ s.accesses, a.team = i.cur.team ∧ a.grp = i.cur.grp ∧ (a.kind = .load ∨ a.kind = .done 0 ∨ ∃ c, a.kind = .acquire c) :=
  ⟨after (exec (.ld always 14 4 0 0 4) (mem1 1)), _, passes chk, chk, chk, chk, chk, by
    have h : ((after (exec (.ld always 14 4 0 0 4) (mem1 1))).accesses.any (fun a => decide (a.team = 0 ∧ a.grp = 0 ∧ a.kind = .load))) = true := by decide +kernel
    obtain ⟨a, m, e⟩ := List.any_eq_true.mp h
    have e := of_decide_eq_true e
    exact ⟨a, m, e.1.trans chk, e.2.1.trans chk, .inl e.2.2⟩⟩

theorem witness_await : ∃ s i, Passes s i true [.rw 10 1, .srcNoLatch 4 2] (scopeValid 6) ∧ i.image.det = false ∧ i.pairAddrs always 4 ≠ [] ∧ i.pairAddrs ⟨true, 0⟩ 4 = [] ∧
    Reachable s i (i.pairAddrs always 4) 4 .read ∧ Unordered s i (i.pairAddrs always 4) none :=
  ⟨mem1 3, _, passes chk, chk, chk, chk, reachable chk, unordered chk⟩

theorem witness_shelf : ∃ s i, Passes s i true [.dstMem 14 1, .srcNoLatch 4 2] true ∧ Passes s i true [.rw 11 1, .srcNoLatch 4 2] true ∧
    (∀ l ∈ i.taking always, (i.regAt 11 0 l).toNat < i.image.scratch / 256 ∧ (i.pair 4 l).toNat < 2 ^ 53) ∧ Passes s i true [.srcNoLatch 11 1] true ∧
    (∀ x ∈ i.offsets always 11, x.2 < i.image.scratch / 256) ∧ Passes s i true [.dstMem 14 1, .srcNoLatch 11 1] true ∧ i.team.shelf ≠ [] :=
  ⟨withRegs { shelf1 with cur := some ⟨0, 0, 1, 4, false⟩ } [(11, 255)], _, passes chk, passes chk, chk, passes chk, chk,
    passes chk, chk⟩

/-! ### Control, special registers and traps -/

/-- The address a lane goes to after an instruction. -/
def pcOf (s : State) (i : Instr) (l : Nat) : Word := ((grp (after (exec i s))).lane l).pcv

/-- The issue at 8, by lanes 0 to 3, of a group whose lanes stand there; v1 is 0x20 and v2 is 0x21. -/
def ctl1 : State :=
  let s := withRegs (issuing 0xF) [(1, 0x20), (2, 0x21)]
  ({ s with cur := some ⟨0, 0, 0xF, 8, false⟩ } : State).onGroup 0 0 (fun g => { g with lanes := g.lanes.map (fun (l : Lane) => { l with pcv := 8, preds := 3 }) })

/-- The same group with the kernel's handler at 0x40. -/
def ctl2 : State := withHeader ctl1 0x40 (leBytes 4 0x40)

/-- The same group in its handler, whose return address is 0x28. -/
def ctl3 : State := ctl2.onGroup 0 0 (fun g => { g with handler := 0xF, tpc := 0x28, excl := 0xF0 })

theorem test_branches : pcOf ctl1 (.bra always 4) 0 = 24 ∧ pcOf ctl1 (.bra always 0x1FFFFF) 3 = 4 ∧ pcOf ctl1 (.bra ⟨true, 0⟩ 4) 0 = 12 ∧ pcOf ctl1 (.bra always 4) 4 = 8 ∧
  pcOf ctl1 (.call always 1) 0 = 12 ∧ gives ctl1 (.call always 1) 119 = 12 ∧ pcOf ctl1 (.brx always 1) 0 = 0x20 ∧ pcOf ctl1 (.ret always 1) 2 = 0x20 ∧
  gives { ctl1 with images := ctl1.images.map (fun (m : Image) => { m with pool := [5, 0xABCD] }) } (.movc always 3 1) 3 = 0xABCD := by decide +kernel

theorem test_exit : ((grp (after (exec (.exit always) ctl1))).lane 0).exited = true ∧ ((grp (after (exec (.exit always) ctl1))).lane 4).exited = false ∧
  (after (exec (.exit always) (issuing 0xFFFF))).due = [.groupEnd 0 0] ∧ ((grp (after (exec (.yield always) ctl1))).lane 0).yx = true := by decide +kernel

theorem test_masks : (grp (after (exec (.join always 2) ctl1))).masks = [0, 0, 0xF, 0, 0, 0, 0, 0, 0, 0, 0, 0] ∧
  (grp (after (exec (.leave always 2) (after (exec (.join always 2) ctl1))))).masks = List.replicate 12 0 ∧
  ((grp (after (exec (.waitm always 2) (after (exec (.join always 2) ctl1))))).lane 0).waitm = none ∧ (grp (after (exec (.setwb always 3) ctl1))).wb = 24 := by decide +kernel

theorem test_waitm_blocks : ((grp (after (exec (.waitm always 2) { after (exec (.join always 2) (issuing 0xFFFF)) with cur := some ⟨0, 0, 1, 4, false⟩ }))).lane 0).waitm = some 2 := by
  decide +kernel

theorem test_special : gives ctl1 (.rdsr always 3 0x01) 3 = 0 ∧ gives ctl1 (.rdsr always 3 0x06) 3 = 16 ∧ gives ctl1 (.rdsr always 3 0x1E) 3 = 8 ∧ gives ctl1 (.rdsr always 3 0x28) 3 = 0x3FF ∧
  gives ctl1 (.rdsr always 3 0x11) 3 = 1 ∧ (grp (after (exec (.wrsr always 2 0x1C) ctl1))).rm = 1 ∧ (grp (after (exec (.wrsr always 2 0x21) ctl3))).tpc = 0x20 := by decide +kernel

theorem test_trap : (grp (after (exec (.trap always 7) ctl2))).cause = 0x070F ∧ (grp (after (exec (.trap always 7) ctl2))).tpc = 8 ∧ (grp (after (exec (.trap always 7) ctl2))).handler = 0xF ∧
  (grp (after (exec (.trap always 7) ctl2))).frag = 0xFFF0 ∧ pcOf ctl2 (.trap always 7) 0 = 0x40 ∧ pcOf ctl2 (.trap always 7) 4 = 8 ∧ (grp (after (exec (.brk always) ctl2))).cause = 0x0E := by
  decide +kernel

theorem test_tret : pcOf ctl3 (.tret always) 0 = 0x28 ∧ (grp (after (exec (.tret always) ctl3))).handler = 0 ∧ (grp (after (exec (.tret always) ctl3))).excl = 0 ∧
  (grp (after (exec (.tret always) ctl2))).cause = 0x1901 := by decide +kernel

theorem test_sampling_suspended : (grp (after (exec (.smpsusp always) ctl1))).susp = true ∧ (grp (after (exec (.smpres always) (after (exec (.smpsusp always) ctl1))))).susp = false := by decide +kernel

theorem test_illegal_word : (grp (after (step (withHeader (State.reset.loadCode [0xFFFFFFFF]) 0x40 (leBytes 4 0x40))))).cause = 1 := by decide +kernel

theorem test_step_runs_word : reg (after (step (State.reset.loadCode [0x16#6 ++ 0#1 ++ 0#4 ++ 9#7 ++ 77#14]))) 5 9 = 77 := by decide +kernel

theorem test_issue_decision : ((grp (after (exec (.issueDecision 0 0) (ctl1.onGroup 0 0 (fun g => { g with lanes := g.lanes.map (fun (l : Lane) => { l with yx := true }) }))))).lane 3).yx = false := by
  decide +kernel

theorem test_async_trap : (grp (after (exec (.asyncTrapTaken 0 0) (({ ctl2 with cur := none } : State).onGroup 0 0 (fun g => { g with
  lanes := g.lanes.map (fun (l : Lane) => { l with pcv := 8 }), pend := [⟨0x11, 1, 0, false, some 0x30, 0x99, none, none⟩] }))))).cause = 0x80000111 := by decide +kernel

/-! ### Hypotheses that some state meets: control, special registers and traps -/

/-- The launch of the loaded kernel. -/
def lau (s : State) : Launch := (s.launch? 1).getD (loadLaunch 1)

/-- The image of the loaded kernel. -/
def img (s : State) : Image := (s.image? 0).getD (loadImage [])

/-- The records of the loaded kernel, said as one decision. -/
def holdsB (s : State) : Bool :=
  decide (s.team? 0 = some (team s) ∧ (team s).group? 0 = some (grp s) ∧ s.launch? (team s).launch = some (lau s) ∧ s.image? (lau s).image = some (img s))

theorem holds {s : State} (h : holdsB s = true) : Holds s 0 0 (team s) (grp s) (lau s) (img s) := by
  have h := of_decide_eq_true h
  exact ⟨h.1, h.2.1, h.2.2.1, h.2.2.2⟩

theorem witness_control : ∃ s i, Passes s i true [] true ∧ Passes s i true [.v119] true ∧ Passes s i true [.srcNoLatch 1 1] true ∧ (∀ l ∈ i.taking always, (i.regAt 1 0 l).toNat % 4 = 0) ∧
    i.taking always = [] ++ 0 :: [1, 2, 3] ∧ (i.regAt 2 0 0).toNat % 4 ≠ 0 ∧ Passes s i true [.dstMem ((3 : BitVec 6).setWidth 7) 1] true ∧ i.image.pool[(0 : BitVec 14).toNat]? = none ∧
    i.effect always ≠ 0 ∧ (∀ c, s.ctx? i.team.ctx = some c → c.twinOn = false) :=
  ⟨ctl1, _, passes chk, passes chk, passes chk, chk, chk, chk, passes chk, chk,
    chk, by
      intro c h
      have k : ((ctl1.ctx? (iss ctl1).team.ctx).all (fun c => !(c.twinOn))) = true := by decide +kernel
      rw [h] at k; simpa using k⟩

theorem witness_pool : ∃ (i : Issue) (w : Word), i.image.pool[(1 : BitVec 14).toNat]? = some w :=
  ⟨iss { ctl1 with images := ctl1.images.map (fun (m : Image) => { m with pool := [5, 0xABCD] }) }, 0xABCD, chk⟩

theorem lane_all {P : Lane → Prop} {g : Group} (h : ∀ x ∈ g.lanes, P x) (d : P ⟨[], 1, 0, true, none, false⟩) (l : Nat) : P (g.lane l) := by
  unfold Group.lane
  generalize g.lanes = xs at h
  induction xs generalizing l with
  | nil => exact d
  | cons x xs ih =>
    cases l with
    | zero => exact h x List.mem_cons_self
    | succ l => exact ih l (fun y hy => h y (List.mem_cons_of_mem _ hy))

theorem witness_masks : ∃ s i, Passes s i (maskOk 11) [] true ∧ Passes s i (windowOk 30) [] true ∧ (∀ l, (i.grp.lane l).waitm = none) ∧
    (∀ l, inMask i.cur.exec l → (i.grp.lane l).pcv = i.cur.pc ∧ (i.grp.lane l).exited = false) := by
  refine ⟨issuing 0xFFFF, iss (issuing 0xFFFF), passes chk, passes chk, fun l => lane_all (P := fun x => x.waitm = none) chk rfl l, fun l h => ?_⟩
  have k : l < 64 := by
    by_cases k : l < 64
    · exact k
    · exact absurd h (by unfold inMask; rw [BitVec.getLsbD_of_ge _ _ (by omega)]; simp)
  have key : ∀ l, l < 64 → inMask (iss (issuing 0xFFFF)).cur.exec l →
    ((iss (issuing 0xFFFF)).grp.lane l).pcv = (iss (issuing 0xFFFF)).cur.pc ∧ ((iss (issuing 0xFFFF)).grp.lane l).exited = false := by decide +kernel
  exact key l k h

/-- A lane that waits alone on a mask it is the only member of, and one that waits for another member. -/
theorem witness_release_test : (∃ (g : Group) (l n : Nat), l < g.lanes.length ∧ n < 12 ∧ (g.lane l).waitm = some n ∧ (g.lane l).exited = false ∧
      ∀ k, k < g.lanes.length → inMask (getAt g.masks n 0) k → (g.lane k).exited = false → (g.lane k).waitm = some n ∧ (g.lane k).pcv = (g.lane l).pcv) ∧
    ∃ (g : Group) (l : Nat), l < g.lanes.length ∧ (g.lane l).waitm = some 2 ∧ ∀ n, (g.lane l).waitm = some n → n < 12 → (g.lane l).exited = false →
      ∃ k, k < g.lanes.length ∧ inMask (getAt g.masks n 0) k ∧ (g.lane k).exited = false ∧ ((g.lane k).waitm ≠ some n ∨ (g.lane k).pcv ≠ (g.lane l).pcv) := by
  let g0 : Group := grp (issuing 0xFFFF)
  refine ⟨⟨{ g0 with masks := setAt g0.masks 11 1, lanes := setAt g0.lanes 0 { g0.lane 0 with waitm := some 11 } }, 0, 11, chk, by decide, chk, chk, chk⟩,
    ⟨{ g0 with masks := setAt g0.masks 2 3, lanes := setAt g0.lanes 0 { g0.lane 0 with waitm := some 2 } }, 0, chk, chk, ?_⟩⟩
  intro n h _ _
  have e : n = 2 := by
    have k : (({ g0 with masks := setAt g0.masks 2 3, lanes := setAt g0.lanes 0 { g0.lane 0 with waitm := some 2 } } : Group).lane 0).waitm = some 2 := by decide +kernel
    rw [k] at h; exact (Option.some.inj h).symm
  subst e
  exact ⟨1, chk, chk, chk, chk⟩

theorem witness_special_reads : ∃ s i, Passes s i true [.dstMem 3 2] true ∧ Passes s i true [.dstMem 3 1] true := ⟨ctl1, _, passes chk, passes chk⟩
theorem witness_special_writes : (∃ s i, Passes s i true [.srcNoLatch 2 2] true ∧ i.taking always = 0 :: [1, 2, 3] ∧ i.cur.exec &&& ~~~i.grp.handler = 0 ∧ i.effect ⟨true, 0⟩ = 0) ∧
    ∃ s i, Passes s i true [.srcNoLatch 2 2] true ∧ i.cur.exec &&& ~~~i.grp.handler ≠ 0 :=
  ⟨⟨ctl3, _, passes chk, chk, chk, chk⟩, ctl1, _, passes chk, chk⟩

/-- Twin forking is on for context 0. -/
theorem witness_break_claims : ∃ s i c, Passes s i true [] true ∧ i.effect always ≠ 0 ∧ s.ctx? i.team.ctx = some c ∧ c.num = i.team.ctx ∧ c.twinOn = true := by
  have h : ((ctl1.onCtx 0 (fun c => { c with twinctl := 0x80000001 })).ctx? (iss (ctl1.onCtx 0 (fun c => { c with twinctl := 0x80000001 }))).team.ctx).any
    (fun c => decide (c.num = (iss (ctl1.onCtx 0 (fun c => { c with twinctl := 0x80000001 }))).team.ctx ∧ c.twinOn = true)) = true := by decide +kernel
  obtain ⟨c, a, b⟩ := some_of h
  exact ⟨_, _, c, passes chk, chk, a, (of_decide_eq_true b).1, (of_decide_eq_true b).2⟩

theorem witness_trap_return : (∃ s i, Passes s i true [] true ∧ i.cur.exec &&& i.grp.handler = 0) ∧ ∃ s i, Passes s i true [] true ∧ i.cur.exec &&& i.grp.handler ≠ 0 :=
  ⟨⟨ctl2, _, passes chk, chk⟩, ctl3, _, passes chk, chk⟩

theorem witness_trap_entry : ∃ s t g l m, Holds s 0 0 t g l m ∧ Trap.Fits ⟨0x15, 0xFF, 0⟩ 3 ∧ m.handler ≠ 0xFFFFFFFF ∧ g.handler = 0 ∧ g.undo = false :=
  ⟨ctl2, _, _, _, _, holds chk, ⟨by decide, by decide, by decide⟩, chk, chk, chk⟩
theorem witness_trap_within : (∃ s t g l m, Holds s 0 0 t g l m ∧ m.handler ≠ 0xFFFFFFFF ∧ g.handler ≠ 0 ∧ (0xF00 : LaneMask) &&& g.handler = 0 ∧ g.undo = false) ∧
    (∃ s t g l m, Holds s 0 0 t g l m ∧ m.handler = 0xFFFFFFFF) ∧ ∃ s t g l m, Holds s 0 0 t g l m ∧ (0xF : LaneMask) &&& g.handler ≠ 0 :=
  ⟨⟨ctl3, _, _, _, _, holds chk, chk, chk, chk, chk⟩, ⟨ctl1, _, _, _, _, holds chk, chk⟩,
    ctl3, _, _, _, _, holds chk, chk⟩

/-- A state whose group has two pending traps, of which STORE_IMPRECISE is the lower. -/
def pending1 : State := ({ ctl2 with cur := none } : State).onGroup 0 0 (fun g => { g with
  lanes := g.lanes.map (fun (l : Lane) => { l with pcv := 8 }), pend := [⟨0x12, 0, 0, false, none, 0, none, none⟩, ⟨0x11, 1, 0, false, some 0x30, 0x99, none, none⟩] })

theorem witness_async_trap : ∃ s t g l m ia e a, Holds s 0 0 t g l m ∧ g.fragment = some (ia, e) ∧ g.chain = none ∧ g.handler = 0 ∧ g.undo = false ∧ m.handler ≠ 0xFFFFFFFF ∧ a ∈ g.pend ∧
    inMask e (a.lane.getD ((lowest g.live g.lanes.length).getD 0)) ∧
    (∀ b ∈ g.pend, b ≠ a → inMask e (b.lane.getD ((lowest g.live g.lanes.length).getD 0)) → a.cause < b.cause) ∧ (s.coreCtx g.core t.ctx).reports = [] :=
  ⟨pending1, _, _, _, _, 8, 0xFFFF, ⟨0x11, 1, 0, false, some 0x30, 0x99, none, none⟩, holds chk, chk, chk, chk, chk,
    chk, chk, chk, chk, chk⟩

/-- The window base that puts v119 beyond a file of 120 registers; a register that an earlier load still writes. -/
theorem witness_issue_checks : (∃ (s : State) (i : Issue), s.issue? = some i ∧ i.image.regs ≤ i.grp.wb + (119 : RegField).toNat ∧ i.grp.wb + (2 : RegField).toNat < i.image.regs ∧ i.grp.chain = none) ∧
    ∃ (s : State) (i : Issue), s.issue? = some i ∧ i.grp.wb + (14 : RegField).toNat + 1 < i.image.regs ∧
      ∃ x ∈ s.accesses, x.team = i.cur.team ∧ x.grp = i.cur.grp ∧ x.dst ≤ i.grp.wb + (14 : RegField).toNat ∧ i.grp.wb + (14 : RegField).toNat < x.dst + x.dstN := by
  have one : ∀ {s : State}, passB s true [] true = true → s.issue? = some (iss s) := fun h => (passes h).issuing
  refine ⟨⟨ctl1.onGroup 0 0 (fun g => { g with wb := 8 }), _, one chk, chk, chk, chk⟩,
    after (exec (.ld always 14 4 0 0 4) (mem1 1)), _, one chk, chk, ?_⟩
  have h : (after (exec (.ld always 14 4 0 0 4) (mem1 1))).accesses.any (fun x => decide (x.team = (iss (after (exec (.ld always 14 4 0 0 4) (mem1 1)))).cur.team ∧
    x.grp = (iss (after (exec (.ld always 14 4 0 0 4) (mem1 1)))).cur.grp ∧ x.dst ≤ (iss (after (exec (.ld always 14 4 0 0 4) (mem1 1)))).grp.wb + (14 : RegField).toNat ∧
    (iss (after (exec (.ld always 14 4 0 0 4) (mem1 1)))).grp.wb + (14 : RegField).toNat < x.dst + x.dstN)) = true := by decide +kernel
  obtain ⟨x, m, e⟩ := List.any_eq_true.mp h
  exact ⟨x, m, of_decide_eq_true e⟩

theorem witness_step : ∃ s rest t g l m ia e, s.inbox = .issue 0 0 :: rest ∧ Holds s 0 0 t g l m ∧ g.ended = false ∧ g.wait = .none ∧ g.fragment = some (ia, e) ∧ g.pend = [] ∧
    ia.toNat / 4 < m.code.length ∧ ia.toNat / 4 < 65536 ∧ chainFrom m.code (ia.toNat / 4) = none ∧ (∀ c, s.ctx? t.ctx = some c → c.breakpoint m.addr ia = none) ∧
    decodeWord (getAt m.code (ia.toNat / 4) 0) = some (.iadd always 0 0 0) :=
  ⟨State.reset.loadCode [0], [], _, _, _, _, 0, 0xFFFF, rfl, holds chk, chk, chk, chk, chk, chk, by decide,
    chk, by
      intro c h
      have k : (((State.reset.loadCode [0]).ctx? (team (State.reset.loadCode [0])).ctx).all (fun c => decide (c.breakpoint (img (State.reset.loadCode [0])).addr 0 = none))) = true := by decide +kernel
      rw [h] at k; simpa using k, chk⟩
theorem witness_step_illegal : ∃ m : Image, decodeWord (getAt m.code 0 0) = none := ⟨loadImage [0xFFFFFFFF], chk⟩
theorem witness_step_event : ∃ (s : State) (e : Instr) (rest : List Act) (s2 : State), s.inbox = .event e :: rest ∧ exec e (({ s with inbox := rest } : State).unowe e) = .next s2 :=
  ⟨{ State.reset with inbox := [.event (.sensorUpdate ⟨0, 0, [], 0, 0⟩)] }, .sensorUpdate ⟨0, 0, [], 0, 0⟩, [], _, rfl, rfl⟩
theorem witness_step_upset : (∃ (s : State) (rest : List Act) (n : Nat), s.inbox = .upset (.sector n) :: rest ∧ n < 2 ^ 35) ∧
    ∃ (s : State) (rest : List Act) (die : Nat), s.inbox = .upset (.corrected die) :: rest ∧ die < 8 :=
  ⟨⟨{ State.reset with inbox := [.upset (.sector (2 ^ 35 - 1))] }, [], 2 ^ 35 - 1, rfl, by decide⟩,
   { State.reset with inbox := [.upset (.corrected 7)] }, [], 7, rfl, by decide⟩
/-- Sector 5 begins at address 160. -/
theorem test_upset : (after (step { State.reset with inbox := [.upset (.sector 5)] })).out = [.poison 160] ∧
    (after (step { State.reset with inbox := [.upset (.corrected 3)] })).errors = [(3, 1)] := by decide +kernel
theorem witness_issue_decision : ∃ (s : State) (g : Group), s.group? 0 0 = some g ∧ g.fragment = none ∧ g.ended = false ∧ ∃ l, l < g.lanes.length ∧ (g.lane l).exited = false ∧ (g.lane l).yx = true :=
  ⟨ctl1.onGroup 0 0 (fun g => { g with lanes := g.lanes.map (fun (l : Lane) => { l with yx := true }) }), grp (ctl1.onGroup 0 0 (fun g => { g with lanes := g.lanes.map (fun (l : Lane) => { l with yx := true }) })),
    chk, chk, chk, 0, chk, chk, chk⟩

/-! ### Barriers, engines, launches and tasks -/

/-- One lane, or more, whose team has 2 members on barrier 3 and one member, in phase 7, on barrier 4, and a record at 0x400 of its scratchpad; v1 is 2,
v2 the record, v3 no completion record, v4 the pair 0x40000100, v6 to v8 the name 9, 9, 9, v10 the pair 0x800 and 1000, v12 tile 3, v14 the pair 0x40010000. -/
def eng (lanes : LaneMask) (ws : List Word) : State :=
  (withRegs (mapped (issuing lanes)) [(1, 2), (2, 0x400), (3, 0xFFFFFFFF), (4, 0x40000100), (6, 9), (7, 9), (8, 9), (10, 0x800), (11, 1000), (12, 3),
    (14, 0x40010000), (16, 0x40001), (17, 5)]).onTeam 0
    (fun t => { t with bars := setAt (setAt t.bars 3 ⟨2, 0, 0⟩) 4 ⟨1, 0, 7⟩, scratch := Memory.write t.scratch 0x400 (wordsBytes ws) })

theorem test_barriers : (team (after (exec (.nbinit always 1 5) (eng 1 [])))).bar 5 = ⟨2, 0, 0⟩ ∧ (team (after (exec (.nbarr always 3) (eng 1 [])))).bar 3 = ⟨2, 1, 0⟩ ∧
  (team (after (exec (.nbarr always 4) (eng 1 [])))).bar 4 = ⟨1, 0, 8⟩ ∧ gives (eng 1 []) (.nbrd always 20 4) 20 = 7 ∧
  gives (after (exec (.nbarr always 3) (eng 1 []))) (.nbrd always 20 3) 20 = 0x10000 := by decide +kernel

theorem test_barrier_waits : (grp (after (exec (.nbsync always 3) (eng 1 [])))).wait = .barrier 3 1 none ∧ (grp (after (exec (.nbwait always 1 3) (eng 1 [])))).wait = .barrier 3 2 none ∧
  (grp (after (exec (.waitl always 20 4) (eng 1 [])))).wait = .barrier 4 8 (some (20, 1, 1)) ∧ (grp (after (exec (.nbarr always 5) (withHeader (eng 1 []) 0x40 (leBytes 4 0x40))))).cause = 0x1501 := by
  decide +kernel

theorem test_handoff : (lau (after (exec (.handoff always 1) (eng 1 [])))).hands = [(0, 2, 0)] ∧ (team (after (exec (.handoff always 1) (eng 1 [])))).handed = true ∧
  (grp (after (exec (.handwait always 20) (eng 1 [])))).wait = .handoff 20 1 := by decide +kernel

/-- FP16 by FP16: lane 3 holds the row 3.0, 0, 0 …, every other lane the row 1.0, 0, 0 …; B's first row is all 2.0. -/
def mma1 : State :=
  ((withRegs (issuing 0xFFFF) [(20, 0x11), (21, 5), (24, 0x400), (30, 0x3C00)]).onGroup 0 0 (fun g => { g with lanes := setAt g.lanes 3 ((g.lane 3).setReg 30 0x4200) })).onTeam 0
    (fun t => { t with scratch := Memory.write t.scratch 0x400 (wordsBytes (List.replicate 8 0x40004000)) })

theorem test_mma : getAt ((team (after (exec (.mma always 20 30 24) mma1))).tile 5).elems 0 0 = 0x40000000 ∧ getAt ((team (after (exec (.mma always 20 30 24) mma1))).tile 5).elems 63 0 = 0x40C00000 := by
  decide +kernel

/-- The first words of tile 3 after MXLD, of scratchpad after MXST of the tile, and of the tile after MXCLR. -/
theorem test_tiles : ((team (after (exec (.mxld always 13 12) (withRegs (eng 1 [0x3F800000, 0x40000000]) [(13, 0x400)])))).tile 3).elems.take 3 = [0x3F800000, 0x40000000, 0] ∧
  ((team (after (exec (.mxclr always 12) (after (exec (.mxld always 13 12) (withRegs (eng 1 [0x3F800000]) [(13, 0x400)])))))).tile 3).elems.take 1 = [0] ∧
  (let s := after (exec (.mxst always 10 12) (after (exec (.mxld always 13 12) (withRegs (eng 1 [0x3F800000]) [(13, 0x400)]))))
   Memory.read (team s).scratch 0x800 4 = [0, 0, 0, 0] ∧ Memory.read (team (after (exec (.matrixWorkCompletion 3) s))).scratch 0x800 4 = [0, 0, 0x80, 0x3F]) := by decide +kernel

/-- A tile of ones in i32 whose element 5 has become 9; the check of a drain restores it and counts it. -/
def tile9s : Tile := ⟨setAt (List.replicate 256 1) 5 9, List.replicate 16 16, List.replicate 16 16, true, 2⟩
theorem test_drain : (match tile9s.check 0 with | .corrected t => t.elems.take 7 == List.replicate 7 1 | _ => false) = true ∧
  ((after (exec (.mxdrn always 10 12) ((eng 1 []).onTeam 0 (fun t => { t with tiles := [(3, tile9s)] })))).core 0).corrected = 1 := by decide +kernel

theorem test_tolerance : (grp (after (exec (.mxtol always 13) (withRegs (eng 1 []) [(13, 0x3F800000)])))).tol = 0x3F800000 ∧ gives (eng 1 []) (.mxrtol always 20) 20 = 0x37800000 ∧
  (grp (after (exec (.mxwait always) (eng 1 [])))).wait = .matrix := by decide +kernel

/-- A GEMM of one tile and one chunk of FP16, its A at 0x1000 and B at 0x2000; the same block for the other kinds; a DRN to 0x2000. -/
def gemmBlock : List Word := [0x11, 0, 0x010101, 0x1000, 32, 0x2000, 32, 0, 0, 0, 0, 0, 0, 0, 0, 0]
def trqBlock : List Word := [0, 0, 0x010100, 0x1000, 32, 0x2000, 32, 0, 0, 0, 0, 0, 0, 0, 0, 0]
def ckvBlock : List Word := [0, 0, 0x010100, 0, 0, 0, 0, 0, 0, 0, 0, 0, 0, 0, 0, 0]
def drnBlock : List Word := [0, 0, 0x010100, 0, 0, 0x2000, 64, 0, 0, 0, 0, 0, 0, 0, 0, 0]

theorem test_tileops_start : ([(.tileopGemm always 2 1, gemmBlock), (.tileopTrq always 2 1, trqBlock), (.tileopCkv always 2 1, ckvBlock), (.tileopDrn always 2 1, drnBlock)] : List (Instr × List Word)).all
  (fun c => (grp (after (exec c.1 (withRegs (eng 1 c.2) [(3, 0)])))).ctrs == [0, 1, 0, 0]) = true := by decide +kernel

/-- 256 bytes from 0x40000100 to offset 0x800; a send of 32 bytes from 0x800 to 0x900 of the team with gang index 0, on its barrier 3. -/
def copyRecord : List Word := [0x40000100, 0, 0x800, 256, 1, 0, 0, 0]
def sendRecord : List Word := [0x800, 0x900, 32, 0, 3, 0, 0, 0]

theorem test_copy_issue : (team (after (exec (.copy always 2 3) (eng 1 copyRecord)))).absent.map (fun a => (a.line, a.pending)) = [(8, true)] ∧
  (grp (after (exec (.copy always 2 3) (eng 1 copyRecord)))).copies = 1 ∧ (after (exec (.copy always 2 3) (eng 1 copyRecord))).due = [.teamCopyStart 0 0] := by decide +kernel

/-- The hub of die 0 forwards every name to itself. -/
def hub1 : State := { eng 1 [] with routers := [⟨.hub 0, [(0, 0x100)], [], [], []⟩] }

theorem test_sharing : ((after (exec (.mcast always 20 2 4) (withRegs (eng 1 sendRecord) [(20, 1)]))).sends.map (fun x => x.left) = [[0]]) ∧
  (after (exec (.callslip always 10 6) hub1)).slips.map (fun x => (x.line, x.lifetime)) = [(8, 1000)] ∧
  (after (exec (.accession always 10 6) (eng 1 []))).accessions.map (fun x => x.offset) = [0x800] ∧
  (after (exec (.slipcan always 6) (after (exec (.callslip always 10 6) hub1)))).slips = [] ∧ (team (after (exec (.callslip always 10 6) (eng 1 [])))).isUnfilled 8 = true := by decide +kernel

/-- A publishable region of context 0 at 0x40000100. -/
def pub1 : State := { eng 1 [] with pubs := [⟨0, 0x40000100, 65536, 0x100, false, false, []⟩] }

theorem test_publish : (grp (after (exec (.publish always 4) pub1))).wait = .publish 0x40000100 [] [] ∧
  ((after (exec (.publish always 14) pub1)).launch? 1).map (fun l => l.fatal) = some (some ⟨0x05, 8, 0, 0, 0x40010000⟩) := by decide +kernel

/-- A collective of 32 bytes from 0x40000100 to 0x40000200, of one replica, on barrier 3. -/
def collRecord : List Word := [0x40000100, 0, 0x40000200, 0, 32, 0x30, 1, 0, 0, 0, 0, 0, 0, 0, 0, 0]

theorem test_collectives_issue : ([(.collred always 2, 2), (.collrsc always 2, 3), (.collgat always 2, 4), (.collbc always 2, 5)] : List (Instr × Nat)).all
  (fun c => (after (exec c.1 (eng 1 collRecord))).colls.map (fun x => (x.kind, x.bar)) == [(c.2, 3)]) = true := by decide +kernel

/-- Queue 3 of context 0 is device-fed; the packet at 0x40000100 names it with PRIO 2. -/
def fed1 : State :=
  let s := eng 1 []
  { s with queues := [⟨3, 0, true, 0x40000140, [], 0, [], 0, [], none⟩], mem := Memory.write s.mem 0x11C (leBytes 2 3 ++ leBytes 1 2) }

theorem test_launch : ((after (exec (.launch always 4) fed1)).queue? 3).map (fun q => (q.tail, q.linked.map (fun x => (x.prio, x.addr)))) = some (0x40000100, [(2, 0x40000100)]) ∧
  Memory.read (after (exec (.launch always 4) fed1)).mem 0x140 8 = leBytes 8 0x40000100 := by decide +kernel

/-- A region list at 0x40000100 of the one region at 0x40010000. -/
def fac1 : State :=
  let s := eng 1 []
  { s with mem := Memory.write s.mem 0x100 (leBytes 8 1 ++ leBytes 8 0 ++ leBytes 8 0x40010000 ++ leBytes 8 65536) }

theorem test_facsim : (grp (after (exec (.facsim always 4) fac1))).wait = .facsim 0x40000100 false ∧ (lau (after (exec (.facsim always 4) fac1))).facWait = some (0, [(0x40010000, 65536)]) := by decide +kernel

/-- The same group of a boosted launch, and with kind 5 registered at offset 0. -/
def task1 : State := withHeader (eng 1 []) 0x1A [8, 0]
def task2 : State := after (exec (.opreg always 5 20) task1)

theorem test_tasks : (lau task2).kinds = [(5, 0)] ∧ (after (exec (.opdo always 5 14) task2)).objects = [⟨0, 5, 0x40010000, 0x40001⟩] ∧
  (lau (after (exec (.conld always 4) { task1 with mem := Memory.write task1.mem 0x100 [7] }))).concord.take 2 = [7, 0] ∧ (lau (after (exec (.conld always 4) task1))).concord.length = 1024 ∧
  ((after (exec (.opreg always 5 20) (eng 1 []))).launch? 1).map (fun l => l.fatal.map (fun f => (f.code, f.detail))) = some (some (1, 0x1E)) := by decide +kernel

/-! ### Hypotheses that some state meets: barriers, engines, launches and tasks -/

theorem witness_barriers : ∃ s i, Passes s i true [.srcLost 1] true ∧ Passes s i true [] true ∧ Passes s i true [.dstMem 20 1] true ∧ i.taking always = 0 :: [1] ∧ (i.src 1 0).toNat = 2 ∧
    (i.src 3 0).toNat > 1023 ∧ i.effect always ≠ 0 ∧ (i.team.bar 5).expected = 0 ∧ (i.team.bar 3).expected ≠ 0 ∧ Drained s i 2 ∧ s.claimed i.cur.team i.cur.grp = false :=
  ⟨eng 3 [], _, passes chk, passes chk, passes chk, chk, chk, chk, chk, chk,
    chk, drained chk, chk⟩

theorem witness_handoff : (∃ s i s1, Passes s i true [.srcLost 1] true ∧ i.taking always = 0 :: [1] ∧ i.team.handed = false ∧ Releases s i 5 s1 ∧ Passes s i true [.rwStrict 20 2] true ∧
      s.claimed i.cur.team i.cur.grp = false ∧ ∀ w ∈ s1.twins, w.state ≠ .cutting) ∧ ∃ s i, Passes s i true [.srcLost 1] true ∧ i.team.handed = true := by
  have h : ((eng 3 []).commit (iss (eng 3 [])).cur.team).any (fun s1 => decide (s1.group? (iss (eng 3 [])).cur.team (iss (eng 3 [])).cur.grp = some (iss (eng 3 [])).grp) && s1.twins.isEmpty) = true := by
    decide +kernel
  obtain ⟨s1, a, b⟩ := some_of h
  rw [Bool.and_eq_true, decide_eq_true_eq, List.isEmpty_iff] at b
  exact ⟨⟨eng 3 [], _, s1, passes chk, chk, chk, ⟨drained chk, fun x => absurd x chk, a, b.1⟩, passes chk,
      chk, fun w hw => absurd hw (by rw [b.2]; simp)⟩,
    (eng 3 []).onTeam 0 (fun t => { t with handed := true }), _, passes chk, chk⟩

/-- Nothing holds a matrix operation back, said as one decision. -/
def matFreeB (s : State) (ts offs : List Nat) (n : Nat) (cores : List Nat) : Bool :=
  !(s.acquiring (iss s)) && ts.all (fun k => !((iss s).team.isPending (checksumLine k))) && offs.all (fun x => !(s.sliceMeets (iss s).cur.team x n)) &&
    !(s.engineHeld (iss s).team.ctx cores) && s.tileops.isEmpty

theorem matFree {s : State} {ts offs : List Nat} {n : Nat} {cores : List Nat} (h : matFreeB s ts offs n cores = true) : MatrixFree s (iss s) ts offs n cores := by
  simp only [matFreeB, Bool.and_eq_true, List.all_eq_true, Bool.not_eq_true', List.isEmpty_iff] at h
  exact ⟨h.1.1.1.1, h.1.1.1.2, h.1.1.2, h.1.2, fun o ho => absurd ho (by rw [h.2]; simp)⟩

theorem witness_mma : ∃ s i, Passes s i true [.rw 20 4, .srcNoLatch 30 i.aRegs, .srcNoLatch 24 1] true ∧ (∃ q, i.taking always = 0 :: q ∧ ∀ k ∈ q, (∀ n, n < 4 → i.regAt 20 n k = i.regAt 20 n 0) ∧ i.regAt 24 0 k = i.regAt 24 0 0) ∧
    fmtValid (i.regAt 20 0 0) = true ∧ fmtValid (i.regAt 30 0 0) = false ∧ i.grp.coll.held = false ∧ (i.regAt 20 1 0).toNat < i.image.accum ∧ (i.regAt 24 0 0).toNat % 32 = 0 ∧
    (i.regAt 24 0 0).toNat + bBytes (i.regAt 20 0 0) ≤ i.image.scratch ∧ i.team.absent = [] ∧ i.team.bad = [] ∧ i.team.badTiles = [] ∧ i.grp.lapse = none ∧
    MatrixFree s i [(i.regAt 20 1 0).toNat] [(i.regAt 24 0 0).toNat] (bBytes (i.regAt 20 0 0)) [i.team.tileCore (i.regAt 20 1 0).toNat] ∧ (i.team.tile 5).elems.length = 256 :=
  ⟨mma1, _, passes chk, ⟨List.range' 1 15, chk, chk⟩, chk, chk, chk, chk, chk, chk,
    chk, chk, chk, chk, matFree chk, chk⟩

/-- An MMA whose lanes differ in their format word, one of a collector that holds another format, and one of a tile beyond the image's. -/
theorem witness_mma_stops : (∃ s i, Passes s i true [.rw 30 4, .srcNoLatch 30 i.aRegs, .srcNoLatch 24 1] true ∧ ∃ k ∈ [3], k ∈ i.taking always ∧ i.regAt 30 0 k ≠ i.regAt 30 0 0) ∧
    ∃ s i, Passes s i true [.rw 20 4, .srcNoLatch 30 i.aRegs, .srcNoLatch 24 1] true ∧ i.grp.coll.held = true ∧ i.grp.coll.fmt = fwA (i.regAt 20 0 0) ∧ i.image.accum ≤ (i.regAt 20 1 0).toNat :=
  ⟨⟨mma1, _, passes chk, 3, by decide, chk, chk⟩,
    withRegs (mma1.onGroup 0 0 (fun g => { g with coll := ⟨true, [], 1⟩ })) [(21, 16)], _, passes chk, chk, chk, chk⟩

/-- The lanes of a tile function are ready, said as one decision. -/
def tilesB (s : State) (xs : List (Nat × Nat × Nat)) (useD lattice reads writes : Bool) : Bool :=
  xs.all (fun x => decide (x.2.1 < (iss s).image.accum ∨ (lattice = true ∧ x.2.1 = 0xFFFFFFFF)) &&
    (!useD || (decide (x.2.2 % 256 = 0 ∧ x.2.2 + 1024 ≤ (iss s).image.scratch ∧ x.2.2 < 2 ^ 32) &&
      (linesOf x.2.2 1024).all (fun k => decide ((iss s).team.absentLine? k = none) && (writes || decide (k ∉ (iss s).team.bad))))) &&
    (!reads || decide (x.2.1 ∉ (iss s).team.badTiles ∧ checksumLine x.2.1 ∉ (iss s).team.bad))) && s.accessions.isEmpty && decide ((iss s).grp.lapse = none) &&
  matFreeB s (xs.map (fun x => x.2.1)) (if useD then xs.map (fun x => x.2.2) else []) 1024 (xs.map (fun x => if x.2.1 = 0xFFFFFFFF then (iss s).grp.core else (iss s).team.tileCore x.2.1))

theorem tiles {s : State} {xs : List (Nat × Nat × Nat)} {useD lattice reads writes : Bool} (h : tilesB s xs useD lattice reads writes = true) :
    TilesReady s (iss s) xs useD lattice reads writes := by
  simp only [tilesB, Bool.and_eq_true, List.all_eq_true, Bool.or_eq_true, Bool.not_eq_true', decide_eq_true_eq, List.isEmpty_iff] at h
  obtain ⟨⟨⟨h, ac⟩, lp⟩, fr⟩ := h
  refine ⟨fun x hx => (h x hx).1.1, fun e x hx => ?_, fun _ c e => absurd e (by rw [lp]; simp), matFree fr, fun e x hx =>
    let k := (h x hx).2.resolve_left (by rw [e]; simp)
    ⟨k.1, fun _ => k.2⟩⟩
  have a := (h x hx).1.2.resolve_left (by rw [e]; simp)
  exact ⟨a.1.1, a.1.2.1, a.1.2.2, fun k hk => ⟨(a.2 k hk).1, fun w => (a.2 k hk).2.resolve_left (by rw [w]; simp)⟩, fun _ c hc => absurd hc (by rw [ac]; simp)⟩

theorem witness_tiles : ∃ s i, i.effect always ≠ 0 ∧ Memory.wf i.team.scratch = true ∧ Passes s i true [.srcNoLatch 12 1] true ∧ Passes s i true [.srcNoLatch 10 1, .srcNoLatch 12 1] true ∧
    (let xs := (i.taking always).map (fun l => (l, (i.regAt 12 0 l).toNat, (i.regAt 10 0 l).toNat))
     TilesReady s i xs false false false false ∧ TilesReady s i xs true true false false ∧ TilesReady s i xs true true true true ∧ TilesReady s i xs true false true true) ∧
    i.taking always = 0 :: [1] ∧ ((i.regAt 10 0 0).toNat < 0x7F800000 ∨ i.regAt 10 0 0 = 0x80000000) ∧ 0x7F800000 ≤ (i.regAt 3 0 0).toNat ∧ i.regAt 3 0 0 ≠ 0x80000000 ∧
    Passes s i true [.dstMem 20 1] true ∧ Passes s i true [] true ∧ s.claimed i.cur.team i.cur.grp = false :=
  ⟨eng 3 [], _, chk, chk, passes chk, passes chk, ⟨tiles chk, tiles chk, tiles chk, tiles chk⟩,
    chk, chk, chk, chk, passes chk, passes chk, chk⟩
/-- The lattice table is index 0xFFFF_FFFF of MXLD. -/
theorem witness_tiles_lattice : ∃ s i, TilesReady s i ((i.taking always).map (fun l => (l, (i.regAt 3 0 l).toNat, (i.regAt 10 0 l).toNat))) true true false false :=
  ⟨eng 1 [], _, tiles chk⟩
theorem witness_tile_corrected : ∃ (t : Tile) (w : Word), t.v = true ∧ t.ty = 2 ∧ t.elems.length = 256 ∧ t.chc = (List.range 16).map (fun j => (t.column j).foldl (· + ·) 0) ∧
    t.chr = (List.range 16).map (fun i => (t.row i).foldl (· + ·) 0) ∧ w ≠ getAt t.elems 255 0 :=
  ⟨⟨List.replicate 256 1, List.replicate 16 16, List.replicate 16 16, true, 2⟩, 9, chk⟩

theorem noStop {α : Type} {o : Option α} (h : o.isNone = true) : o = none := Option.isNone_iff_eq_none.mp h

/-- The TILEOP that an issue of kind `k` would start. -/
def tileOp (s : State) (k : Nat) : TileOp :=
  ⟨s.nextId, (iss s).cur.team, (iss s).cur.grp, 0, (iss s).cur.pc, 1, k, ((iss s).regAt 2 0 0).toNat, (iss s).regAt 2 1 0,
    (List.range 16).map (fun n => scratchWord (iss s).team (((iss s).regAt 2 0 0).toNat + 4 * n)) ++ [(iss s).grp.tol] ++ (iss s).lattice s, 0, [], []⟩

theorem witness_tileops : (∀ p ∈ ([(gemmBlock, 0), (trqBlock, 1), (ckvBlock, 2), (drnBlock, 3)] : List (List Word × Nat)),
      (iss (withRegs (eng 3 p.1) [(3, 0)])).tileopStop (tileOp (withRegs (eng 3 p.1) [(3, 0)]) p.2) = none) ∧
    (∃ t, (iss (eng 3 (0xFFFF :: gemmBlock.drop 1))).tileopStop (tileOp (eng 3 (0xFFFF :: gemmBlock.drop 1)) 0) = some (.trap t)) ∧
    ∃ s i, Passes s i true [.srcStrict 2 2] true ∧ i.taking always = 0 :: [1] ∧ ((i.regAt 2 0 0).toNat % 64 = 0 ∧ (i.regAt 2 0 0).toNat + 64 ≤ i.image.scratch ∧ i.team.absent = [] ∧ i.team.bad = [] ∧
      i.grp.lapse = none ∧ s.acquiring i = false ∧ s.sliceMeets i.cur.team (i.regAt 2 0 0).toNat 64 = false ∧ s.tileMeets i.cur.team i.cur.grp (i.regAt 2 0 0).toNat 64 = false ∧
      s.accessions = [] ∧ getAt i.grp.ctrs 1 0 < 63) :=
  ⟨fun p h => noStop (by revert p; decide +kernel), ⟨⟨0x01, 0x10, 0⟩, rfl⟩, withRegs (eng 3 gemmBlock) [(3, 0)], _, passes chk, chk, chk⟩

theorem witness_copy : ∃ s i, Passes s i true [.srcStrict 2 2] true ∧ i.taking always = 0 :: [1] ∧ i.recordStop s (engineRecords (i.regAt 2 0 0).toNat 32 32 none) = none ∧ i.regAt 2 1 0 = 0xFFFFFFFF ∧
    (i.team.bar 3).expected ≠ 0 ∧ recordOk (i.team.words (i.regAt 2 0 0).toNat 8) = true ∧ recordOk (i.team.words 0x404 8) = false ∧
    i.sliceStop ⟨i.cur.grp, 0, i.cur.pc, i.team.words (i.regAt 2 0 0).toNat 8, 3, none, 0, 0, false, false, 0, 0, false, []⟩ = none ∧ i.effect ⟨true, 0⟩ = 0 ∧
    i.team.bad = [] ∧ s.accessions = [] ∧ s.queueFull i.team.core = false :=
  ⟨eng 3 copyRecord, _, passes chk, chk, chk, chk, chk, chk, chk, chk, chk⟩

theorem witness_publish : ∃ s i p s1, Passes s i true [.srcStrict 4 2] true ∧ i.taking always = [0] ∧ s.region? (s.pubCtx i.team.ctx) (i.pair 4 0).toNat = some p ∧
    s.region? (s.pubCtx i.team.ctx) (i.pair 14 0).toNat = none ∧ Releases s i 6 s1 ∧ s1.claimed i.cur.team i.cur.grp = false := by
  have h : (pub1.commit (iss pub1).cur.team).any (fun s1 => decide (s1.group? (iss pub1).cur.team (iss pub1).cur.grp = some (iss pub1).grp) &&
    !(s1.claimed (iss pub1).cur.team (iss pub1).cur.grp)) = true := by decide +kernel
  obtain ⟨s1, a, b⟩ := some_of h
  rw [Bool.and_eq_true, Bool.not_eq_true', decide_eq_true_eq] at b
  obtain ⟨p, e, _⟩ := some_of (o := pub1.region? (pub1.pubCtx (iss pub1).team.ctx) ((iss pub1).pair 4 0).toNat) (p := fun _ => true) chk
  exact ⟨pub1, _, p, s1, passes chk, chk, e, chk, ⟨drained chk, fun x => absurd x chk, a, b.1⟩, b.2⟩

theorem witness_mcast : ∃ s i, Passes s i true [.rw 6 1, .srcStrict 2 2] true ∧ i.taking always = 0 :: [1] ∧ i.recordStop s (engineRecords (i.regAt 2 0 0).toNat 32 32 none) = none ∧
    (i.team.bar 4).expected ≠ 0 ∧ sendOk (i.team.words (i.regAt 2 0 0).toNat 8) = true ∧ sendOk (i.team.words 0x404 8) = false ∧ i.sendStop 1 (i.team.words (i.regAt 2 0 0).toNat 8) = none :=
  ⟨eng 3 sendRecord, _, passes chk, chk, chk, chk, chk, chk, chk⟩

theorem witness_names : ∃ s i s1, Passes s i true [.rwStrict 10 2, .srcStrict 6 3] true ∧ i.tileOffsets always 10 = [(0, 0x800)] ∧ (i.regAt 10 1 0).toNat = 1000 ∧ (i.regAt 3 0 0).toNat > 1048576 ∧
    i.team.absent = [] ∧ Releases s i 6 s1 ∧ Passes s i true [.srcStrict 6 3] true ∧ (∀ k ∈ i.team.groups, k.lineWait = []) ∧
    (Passes s i true [.rw 10 1, .srcStrict 6 3] true ∧ i.grp.lapse = none ∧ s.accesses = [] ∧ s.heldOut = [] ∧ i.team.pair = false ∧ s.drainsFor i.grp.core i.cur.team 6 = [] ∧
      s.awaits i.grp.core i.cur.team 6 = false ∧ s.sliceMeets i.cur.team 0x800 4096 = false ∧ s.tileMeets i.cur.team i.cur.grp 0x800 4096 = false ∧ 0x800 + 4096 ≤ i.image.scratch) := by
  obtain ⟨s1, h⟩ := releases (s := hub1) (sc := 6) chk
  exact ⟨hub1, _, s1, passes chk, chk, chk, chk, chk, h, passes chk, chk,
    passes chk, chk⟩

theorem witness_collectives : (∃ s i, Passes s i true [.srcStrict 2 2] true ∧ i.taking always = 0 :: [1] ∧ i.recordStop s (engineRecords (i.regAt 2 0 0).toNat 64 64 none) = none ∧
      (∀ k ∈ [2, 3, 4, 5], descriptorOk k i.launch.repl (i.team.words (i.regAt 2 0 0).toNat 16) = true) ∧ (∀ k ∈ [2, 3, 4, 5], descriptorOk k i.launch.repl (i.team.words 0x440 16) = false) ∧
      (i.team.bar 3).expected ≠ 0 ∧ i.image.det = false) ∧
    ∃ s i, Passes s i true [.srcStrict 2 2] true ∧ i.image.det = true ∧ 1 < i.launch.repl :=
  ⟨⟨eng 3 collRecord, _, passes chk, chk, chk, chk, chk, chk, chk⟩,
    ({ withHeader (eng 3 collRecord) 0x1A [2, 0] with cur := some ⟨0, 0, 3, 0, false⟩ } : State).onLaunch 1 (fun l => { l with repl := 2 }), _, passes chk, chk, chk⟩


/-- Reads that an instruction makes as it issues, said as one decision. -/
def readsB (s : State) (i : Issue) (ls : List LaneAcc) : Bool :=
  ls.all (fun x => decide (x.loc.part = s.part) && (!(s.storesTo i.cur.team i.cur.grp x.loc 64) && decide (s.queueing? x.loc.pa = none))) && !(s.acquiring i) && s.twins.isEmpty

theorem readsNow {s : State} {i : Issue} {ls : List LaneAcc} (h : readsB s i ls = true) : ReadsNow s i ls := by
  simp only [readsB, Bool.and_eq_true, List.all_eq_true, decide_eq_true_eq, Bool.not_eq_true', List.isEmpty_iff] at h
  exact ⟨fun x hx => (h.1.1 x hx).1, h.1.2, fun x hx => (h.1.1 x hx).2, fun w hw => absurd hw (by rw [h.2]; simp)⟩

theorem witness_launch : (∃ s i s1 s2, Passes s i true [.srcStrict 4 2] true ∧ Mapped s i (i.pairAddrs always 4) 64 .read ∧ i.pairAddrs always 4 ≠ [] ∧ i.pairAddrs ⟨true, 0⟩ 4 = [] ∧ Releases s i 5 s1 ∧
      (let ls := (i.pairAddrs always 4).map (fun x => (⟨x.1, x.2.toNat, i.locOf s1 x.2 .read, []⟩ : LaneAcc))
       ReadsNow s1 i ls ∧ i.image.boosted = false ∧
      (s1.tap (ls.map (fun x => x.loc))).launchAll i.team false (ls.map (fun x => (x.va, s1.teamRead i.cur.team i.team.ctx i.grp.core x.loc.pa 64))) = some s2 ∧ s2.group? i.cur.team i.cur.grp = some i.grp)) ∧
    (∃ (s : State) (q : Queue) (s1 : State), s.queue? (pkQueue (List.replicate 0x1C 0 ++ [3, 0])) = some q ∧ q.deviceFed = true ∧ s.vaWrite q.ctx q.tail (leBytes 8 0x40000100) = some s1 ∧ s1.queues = s.queues) ∧
    (iss (withHeader fed1 0x1A [8, 0])).image.boosted = true := by
  have h : (fed1.commit (iss fed1).cur.team).any (fun s1 => decide (s1.group? (iss fed1).cur.team (iss fed1).cur.grp = some (iss fed1).grp) &&
      (let ls := ((iss fed1).pairAddrs always 4).map (fun x => (⟨x.1, x.2.toNat, (iss fed1).locOf s1 x.2 .read, []⟩ : LaneAcc))
       readsB s1 (iss fed1) ls && (((s1.tap (ls.map (fun x => x.loc))).launchAll (iss fed1).team false
          (ls.map (fun x => (x.va, s1.teamRead (iss fed1).cur.team (iss fed1).team.ctx (iss fed1).grp.core x.loc.pa 64)))).any
        (fun s2 => decide (s2.group? (iss fed1).cur.team (iss fed1).cur.grp = some (iss fed1).grp))))) = true := by decide +kernel
  obtain ⟨s1, a, b⟩ := some_of h
  rw [Bool.and_eq_true, decide_eq_true_eq, Bool.and_eq_true] at b
  obtain ⟨s2, c, d⟩ := some_of b.2.2
  have k : (fed1.queue? (pkQueue (List.replicate 0x1C 0 ++ [3, 0]))).any (fun q => q.deviceFed && (fed1.vaWrite q.ctx q.tail (leBytes 8 0x40000100)).any (fun s1 => decide (s1.queues = fed1.queues))) = true := by
    decide +kernel
  obtain ⟨q, e, f⟩ := some_of k
  rw [Bool.and_eq_true] at f
  obtain ⟨s3, m, n⟩ := some_of f.2
  exact ⟨⟨fed1, _, s1, s2, passes chk, (reachable chk).toMapped, chk, chk,
    ⟨drained chk, fun x => absurd x chk, a, b.1⟩, readsNow b.2.1, chk, c, of_decide_eq_true d⟩, ⟨fed1, q, s3, e, f.1, m, of_decide_eq_true n⟩, chk⟩

/-- The list that a FACSIM reads, `k` pieces of it. -/
def facList (s : State) (k : Nat) : List Byte :=
  ((((iss s).listPieces s ((iss s).pair 4 0).toNat).take k).map (fun x => s.teamRead (iss s).cur.team (iss s).team.ctx (iss s).grp.core x.loc.pa 64)).flatten

theorem witness_facsim : (∃ s s1, Passes s (iss s) true [.srcStrict 4 2] true ∧ (iss s).taking always = [0] ∧ ((iss s).pair 4 0).toNat % 64 = 0 ∧ (iss s).pieceStop s 0 ((iss s).pair 4 0) 1 = none ∧
      ReadsNow s (iss s) ((iss s).listPieces s ((iss s).pair 4 0).toNat) ∧ (16 + 16 * bytesAt (facList s 1) 0 4 + 63) / 64 = 1 ∧ listOk (facList s 1) = true ∧ (iss s).image.boosted = false ∧
      (iss s).regionStop s 0 ((listRegions (facList s 1)).map regionPages).flatten = none ∧ Releases s (iss s) 6 s1 ∧ s1.claimed (iss s).cur.team (iss s).cur.grp = false) ∧
    (∃ s, Passes s (iss s) true [.srcStrict 4 2] true ∧ listOk (facList s 1) = false ∧ (16 + 16 * bytesAt (facList s 1) 0 4 + 63) / 64 ≤ 5) ∧
    (∃ s, Passes s (iss s) true [.srcStrict 4 2] true ∧ 5 < (16 + 16 * bytesAt (facList s 1) 0 4 + 63) / 64) ∧ (iss (withHeader fac1 0x1A [8, 0])).image.boosted = true := by
  have h : (fac1.commit (iss fac1).cur.team).any (fun s1 => decide (s1.group? (iss fac1).cur.team (iss fac1).cur.grp = some (iss fac1).grp) && !(s1.claimed (iss fac1).cur.team (iss fac1).cur.grp)) = true := by
    decide +kernel
  obtain ⟨s1, a, b⟩ := some_of h
  rw [Bool.and_eq_true, decide_eq_true_eq, Bool.not_eq_true'] at b
  exact ⟨⟨fac1, s1, passes chk, chk, chk, noStop chk, readsNow chk, chk, chk, chk, noStop chk,
      ⟨drained chk, fun x => absurd x chk, a, b.1⟩, b.2⟩,
    ⟨{ fac1 with mem := Memory.write fac1.mem 0x108 [1] }, passes chk, chk, chk⟩,
    ⟨{ fac1 with mem := Memory.write fac1.mem 0x100 [20] }, passes chk, chk⟩, chk⟩

theorem witness_tasks : (∃ s i, Passes s i (kindOk 5) [.srcNoLatch 20 1] true ∧ Passes s i (kindOk 5) [.srcStrict 14 3] true ∧ i.image.boosted = true ∧ i.grp.undo = false ∧ i.taking always = [0] ∧
      (i.regAt 20 0 0).toNat % 4 = 0 ∧ (i.regAt 20 0 0).toNat < 4 * i.image.code.length ∧ i.launch.kindOf (5 : BitVec 7).toNat = none ∧ Passes s i true [.srcStrict 4 2] true ∧
      (let pieces := fun (x : Nat × Dword) => (List.range 16).map (fun j => (x.1, x.2 + BitVec.ofNat 64 (64 * j)))
       Mapped s i ((i.pairAddrs always 4).map pieces).flatten 64 .read ∧ ReadsNow s i (((i.pairAddrs always 4).map pieces).flatten.map (fun x => ⟨x.1, x.2.toNat, i.locOf s x.2 .read, []⟩)))) ∧
    (∃ s i, Passes s i (kindOk 5) [.srcStrict 14 3] true ∧ i.launch.kindOf (5 : BitVec 7).toNat = some 0 ∧ i.team.uid = i.cur.team ∧ s.objects = [] ∧ i.team.errata = []) ∧
    ∃ s i, Passes s i (kindOk 63) [.srcNoLatch 20 1] true ∧ Passes s i (kindOk 63) [.srcStrict 14 3] true ∧ Passes s i true [.srcStrict 4 2] true ∧ i.image.boosted = false :=
  ⟨⟨task1, _, passes chk, passes chk, chk, chk, chk, chk, chk, chk, passes chk,
      (reachable chk).toMapped, readsNow chk⟩,
    ⟨{ task2 with cur := some ⟨0, 0, 1, 4, false⟩ }, _, passes chk, chk, chk, chk, chk⟩,
    eng 1 [], _, passes chk, passes chk, passes chk, chk⟩

/-! ### Completions of accesses, waits and engines -/

/-- The last access that is outstanding. -/
def acc (s : State) : Access := (s.accesses.getLast?).getD ⟨0, 0, 0, 0, .load, none, 0, 0, 0, false, 0, [], 0, [], false, false⟩

/-- States in which one access of a kind is outstanding. -/
def ld1 : State := after (exec (.ld always 14 4 0 1 4) (mem1 1))
def lds1 : State := after (exec (.lds always 14 7 0 4) (mem1 1))
def sts1 : State := after (exec (.sts always 10 7 0 4) (mem1 1))
def atoms1 : State := after (exec (.atoms always 10 7 1 0) (mem1 1))
def st1 : State := after (exec (.st always 10 4 0 0 4) (mem1 1))
def stl1 : State := after (exec (.stl always 10 4 1 0) (mem1 1))
def atom1 : State := after (exec (.atom always 10 4 1 0) (mem1 1))

/-- What is outstanding is at its home, said as one decision. -/
def homeB (s : State) : Bool :=
  decide (s.access? (acc s).id = some (acc s)) && (!(s.behind (acc s)) && !(s.holdsIssue (acc s))) &&
    (acc s).lanes.all (fun x => decide (x.loc.part = s.part ∧ x.loc.met = false ∧ x.loc.pa % 256 + (acc s).size ≤ 256 ∧ x.lane < 64)) &&
    decide ((acc s).lanes.map (fun x => x.lane)).Nodup

theorem home {s : State} (h : homeB s = true) : AtHome s (acc s) := by
  simp only [homeB, Bool.and_eq_true, decide_eq_true_eq, Bool.not_eq_true', List.all_eq_true] at h
  exact ⟨h.1.1.1, h.1.1.2.1, h.1.1.2.2, h.1.2, h.2⟩

theorem plain {s : State} (h : (s.twins.isEmpty && s.migrations.isEmpty && s.marks.isEmpty) = true) : Plain s := by
  simp only [Bool.and_eq_true, List.isEmpty_iff] at h
  exact ⟨h.1.1, h.1.2, h.2⟩

/-- No entry and no held line. -/
theorem tidy {s : State} (w : s.wc = []) (h : s.held = []) : TidyBuffers s := by
  refine ⟨?_, ?_, ?_, ?_⟩ <;> simp [w, h]

theorem witness_done : ∀ p ∈ [(lds1, 0), (sts1, 1), (atoms1, 2)], p.1.access? (acc p.1).id = some (acc p.1) ∧ (acc p.1).kind = .done p.2 ∧ ((acc p.1).got.map (fun x => x.1)).Nodup ∧
    (∀ x ∈ (acc p.1).got, x.1 < 64) ∧ p.1.twins = [] := by decide +kernel

theorem witness_access_load : AtHome ld1 (acc ld1) ∧ Plain ld1 ∧ (acc ld1).kind = .load ∧ (acc ld1).size ∈ [1, 2, 4, 8, 16] ∧ ∀ x ∈ (acc ld1).lanes, ld1.poisoned (ld1.place x.loc.pa) (acc ld1).size = false :=
  ⟨home chk, plain chk, chk, chk, chk⟩
theorem witness_access_store : AtHome st1 (acc st1) ∧ Plain st1 ∧ (∀ x ∈ (acc st1).lanes, st1.direct (acc st1) x = true) ∧ (acc st1).kind = .store ∧ st1.holds (acc st1).team = true ∧ st1.held = [] ∧
    TidyBuffers st1 ∧ Memory.wf st1.mem = true ∧ st1.pubs = [] ∧ (∀ x ∈ (acc st1).lanes, x.data.length = (acc st1).size) ∧ (st1.wc.filter (fun e => e.core == (acc st1).core)).length + (acc st1).lanes.length ≤ 64 :=
  ⟨home chk, plain chk, chk, chk, chk, chk, tidy chk chk, chk, chk,
    chk, chk⟩
theorem witness_access_release : AtHome stl1 (acc stl1) ∧ Plain stl1 ∧ (∀ x ∈ (acc stl1).lanes, stl1.direct (acc stl1) x = true) ∧ (acc stl1).kind = .release 0 :=
  ⟨home chk, plain chk, chk, chk⟩
theorem witness_access_atomic : AtHome atom1 (acc atom1) ∧ Plain atom1 ∧ (acc atom1).kind = .atomic 1 0 ∧ TidyBuffers atom1 ∧ Memory.wf atom1.mem = true ∧ atom1.pubs = [] ∧ (acc atom1).size = atomicBytes 1 ∧
    ∀ x ∈ (acc atom1).lanes, x.data.length = 4 * atomicRegs 1 ∧ atom1.poisoned x.loc.pa (acc atom1).size = false :=
  ⟨home chk, plain chk, chk, tidy chk chk, chk, chk, chk, chk⟩

/-- An AWAIT of two lanes: lane 1's word differs from its operand, lane 0's is its operand. -/
def await1 : State := after (exec (.await always 22 4 0) (withRegs (mem1 3) [(22, 0x84030201)]))
def await2 : State := after (exec (.await always 22 4 0) ((withRegs (mem1 3) [(22, 0x84030201)]).onGroup 0 0 (fun g => { g with lanes := setAt g.lanes 1 ((g.lane 1).setReg 22 0) })))

theorem witness_await_completes : Plain await1 ∧ holdsB await1 = true ∧ (acc await1).team = 0 ∧ (acc await1).grp = 0 ∧ (acc await1).kind = .await 0 ∧
    (await1.accesses.find? (fun b => b.team == (acc await1).team && b.grp == (acc await1).grp && (match b.kind with | .await _ => true | _ => false))).map (fun a => a.id) = some (acc await1).id ∧
    (acc await1).ctr = none ∧ (acc await1).size = 4 ∧ await1.claimed 0 0 = false ∧ (∀ x ∈ (acc await1).lanes, x.loc.part = await1.part ∧ x.loc.met = false ∧ await1.poisoned (await1.place x.loc.pa) 4 = false) ∧
    (acc await1).lanes ≠ [] ∧ (∀ x ∈ (acc await1).lanes, (List.range 4).map (fun k => await1.teamByte 0 0 0 (x.loc.pa + k)) = x.data) ∧ (grp await1).chain = none ∧
    (∀ k, k < 16 → ((grp await1).lane k).waitm = none) ∧
    (∃ x ∈ (acc await2).lanes, (List.range 4).map (fun k => await2.teamByte 0 0 0 (x.loc.pa + k)) = x.data) ∧ (∃ x ∈ (acc await2).lanes, ¬ (List.range 4).map (fun k => await2.teamByte 0 0 0 (x.loc.pa + k)) = x.data) ∧
    await2.accesses.Pairwise (fun b d => b.id ≠ d.id) ∧ (acc await2).waiting = false ∧ (acc await2).got = [] :=
  ⟨plain chk, chk, chk, chk, chk, chk, chk, chk, chk, chk, chk,
    chk, chk, chk, chk, chk, chk, chk, chk⟩

/-- An AWAIT whose lanes have all read another value than their operand. -/
def await0 : State := after (exec (.await always 10 4 0) (mem1 1))
theorem witness_await_ready : Plain await0 ∧ (acc await0).lanes ≠ [] ∧ (acc await0).kind = .await 0 ∧ (∀ x ∈ (acc await0).lanes, ¬ (List.range 4).map (fun k => await0.teamByte 0 0 0 (x.loc.pa + k)) = x.data) ∧
    (acc await0).ctr = none ∧ (acc await0).size = 4 ∧ await0.claimed 0 0 = false ∧ await0.behind (acc await0) = false ∧
    (∀ x ∈ (acc await0).lanes, x.loc.part = await0.part ∧ x.loc.met = false ∧ await0.poisonedFor 0 0 0 x.loc.pa 4 = false) ∧ ∃ tm g l m, Holds await0 0 0 tm g l m :=
  ⟨plain chk, chk, chk, chk, chk, chk, chk, chk, chk,
    _, _, _, _, holds chk⟩

/-- An entry of core 40 with one byte of the line at 0x200. -/
def entry90 : WcEntry := ⟨90, 40, 0, 0, 0, 2, [(0x200, 7)], [⟨0x20, 3, 0, 1, 0x40000200, 0, 0, 0⟩], false, 0⟩

/-- Matrix work, a host store, an entry of the far core 40, a mark of core 40, a line of the team that waits and a refused store, all outstanding. -/
def works1 : State :=
  let s := mem1 1
  ({ s with works := [⟨91, 0, 0, [(0x700, [5])]⟩], wc := [entry90], nextId := 99,
            reqs := [⟨92, true, 0, 0, { kind := 2 }, none, none, none, 1, false, false, 0, 0, 0⟩,
                    ⟨93, false, 1, 0, { kind := 2 }, none, some { entry90 with part := 1 }, none, 1, false, false, 0, 40, 0⟩] } : State).onTeam 0 (fun t => { t with absent := [⟨5, true, .free, 0, 0⟩] })

theorem witness_works : (⟨91, 0, 0, [(0x700, [5])]⟩ : Work) ∈ works1.works ∧ (∃ r ∈ works1.reqs, r.host = true) ∧ works1.team? 0 = some (team works1) ∧ (team works1).absentLine? 5 = some ⟨5, true, .free, 0, 0⟩ ∧
    (∃ r ∈ works1.reqs, (∃ e, r.wc = some e ∧ ∃ x, e.stores = [x] ∧ x.team = 0 ∧ x.grp = 0) ∧ r.host = false ∧ works1.reqs.find? (fun x => x.id == r.id && x.wc.isSome && !x.host) = some r) ∧
    (team works1).ended = false ∧ (grp works1).ended = false ∧ (grp works1).pend = [] :=
  ⟨chk, ⟨_, List.mem_cons_self, rfl⟩, chk, chk,
    ⟨⟨93, false, 1, 0, { kind := 2 }, none, some { entry90 with part := 1 }, none, 1, false, false, 0, 40, 0⟩, chk, ⟨{ entry90 with part := 1 }, rfl, ⟨0x20, 3, 0, 1, 0x40000200, 0, 0, 0⟩, rfl, rfl, rfl⟩, rfl, chk⟩, chk, chk, chk⟩

theorem test_works_complete : (after (exec (.matrixWorkCompletion 91) works1)).works = [] ∧ Memory.get (team (after (exec (.matrixWorkCompletion 91) works1))).scratch 0x700 = 5 ∧ (after (exec (.cxlMemCompletion 92) works1)).reqs.map (fun r => r.id) = [93] ∧
  (team (after (exec (.lineArrival 0 5) works1))).absent = [] ∧ (grp (after (exec (.storeRefusal 93 true) works1))).pend.map (fun a => (a.cause, a.detail, a.tval)) = [(0x11, 1, 0x40000200)] := by decide +kernel

/-- The entry drains into the line, or into the held line, of its team. -/
theorem witness_drain : (∃ e ∈ works1.wc, Plain works1 ∧ works1.pubs = [] ∧ TidyBuffers works1 ∧ Memory.wf works1.mem = true ∧ e.part = works1.part ∧ works1.holds e.team = true ∧ e.line * 256 < Config.hostBase) ∧
    (works1.onTeam 0 (fun t => { t with committed := true })).holds 0 = false := by
  refine ⟨⟨_, List.mem_cons_self, plain chk, chk, ⟨chk, chk, chk, chk⟩, chk, chk, chk, chk⟩,
    chk⟩

theorem test_drain_entry : (after (exec (.wcAgeExpiry 90) works1)).wc = [] ∧ (after (exec (.wcAgeExpiry 90) works1)).held.map (fun h => h.cells) = [[(0x200, 7)]] ∧
  Memory.get (after (exec (.wcAgeExpiry 90) (works1.onTeam 0 (fun t => { t with committed := true })))).mem 0x200 = 7 := by decide +kernel

/-- Core 3 has a mark; its group stands at 0x40000. -/
def fetch1 : State := ({ mem1 1 with cur := none, marks := [⟨2, 3, 0, false⟩] } : State).onGroup 0 0 (fun g => { g with lanes := g.lanes.map (fun (l : Lane) => { l with pcv := 0x40000 }) })

/-- The home of line 2 asks core 3 to promote at scope 5; the same for scope 2 from part 1. -/
def ask1 : Packet := { kind := 7, key := 0x200, payload := promotionPayload 3 5 }
def ask2 : Packet := { ask1 with srcPart := 1, payload := promotionPayload 3 2 }

theorem witness_promotion : ask1.kind = 7 ∧ ask1.dstPart = fetch1.part ∧ ask1.srcPart = fetch1.part ∧ ask1.cut = false ∧ fetch1.heldOut = [] ∧ ask2.srcPart ≠ fetch1.part := by decide +kernel

theorem test_promotion_elsewhere : (after (exec (.promotionRequest 3 2 ask2) fetch1)).marks = [⟨2, 3, 1, false⟩] ∧
  (after (exec (.promotionRequest 3 2 ask2) fetch1)).out = [.packet (replyTo ask2 0 [])] := by decide +kernel

theorem witness_fetch : (∃ t g l m ia e, Holds fetch1 0 0 t g l m ∧ g.fragment = some (ia, e) ∧ 262144 ≤ ia.toNat ∧ (l.image, ia.toNat / 256) ∉ (fetch1.core g.core).fetched) ∧
    (⟨2, 3, 0, false⟩ : Mark) ∈ fetch1.marks ∧ fetch1.wc = [] ∧ fetch1.awaits 3 0 5 = false ∧ fetch1.promotees 3 = [] :=
  ⟨⟨_, _, _, _, 0x40000, 0xFFFF, holds chk, chk, by decide, chk⟩, chk, chk, chk, chk⟩

theorem test_fetch_and_promote : ((after (exec (.instructionFetch 0 0) fetch1)).core 0).fetched = [(0, 0x400)] ∧ (after (exec (.promotionRequest 3 5 ask1) fetch1)).marks = [] := by decide +kernel

/-- TILEOPs that have started. -/
def gemm1 : State := after (exec (.tileopGemm always 2 1) (withRegs (eng 1 gemmBlock) [(3, 0)]))
def drn1 : State := after (exec (.tileopDrn always 2 1) (withRegs (eng 1 drnBlock) [(3, 0)]))

/-- The last TILEOP that has started. -/
def top (s : State) : TileOp := (s.tileops.getLast?).getD ⟨0, 0, 0, 0, 0, 0, 0, 0, 0, [], 0, [], []⟩

theorem team_some {s : State} (h : (s.team? 0).isSome = true) : s.team? 0 = some (team s) := by
  obtain ⟨t, e⟩ := Option.isSome_iff_exists.mp h
  simp [team, e]
theorem grp_some {s : State} (h : (s.group? 0 0).isSome = true) : s.group? 0 0 = some (grp s) := by
  obtain ⟨t, e⟩ := Option.isSome_iff_exists.mp h
  simp [grp, e]

/-- A TILEOP of the loaded team may end, said as one decision. -/
def topB (s : State) : Bool :=
  decide (s.tileops.find? (fun x => x.id == (top s).id) = some (top s)) && decide ((top s).team = 0 ∧ (top s).grp = 0 ∧ (team s).uid = 0) &&
    s.tileops.takeWhile (fun x => x.id != (top s).id) == [] && s.engineRuns (top s).team && (top s).order.all (fun x => s.engineActive (team s) ((team s).tileCore ((top s).first + x.1 * (top s).nt + x.2))) && decide ((top s).kind ≤ 3 ∧ (top s).at_ = 0 ∧ (top s).cor = [] ∧ (top s).unc = []) &&
    s.copies.isEmpty && s.works.isEmpty &&
    (team s).absent.isEmpty && (team s).bad.isEmpty && (team s).badTiles.isEmpty && Memory.wf (team s).scratch

theorem witness_tileop_ends : (topB gemm1 = true ∧ gemm1.team? 0 = some (team gemm1) ∧ gemm1.group? 0 0 = some (grp gemm1)) ∧ topB drn1 = true ∧ drn1.team? 0 = some (team drn1) ∧ drn1.group? 0 0 = some (grp drn1) :=
  ⟨⟨chk, team_some chk, grp_some chk⟩, chk, team_some chk, grp_some chk⟩
theorem witness_drn_passes : ∀ x ∈ (top drn1).order, ((team drn1).tile ((top drn1).first + x.1 * (top drn1).nt + x.2)).check (top drn1).tol = .pass := by
  intro x h
  have e : x = (0, 0) := by
    have k : (top drn1).order = [(0, 0)] := by decide +kernel
    rw [k] at h; exact List.mem_singleton.mp h
  subst e
  rfl

theorem test_tileop_status : Memory.read (team (after (exec (.tileopCompletion (top gemm1).id) gemm1))).scratch 0x43C 4 = [0, 0, 0, 0x80] ∧
  (grp (after (exec (.tileopCompletion (top gemm1).id) gemm1))).ctrs = [0, 0, 0, 0] := by decide +kernel

/-! ### Engines and launches -/

/-- The location of a page of this part that is readable and writable. -/
def loc0 (pa : Nat) : Loc := ⟨0, pa, false, false, none, true⟩

theorem engineReads {s : State} {ctx va pa : Nat} (h : s.translate ctx (BitVec.ofNat 64 va) .read = .ok (loc0 pa) ∧ s.part = 0 ∧ s.poisoned (s.placeFor ctx pa) 32 = false) : EngineReads s ctx va pa :=
  ⟨⟨_, h.1, h.2.1.symm, rfl, rfl⟩, fun m l e => by rw [h.1] at e; cases e; rfl, h.2.2⟩
theorem engineWrites {s : State} {ctx va pa : Nat} (h : s.translate ctx (BitVec.ofNat 64 va) .write = .ok (loc0 pa) ∧ s.part = 0) : EngineWrites s ctx va pa :=
  ⟨⟨_, h.1, h.2.symm, rfl, rfl⟩, fun m l e => by rw [h.1] at e; cases e; rfl⟩

/-- A team copy of one slice, before and after its start. -/
def copy0 (r : List Word) : State := after (exec (.copy always 2 3) (eng 1 r))
def copy1 (r : List Word) : State := after (exec (.teamCopyStart 0 0) (copy0 r))

/-- The last slice of the first team copy. -/
def slice (s : State) : Slice := ((s.copies.head?).bind (fun c => c.slices.getLast?)).getD ⟨0, 0, 0, [], 0, none, 0, 0, false, false, 0, 0, false, []⟩

/-- One slice is at its turn, said as one decision. -/
def oneB (s : State) : Bool :=
  ((s.teamCopy? 0 0).any (fun c => c.started && decide (c.slices = [slice s]))) && s.copies.all (fun c => decide (c.team = 0 → 0 ≤ c.n)) &&
    decide ((slice s).ended = false ∧ (slice s).fault = false ∧ (slice s).landed = 0 ∧ recordOk (slice s).record = true ∧ 0 < (slice s).sectors) && (s.team? 0).isSome && (s.imageOf (team s)).any (fun m => decide (m = img s)) &&
    decide ((team s).uid = 0) && (s.twins.isEmpty && s.migrations.isEmpty && s.marks.isEmpty) && (Memory.wf (team s).scratch && !(s.compWaits 0 (slice s).comp))

theorem oneSlice {s : State} (h : oneB s = true) : OneSlice s 0 0 (team s) (img s) (slice s) := by
  simp only [oneB, Bool.and_eq_true] at h
  obtain ⟨⟨⟨⟨⟨⟨⟨a, b⟩, c⟩, d⟩, e⟩, f⟩, g⟩, k⟩ := h
  obtain ⟨x, p, q⟩ := some_of a
  rw [Bool.and_eq_true, decide_eq_true_eq] at q
  obtain ⟨m, u, v⟩ := some_of e
  exact ⟨⟨x, p, q.1, q.2⟩, fun c _ _ => Nat.zero_le _, of_decide_eq_true c, by simpa using k.2, ⟨team_some d, by rw [u, of_decide_eq_true v], of_decide_eq_true f⟩, plain (by simp only [Bool.and_eq_true]; exact g), k.1⟩

/-- Records: 32 bytes from offset 0x400 to 0x900; 32 bytes from 0x400 to 0x40000200; 32 bytes from an address that is not mapped. -/
def innerRecord : List Word := [0x400, 0, 0x900, 32, 1, 0, 0, 2]
def outRecord : List Word := [0x40000200, 0, 0x400, 32, 1, 0, 0, 1]
def farRecord : List Word := [0x80000100, 0, 0x900, 32, 1, 0, 0, 0]

theorem witness_copy_start : (∃ c, (copy0 copyRecord).teamCopy? 0 0 = some c ∧ c.started = false ∧ ∀ g ∈ (team (copy0 copyRecord)).groups, g.idx ∈ c.issued ∨ g.ended = true) ∧
    (copy0 copyRecord).team? 0 = some (team (copy0 copyRecord)) := by
  have h : ((copy0 copyRecord).teamCopy? 0 0).any (fun c => decide (c.started = false ∧ ∀ g ∈ (team (copy0 copyRecord)).groups, g.idx ∈ c.issued ∨ g.ended = true)) = true := by decide +kernel
  obtain ⟨c, a, b⟩ := some_of h
  exact ⟨⟨c, a, of_decide_eq_true b⟩, team_some chk⟩
theorem witness_copy_in : OneSlice (copy1 copyRecord) 0 0 (team (copy1 copyRecord)) (img (copy1 copyRecord)) (slice (copy1 copyRecord)) ∧ (slice (copy1 copyRecord)).dir = 0 ∧
    ∀ k, k < (slice (copy1 copyRecord)).sectors → EngineReads (copy1 copyRecord) 0 ((slice (copy1 copyRecord)).gaddr k) (0x100 + 32 * k) := by
  refine ⟨oneSlice chk, chk, fun k h => engineReads ?_⟩
  have n : (slice (copy1 copyRecord)).sectors = 8 := by decide +kernel
  have all : ∀ k, k < 8 → (copy1 copyRecord).translate 0 (BitVec.ofNat 64 ((slice (copy1 copyRecord)).gaddr k)) .read = .ok (loc0 (0x100 + 32 * k)) ∧ (copy1 copyRecord).part = 0 ∧
    (copy1 copyRecord).poisoned ((copy1 copyRecord).placeFor 0 (0x100 + 32 * k)) 32 = false := by decide +kernel
  exact all k (n ▸ h)
theorem witness_copy_inner : OneSlice (copy1 innerRecord) 0 0 (team (copy1 innerRecord)) (img (copy1 innerRecord)) (slice (copy1 innerRecord)) ∧ (slice (copy1 innerRecord)).dir = 2 ∧ (slice (copy1 innerRecord)).sectors = 1 ∧
    (team (copy1 innerRecord)).absentLine? ((slice (copy1 innerRecord)).gaddr 0 / 256) = none ∧ (slice (copy1 innerRecord)).gaddr 0 / 256 ∉ (team (copy1 innerRecord)).bad :=
  ⟨oneSlice chk, chk, chk, chk, chk⟩
/-- A committed team's slice that goes out. -/
def copyOut : State := (copy1 outRecord).onTeam 0 (fun t => { t with committed := true })
theorem witness_copy_out : OneSlice copyOut 0 0 (team copyOut) (img copyOut) (slice copyOut) ∧ (slice copyOut).dir = 1 ∧ (slice copyOut).sectors = 1 ∧ (slice copyOut).pub = false ∧ (team copyOut).committed = true ∧
    Memory.wf copyOut.mem = true ∧ EngineWrites copyOut 0 ((slice copyOut).gaddr 0) 0x200 ∧ (team copyOut).absentLine? ((slice copyOut).soff 0 / 256) = none ∧ (slice copyOut).soff 0 / 256 ∉ (team copyOut).bad :=
  ⟨oneSlice chk, chk, chk, chk, chk, chk, engineWrites chk, chk, chk⟩
theorem witness_copy_fault : OneSlice (copy1 farRecord) 0 0 (team (copy1 farRecord)) (img (copy1 farRecord)) (slice (copy1 farRecord)) ∧ (slice (copy1 farRecord)).dir = 0 ∧
    (copy1 farRecord).translate 0 (BitVec.ofNat 64 ((slice (copy1 farRecord)).gaddr 0)) .read = .fault ∧ (grp (copy1 farRecord)).pend = [] :=
  ⟨oneSlice chk, chk, chk, chk⟩

/-- The line lands with the bytes at 0x40000100 and one arrival; a slice out writes memory; a slice from an unmapped address is a fault. -/
theorem test_copies : Memory.read (team (after (exec (.teamCopyEnd 0 0) { copy1 copyRecord with mem := Memory.write (copy1 copyRecord).mem 0x100 [1, 2] }))).scratch 0x800 3 = [1, 2, 0] ∧
  (team (after (exec (.teamCopyEnd 0 0) (copy1 copyRecord)))).absent = [] ∧ (team (after (exec (.teamCopyEnd 0 0) (copy1 copyRecord)))).bar 3 = ⟨2, 1, 0⟩ ∧
  Memory.read (after (exec (.teamCopyEnd 0 0) copyOut)).mem 0x200 4 = [0, 2, 0, 0x40] ∧ Memory.read (team (after (exec (.teamCopyEnd 0 0) (copy1 innerRecord)))).scratch 0x900 2 = [0, 4] := by decide +kernel
theorem test_copy_fault : (grp (after (exec (.copyFault 0 0 0) (copy1 farRecord)))).pend.map (fun a => (a.cause, a.tval)) = [(4, 0x80000100)] ∧
  (team (after (exec (.copyFault 0 0 0) (copy1 farRecord)))).bar 3 = ⟨2, 0, 0⟩ := by decide +kernel

/-- PUBLISH waits for the exchange; the background copy runs after it. -/
def exch0 : State := after (exec (.publish always 4) { pub1 with mem := Memory.write pub1.mem 0x10100 [5] })
def exch1 : State := after (exec (.publishExchange 0 0) exch0)

theorem witness_exchange : exch0.team? 0 = some (team exch0) ∧ (team exch0).group? 0 = some (grp exch0) ∧ (grp exch0).wait = .publish 0x40000100 [] [] ∧
    exch0.region? (exch0.pubCtx (team exch0).ctx) 0x40000100 = some ⟨0, 0x40000100, 65536, 0x100, false, false, []⟩ ∧ exch0.shadowWrites 0 ⟨0, 0x40000100, 65536, 0x100, false, false, []⟩ = ([], []) ∧ exch0.twins = [] ∧
    exch1.region? 0 0x40000100 = some ⟨0, 0x40000100, 65536, 0x100, true, true, []⟩ ∧ exch1.pubCtx 0 = 0 ∧ exch1.twins = [] ∧ exch1.migrations = [] ∧ Memory.wf exch1.mem = true :=
  ⟨team_some chk, by
    have h := grp_some (s := exch0) chk
    rw [State.group?, team_some chk] at h
    simpa using h, chk, chk, chk, chk, chk, chk, chk, chk, chk⟩
theorem test_exchange : (grp exch1).wait = .none ∧ Memory.get (after (exec (.publishBackgroundCopy 0 0x40000100) exch1)).mem 0x100 = 5 := by decide +kernel

/-- A send of the team to itself, and one to a team that is not there. -/
def send1 : State := after (exec (.mcast always 20 2 4) (withRegs ((eng 1 sendRecord).onTeam 0 (fun t => { t with scratch := Memory.write t.scratch 0x800 [6, 7] })) [(20, 1)]))
def send2 : State := { send1 with sends := [⟨7, 0, 0, 4, some 0x500, 0x800, 0x900, 32, 9, 3, [1], 0, 0⟩] }
def send3 : State := { send1 with sends := [⟨7, 0, 0, 4, some 0x500, 0x800, 0x900, 32, 0, 5, [0], 0, 0⟩] }
def send4 : State := { send1 with sends := [⟨7, 0, 0, 4, some 0x500, 0x800, 0x900, 32, 0, 5, [], 2, 1⟩] }

/-- The first send in flight. -/
def snd (s : State) : Send := (s.sends.head?).getD ⟨0, 0, 0, 0, none, 0, 0, 0, 0, 0, [], 0, 0⟩

theorem witness_sends : (∀ s ∈ [send1, send2, send3, send4], s.sends.find? (fun y => y.id == (snd s).id) = some (snd s) ∧ s.twins = [] ∧ (∀ l ∈ linesOf (snd s).soff (snd s).bytes, (team s).absentLine? l = none ∧ l ∉ (team s).bad) ∧
      Memory.wf (team s).scratch = true) ∧ (∀ s ∈ [send1, send2, send3, send4], s.team? (snd s).team = some (team s)) ∧
    (snd send1).left = [0] ∧ send1.refuses (snd send1) (team send1) = false ∧ send1.receiver? (team send1) 0 = some (team send1) ∧ (snd send2).left = [1] ∧ send2.receiver? (team send2) 10 = none ∧
    (snd send3).left = [0] ∧ send3.refuses (snd send3) (team send3) = true ∧ (snd send4).left = [] := by
  refine ⟨chk, ?_, chk, chk, rfl, chk, chk, chk, chk, chk⟩
  intro s h
  simp only [List.mem_cons, List.mem_nil_iff, or_false] at h
  rcases h with rfl | rfl | rfl | rfl <;> exact team_some chk
theorem test_sends : Memory.read (team (after (exec (.mcastReceipt (snd send1).id 0) send1))).scratch 0x900 2 = [6, 7] ∧ (team (after (exec (.mcastReceipt (snd send1).id 0) send1))).bar 3 = ⟨2, 1, 0⟩ ∧
  (snd (after (exec (.mcastReceipt 7 1) send2))).refused = 2 ∧ (snd (after (exec (.mcastReceipt 7 0) send3))).refused = 1 ∧
  Memory.read (team (after (exec (.mcastSendEnd 7) send4))).scratch 0x500 16 = [0, 0, 0, 0x80, 32, 0, 0, 0, 2, 0, 0, 0, 1, 0, 0, 0] := by decide +kernel

/-- A slip that waits in its hub's table, and one whose tile has reached the hub; an ACCESSION; a collective of one part. -/
def slip0 : State := after (exec (.callslip always 10 6) hub1)
def whole : Slip := ⟨2, 0, ⟨9, 9, 9⟩, 8, 0, 1000, some (List.replicate 4096 9)⟩
def slip1 : State := { slip0 with slips := [whole] }
def acs1 : State := after (exec (.accession always 10 6) ((eng 1 []).onTeam 0 (fun t => { t with scratch := Memory.write t.scratch 0x800 [4] })))
def coll1 : State := (after (exec (.collred always 2) (withRegs (eng 1 collRecord) [(3, 0x600)]))).onTeam 0 (fun t => { t with committed := true })

theorem witness_slips : (∃ x ∈ slip0.slips, slip0.slips.find? (fun y => y.id == x.id) = some x ∧ x.data = none ∧ x.team = 0) ∧ slip0.team? 0 = some (team slip0) ∧ Memory.wf (team slip0).scratch = true ∧
    (slip1.slips.find? (fun y => y.id == whole.id) = some whole ∧ whole.data = some (List.replicate 4096 9) ∧ (List.replicate 4096 (9 : Byte)).length = 4096 ∧
      ∀ l ∈ (team slip1).slipLines 2, 8 ≤ l ∧ l < 24) ∧ (team slip1).slipLines 2 ≠ [] ∧ slip1.team? 0 = some (team slip1) :=
  ⟨chk, team_some chk, chk, ⟨rfl, rfl, List.length_replicate, chk⟩, chk, team_some chk⟩
theorem witness_accession : (∃ x ∈ acs1.accessions, acs1.accessions.find? (fun y => y.id == x.id) = some x ∧ x.team = 0 ∧ (∀ l ∈ linesOf x.offset 4096, l ∉ (team acs1).bad) ∧
    ∀ e ∈ (acs1.router (.hub x.die)).pending, e.name ≠ x.name) ∧ acs1.team? 0 = some (team acs1) ∧ acs1.twins = [] ∧
    (∀ x ∈ acs1.accessions, 0 < acs1.holdShare (.hub x.die) (acs1.sliceOf (team acs1).ctx)) := ⟨chk, team_some chk, chk, chk⟩
theorem witness_collective : (∃ c ∈ coll1.colls, coll1.colls.find? (fun y => y.id == c.id) = some c ∧ c.team = 0 ∧ 2 ≤ c.kind ∧ c.kind ≤ 5 ∧ (getAt c.words 4 0).toNat = 32 ∧ (getAt c.words 6 0).toNat = 1 ∧
      (getAt c.words 5 0).toNat / 256 = 0 ∧ (getAt c.words 0 0).toNat + 2 ^ 32 * (getAt c.words 1 0).toNat = 0x40000100 ∧ (getAt c.words 2 0).toNat + 2 ^ 32 * (getAt c.words 3 0).toNat = 0x40000200) ∧
    coll1.team? 0 = some (team coll1) ∧ coll1.launch? (team coll1).launch = some (lau coll1) ∧ coll1.image? (lau coll1).image = some (img coll1) ∧ Plain coll1 ∧ coll1.pubs = [] ∧ (lau coll1).replica = 0 ∧
    (∀ c ∈ coll1.colls, c.landed = none ∧ c.src.fault = false ∧ c.src.record = [0x40000100, 0, 0, 32, 1, 32, 0, 0]) ∧ coll1.wc = [] ∧ coll1.heldOut = [] ∧ coll1.awaits 0 0 6 = false ∧
    Memory.wf (team coll1).scratch = true ∧ (team coll1).committed = true ∧ Memory.wf coll1.mem = true ∧ EngineReads coll1 0 0x40000100 0x100 ∧ EngineWrites coll1 0 0x40000200 0x200 :=
  ⟨chk, team_some chk, chk, chk, plain chk, chk, chk, chk, chk, chk, chk,
    chk, chk, chk, engineReads chk, engineWrites chk⟩

theorem test_slips : (team (after (exec (.tileDelivery 2) { slip1 with slips := [{ whole with data := some (List.replicate 256 9) }] }))).absent.length = 15 ∧
  Memory.get (team (after (exec (.tileDelivery 2) { slip1 with slips := [{ whole with data := some (List.replicate 256 9) }] }))).scratch 0x8FF = 9 ∧
  (team (after (exec (.slipLapse ((slip0.slips.head?).map (fun x => x.id)).get!) slip0))).isUnfilled 8 = true := by decide +kernel
theorem test_accession_and_collective : ((after (exec (.accessionHoldingReady ((acs1.accessions.head?).map (fun x => x.id)).get!) acs1)).router (.hub 0)).holdings.map (fun h => h.data.take 2) = [[4, 0]] ∧
  Memory.get (after (exec (.collectiveEnd ((coll1.colls.head?).map (fun c => c.id)).get! true [[]]) { coll1 with mem := Memory.write coll1.mem 0x100 [8] })).mem 0x200 = 8 ∧
  Memory.read (team (after (exec (.collectiveEnd ((coll1.colls.head?).map (fun c => c.id)).get! false [[]]) coll1))).scratch 0x600 4 = [1, 0, 0, 0xC0] := by decide +kernel

/-! ### Launches, teams and facsimiles -/

/-- A launch packet of one team on queue 3 at priority 2: its image, dependences and COMPL. -/
def pk (image ndeps deps compl : Nat) : List Byte :=
  leBytes 8 0 ++ leBytes 8 image ++ leBytes 4 1 ++ leBytes 4 1 ++ leBytes 4 1 ++ leBytes 2 3 ++ leBytes 1 2 ++ leBytes 1 ndeps ++ leBytes 8 deps ++ leBytes 8 compl ++ leBytes 2 1 ++ List.replicate 14 0

/-- The part with its image and its page table, no team, and queue 3 of context 0 with some packets; memory has a packet at 0x180, a dependence list at
0x80 whose record at 0x40 is DONE with a fault, and another record at 0x60 that is DONE. -/
def disp (links : List Linked) (wait : List StartWait) : State :=
  let s := mem1 1
  { s with cur := none, teams := [], launches := [], queues := [⟨3, 0, false, 0x40000140, [0], 0, links, 4, wait, none⟩],
           mem := Memory.write (Memory.write (Memory.write s.mem 0x180 (pk 0 0 0 0)) 0x40 (leBytes 4 0xA0000000)) 0x60 (leBytes 4 0x80000000 ++ leBytes 28 0 ++ leBytes 8 0x40000060 ++ leBytes 8 0x40000040) }

/-- The head of queue 3. -/
def link (p : List Byte) (checked ready : Bool) : Linked := ⟨2, 0x40000100, p, checked, ready, []⟩

theorem writable {s : State} {ctx va n pa : Nat} (h : ((s.twins.isEmpty && s.migrations.isEmpty && s.marks.isEmpty) && decide (va % 256 + n ≤ 256) &&
    decide (s.translate ctx (BitVec.ofNat 64 va) .write = .ok (loc0 pa) ∧ s.part = 0) && (s.team? s.nextId).isNone && Memory.wf s.mem) = true) : PartWrites s ctx va n pa := by
  simp only [Bool.and_eq_true, decide_eq_true_eq] at h
  obtain ⟨⟨⟨⟨a, b⟩, c⟩, d⟩, e⟩ := h
  exact ⟨plain (by simp only [Bool.and_eq_true]; exact a), b, ⟨_, c.1, c.2.symm, rfl⟩, Option.isNone_iff_eq_none.mp d, e⟩

theorem witness_append : ∃ (s : State) (q : Queue) (bs next : List Byte) (s1 : State), s.queue? q.num = some q ∧ q.deviceFed = false ∧ s.vaRead q.ctx 0x40000180 64 = some bs ∧ s.vaRead q.ctx q.tail 8 = some next ∧
    leNat next = 0 ∧ s.vaWrite q.ctx q.tail (leBytes 8 0x40000180) = some s1 ∧ s1.queue? q.num = some q := by
  have h : ((disp [] []).vaWrite 0 0x40000140 (leBytes 8 0x40000180)).any (fun s1 => decide (s1.queue? 3 = some ⟨3, 0, false, 0x40000140, [0], 0, [], 4, [], none⟩)) = true := by decide +kernel
  obtain ⟨s1, a, b⟩ := some_of h
  exact ⟨disp [] [], ⟨3, 0, false, 0x40000140, [0], 0, [], 4, [], none⟩, pk 0 0 0 0, leBytes 8 0, s1, chk, rfl, chk, chk, chk, a, of_decide_eq_true b⟩

theorem test_append : ((after (exec (.hostFedAppend 3 0x40000180) (disp [] []))).queue? 3).map (fun q => (q.tail, q.linked.map (fun h => (h.prio, h.addr)))) = some (0x40000180, [(2, 0x40000180)]) := by
  decide +kernel

/-- Heads that fail a check, are ready to be looked at, or depend on a record that faulted and one that did not. -/
def bad1 : State := disp [link (pk 5 0 0 0x40000200) false false] []
def good1 : State := disp [link (pk 0 0 0 0) false false] []
def deps1 : State := disp [link (pk 0 1 0x40000080 0) true false] []
def deps2 : State := disp [link (pk 0 2 0x40000080 0x40000200) true false] []

theorem witness_heads : (∃ q h c, bad1.queue? 3 = some q ∧ q.head? 2 = some h ∧ h.ready = false ∧ q.waits h.addr = false ∧ h.checked = false ∧ bad1.headStatus q h = some c ∧ 0x0B < c ∧
      bytesAt h.packet 0x28 8 = 0x40000200 ∧ PartWrites bad1 q.ctx 0x40000200 32 0x200) ∧
    ∃ q h, good1.queue? 3 = some q ∧ q.head? 2 = some h ∧ h.ready = false ∧ q.waits h.addr = false ∧ h.checked = false ∧ good1.headStatus q h = none ∧ bytesAt h.packet 0x1F 1 = 0 :=
  ⟨⟨⟨3, 0, false, 0x40000140, [0], 0, [link (pk 5 0 0 0x40000200) false false], 4, [], none⟩, link (pk 5 0 0 0x40000200) false false, 0x21, chk, chk, rfl, chk, rfl, chk, by decide,
      chk, writable chk⟩,
    ⟨3, 0, false, 0x40000140, [0], 0, [link (pk 0 0 0 0) false false], 4, [], none⟩, link (pk 0 0 0 0) false false, chk, chk, rfl, chk, rfl, chk, chk⟩

/-- A record's address is listed and its STATUS is found. -/
theorem depAt {s : State} {ctx : Nat} {h : Linked} {k a st x y : Nat} (e : s.translate ctx (BitVec.ofNat 64 (bytesAt h.packet 0x20 8 + 8 * k)) .read = .ok (loc0 x) ∧ s.part = 0 ∧ s.viewRead ctx x 8 = leBytes 8 a ∧
    a < 2 ^ 64 ∧ st < 2 ^ 32 ∧ s.translate ctx (BitVec.ofNat 64 a) .read = .ok (loc0 y) ∧ s.viewRead ctx y 4 = leBytes 4 st) : DepAt s ctx h k a st :=
  ⟨⟨_, e.1, e.2.1.symm, e.2.2.1⟩, e.2.2.2.1, e.2.2.2.2.1, _, e.2.2.2.2.2.1, e.2.1.symm, e.2.2.2.2.2.2⟩

theorem witness_dependences : (deps1.queue? 3).any (fun q => decide ((q.head? 2).map (fun h => (h.checked, h.ready, bytesAt h.packet 0x1F 1)) = some (true, false, 1))) = true ∧
    DepAt deps1 0 (link (pk 0 1 0x40000080 0) true false) 0 0x40000060 0x80000000 ∧ (0x80000000 : Nat).testBit 31 = true ∧ (0x80000000 : Nat).testBit 30 = false ∧ (0x80000000 : Nat).testBit 29 = false ∧
    (deps2.queue? 3).any (fun q => decide ((q.head? 2).map (fun h => (h.checked, h.ready, bytesAt h.packet 0x1F 1)) = some (true, false, 2))) = true ∧
    DepAt deps2 0 (link (pk 0 2 0x40000080 0x40000200) true false) 0 0x40000060 0x80000000 ∧ DepAt deps2 0 (link (pk 0 2 0x40000080 0x40000200) true false) 1 0x40000040 0xA0000000 ∧
    (0xA0000000 : Nat).testBit 31 = true ∧ (0xA0000000 : Nat).testBit 29 = true ∧ PartWrites deps2 0 0x40000200 32 0x200 :=
  ⟨chk, depAt (x := 0x80) (y := 0x60) chk, by decide, by decide, by decide, chk, depAt (x := 0x80) (y := 0x60) chk,
    depAt (x := 0x88) (y := 0x40) chk, by decide, by decide, writable chk⟩

theorem test_heads : Memory.read (after (exec (.dependenceReady 3 2) bad1)).mem 0x200 4 = [0x21, 0, 0, 0xC0] ∧ ((after (exec (.dependenceReady 3 2) good1)).queue? 3).map (fun q => q.linked.map (fun h => h.ready)) = some [true] ∧
  ((after (exec (.dependenceReady 3 2) deps1)).queue? 3).map (fun q => q.linked.map (fun h => h.ready)) = some [true] := by decide +kernel
theorem test_failed_dependence : Memory.read (after (exec (.dependenceReady 3 2) deps2)).mem 0x200 4 = [0x23, 0, 0, 0xC0] ∧ Memory.read (after (exec (.dependenceReady 3 2) deps2)).mem 0x210 4 = [0x40, 0, 0, 0x40] := by
  decide +kernel

/-- A ready head of a launch, also of a cooperative one whose grid cannot be resident, and one that waits at the start barrier. -/
def adm1 : State := disp [link (pk 0 0 0 0) true true] []
def adm2 : State := withHeader (disp [link ((pk 0 0 0 0x40000200).take 0x10 ++ leBytes 4 100000 ++ (pk 0 0 0 0x40000200).drop 0x14) true true] []) 0x1A [4, 0]
def bar1 : State := disp [link (pk 0 0 0 0x40000200) true true] [⟨2, 0x40000100, 0, true, [], none⟩]

theorem witness_admission : (∀ s ∈ [adm1, adm2], s.admitted 0 + s.starting 0 < 64 ∧ (s.overflowArea 0 (img s).det).isSome = true ∧ (s.nextHead 0).map (fun x => (x.1.num, x.2.addr)) = some (3, 0x40000100) ∧ (s.image? 0).map (fun m => m.coop) = some (s == adm2) ∧
      ((s.queue? 3).bind (fun q => q.linked.head?)).map (fun h => bytesAt h.packet 0x30 2) = some 1) ∧ adm2.sliceCapacity (img adm2) 0 < 100000 ∧ PartWrites adm2 0 0x40000200 32 0x200 :=
  ⟨chk, chk, writable chk⟩
theorem witness_start_barrier : (∃ q h w, bar1.queue? 3 = some q ∧ q.barrier.find? (fun x => x.go.isNone) = some w ∧ q.linked.find? (fun k => k.addr == w.addr) = some h ∧ q.barrier.find? (fun x => x.addr == h.addr) = some w ∧
      bar1.isRecalled q.ctx = false ∧ bytesAt h.packet 0x28 8 = 0x40000200) ∧ PartWrites bar1 0 0x40000200 32 0x200 :=
  ⟨⟨⟨3, 0, false, 0x40000140, [0], 0, [link (pk 0 0 0 0x40000200) true true], 4, [⟨2, 0x40000100, 0, true, [], none⟩], none⟩, link (pk 0 0 0 0x40000200) true true, ⟨2, 0x40000100, 0, true, [], none⟩,
      chk, chk, chk, chk, chk, chk⟩, writable chk⟩

theorem test_admission : (after (exec (.launchAdmission 0) adm1)).launches.map (fun l => (l.prio, l.gen, l.next)) = [(2, 5, 0)] ∧ Memory.read (after (exec (.launchAdmission 0) adm2)).mem 0x200 4 = [0x0C, 0, 0, 0xC0] := by
  decide +kernel
theorem test_start_barrier : (after (exec (.startBarrierRelease 3 true 0 9) bar1)).launches.map (fun l => l.gen) = [9] ∧ Memory.read (after (exec (.startBarrierTimeout 3) bar1)).mem 0x200 4 = [0x24, 0, 0, 0xC0] := by
  decide +kernel

/-- An admitted launch whose one team is still to be placed, and a gang of another that has waited 4,096 decisions. -/
def place1 : State := { disp [] [] with launches := [{ loadLaunch 50 with next := 0, placed := [] }] }
def aged1 : State := { disp [] [] with launches := [{ loadLaunch 50 with res := [⟨0, 2, [16], some 7, false⟩] }], decisions := [(0, 4103)] }

theorem witness_dispatch : (∃ l, place1.serving 0 = [l] ∧ place1.launch? l.uid = some l ∧ l.res = [] ∧ l.again = [] ∧ l.next < l.teamCount ∧ l.next ∉ l.placed ∧ place1.twinOf? l.ctx = none ∧ (place1.saveArea l.ctx 0).isSome = true ∧ place1.sliceOf l.ctx = 0 ∧ place1.image? l.image = some (img place1) ∧
      place1.canPlace l (img place1) 0 = true) ∧ (img place1).inGangs = false ∧ (img place1).coop = false ∧ place1.storeBufs = [] ∧ (0 : Nat) ∈ place1.sliceCores (img place1) 0 ∧ (img place1).paired = false ∧
    (img place1).slots ≤ (place1.freeSlots 0 0).length ∧ ∀ c ∈ place1.sliceCores (img place1) 0, place1.canPlace { loadLaunch 50 with next := 0, placed := [] } (img place1) c = true → c = 0 :=
  ⟨⟨{ loadLaunch 50 with next := 0, placed := [] }, chk, chk, rfl, rfl, by decide, by decide, chk, chk, chk, chk, chk⟩, chk, chk, chk,
    chk, chk, chk, chk⟩
theorem witness_aged : ∃ l r, aged1.launch? l.uid = some l ∧ r ∈ l.res ∧ r.aged = false ∧ r.first = some 7 ∧ 7 + 4096 ≤ lookupD (aged1.sliceOf l.ctx) 0 aged1.decisions :=
  ⟨{ loadLaunch 50 with res := [⟨0, 2, [16], some 7, false⟩] }, ⟨0, 2, [16], some 7, false⟩, chk, by decide, rfl, rfl, chk⟩

theorem test_dispatch : (after (exec (.dispatchDecision 0) place1)).teams.map (fun t => (t.core, t.slots, t.tlin, t.groups.length)) = [(0, [(0, 0)], 0, 1)] ∧ ((after (exec (.dispatchDecision 0) place1)).core 0).active = some 0 ∧
  (after (exec (.gangAged 50 0) aged1)).launches.map (fun l => l.res.map (fun r => r.aged)) = [[true]] := by decide +kernel

/-- A group all of whose lanes have exited, with a held line of its team; the same of a deterministic, a boosted launch, and of a team with another group. -/
def end1 : State := ({ mem1 1 with cur := none, held := [⟨0, 2, [(0x200, 7)], 0, .way⟩] } : State).onGroup 0 0 (fun g => { g with lanes := g.lanes.map (fun (l : Lane) => { l with exited := true }) })
def end2 : State := withHeader end1 0x1A [2, 0]
def end3 : State := withHeader end1 0x1A [8, 0]
def end4 : State := end1.onTeam 0 (fun t => { t with groups := t.groups ++ [{ grp end1 with idx := 1 }] })

/-- A group is its team's last and may end, said as one decision. -/
def lastB (s : State) : Bool :=
  decide ((team s).ended = false ∧ (team s).killed = false ∧ (team s).aborting = none ∧ (grp s).ended = false ∧ (grp s).undo = false) &&
    (s.quiet 0 0 && decide ((grp s).live = 0) && (grp s).ctrs.all (fun c => c == 0)) && ((grp s).pend.all (fun a => decide (a.cause ≠ 0x11)) && (s.coreCtx (grp s).core (team s).ctx).reports.isEmpty) &&
    (s.twins.isEmpty && s.migrations.isEmpty && s.marks.isEmpty) && (team s).groups.all (fun h => decide (h.idx ≠ 0 → h.ended = true)) && !(s.engineBusy 0) &&
    (s.wc.all (fun e => decide (e.team ≠ 0)) && s.reqs.all (fun r => decide (r.team ≠ 0))) && Memory.wf s.mem && s.heldOut.all (fun e => decide (e.team ≠ 0))

theorem lastGroup {s : State} (h : lastB s = true) : LastGroup s 0 0 (team s) (grp s) := by
  simp only [lastB, Bool.and_eq_true, Bool.not_eq_true', decide_eq_true_eq, List.all_eq_true, beq_iff_eq, List.isEmpty_iff] at h
  obtain ⟨⟨⟨⟨⟨⟨⟨⟨a, b⟩, c⟩, d⟩, e⟩, f⟩, g⟩, k⟩, o⟩ := h
  exact ⟨a, ⟨b.1.1, b.1.2, b.2⟩, o, c, ⟨d.1.1, d.1.2, d.2⟩, e, f, g, k⟩

theorem witness_last_group : ∀ s ∈ [end1, end2, end3], Holds s 0 0 (team s) (grp s) (lau s) (img s) ∧ LastGroup s 0 0 (team s) (grp s) := by
  intro s h
  simp only [List.mem_cons, List.mem_nil_iff, or_false] at h
  rcases h with rfl | rfl | rfl <;> exact ⟨holds chk, lastGroup chk⟩
theorem witness_group_ends : ∃ g h, end4.team? 0 = some (team end4) ∧ (team end4).group? 0 = some g ∧ h ∈ (team end4).groups ∧ h.idx ≠ 0 ∧ h.ended = false ∧ (team end4).ended = false ∧ (team end4).killed = false ∧
    (team end4).aborting = none ∧ g.ended = false ∧ g.undo = false ∧ end4.quiet 0 0 = true ∧ g.live = 0 ∧ (∀ c ∈ g.ctrs, c = 0) ∧ (∀ a ∈ g.pend, a.cause ≠ 0x11) ∧ (end4.coreCtx g.core 0).reports = [] ∧ end4.twins = [] :=
  ⟨grp end4, { grp end1 with idx := 1 }, chk, chk, chk, chk, chk, chk, chk, chk, chk,
    chk, chk, chk, chk, chk, chk, chk⟩

theorem test_team_ends : (after (exec (.groupEnd 0 0) end1)).teams = [] ∧ Memory.get (after (exec (.groupEnd 0 0) end1)).mem 0x200 = 7 ∧ (after (exec (.groupEnd 0 0) end1)).held = [] ∧
  (lau (after (exec (.groupEnd 0 0) end1))).hands = [(0, 0xFFFFFFFF, 1)] ∧ ((after (exec (.groupEnd 0 0) end1)).scrubs.map (fun x => (x.core, x.bytes, x.tiles)) = [(0, 69632, 16)]) := by decide +kernel
theorem test_team_stays : (after (exec (.groupEnd 0 0) end2)).held.length = 1 ∧ (after (exec (.groupEnd 0 0) end3)).teams.map (fun t => t.ended) = [true] ∧ (grp (after (exec (.groupEnd 0 0) end4))).ended = true := by
  decide +kernel

/-- The gang of a deterministic launch whose team has ended; a launch all of whose teams have ended, with a COMPL; a fatal one; one with a store report. -/
def gang1 : State := (end2.onTeam 0 (fun t => { t with ended := true })).onLaunch 1 (fun l => { l with ended := [0] })
def comp1 : State := { disp [] [] with launches := [{ loadLaunch 50 with ended := [0], compl := 0x40000200 }] }
def comp2 : State := { disp [] [] with launches := [{ loadLaunch 50 with ended := [0], compl := 0x40000200, fatal := some ⟨4, 1, 0, 0x20, 0x80000000⟩ }] }
def comp3 : State := { disp [] [] with launches := [{ loadLaunch 50 with ended := [0], compl := 0x40000200, report := some ⟨0x11, 1, 0, 0x20, 0x80000000⟩ }] }

theorem witness_retirement : gang1.launch? (lau gang1).uid = some (lau gang1) ∧ gang1.image? (lau gang1).image = some (img gang1) ∧ getAt ((lau gang1).order (img gang1)) (lau gang1).retired [] ≠ [] ∧
    (∀ x ∈ getAt ((lau gang1).order (img gang1)) (lau gang1).retired [], x ∈ (lau gang1).ended) ∧ Plain gang1 ∧ Memory.wf gang1.mem = true ∧ gang1.teams.Pairwise (fun x y => x.uid ≠ y.uid) ∧
    (∀ x ∈ gang1.teams.filter (fun x => x.launch == (lau gang1).uid && x.gang == (lau gang1).retired), x.ended = true) ∧ gang1.heldOut = [] :=
  ⟨chk, chk, chk, chk, plain chk, chk, chk, chk, chk⟩
theorem witness_completion : (∀ s ∈ [comp1, comp2, comp3], ∃ l ∈ s.launches, s.launch? l.uid = some l ∧ l.ended.length = l.teamCount ∧ (∀ x ∈ s.teams, x.launch ≠ l.uid) ∧ (∀ b ∈ s.storeBufs, b.launch ≠ l.uid) ∧ s.twins = [] ∧
      l.compl = 0x40000200) ∧ PartWrites comp1 0 0x40000200 32 0x200 ∧ PartWrites comp2 0 0x40000200 32 0x200 ∧ PartWrites comp3 0 0x40000200 32 0x200 :=
  ⟨chk, writable chk, writable chk, writable chk⟩

theorem test_retirement : Memory.get (after (exec (.gangRetirement 1 0) gang1)).mem 0x200 = 7 ∧ (lau (after (exec (.gangRetirement 1 0) gang1))).retired = 1 ∧
  (after (exec (.lineScrub 7) { end1 with scrubs := [⟨7, 0, 0, 65536, 16⟩] })).scrubs = [] := by decide +kernel
theorem test_completion : Memory.read (after (exec (.launchCompletion 50) comp1)).mem 0x200 16 = [0, 0, 0, 0x80, 0, 0, 0, 0, 0, 0, 0, 0, 1, 0, 0, 0] ∧ (after (exec (.launchCompletion 50) comp1)).launches = [] ∧
  Memory.read (after (exec (.launchCompletion 50) comp2)).mem 0x200 4 = [4, 1, 0, 0xA0] ∧ Memory.read (after (exec (.launchCompletion 50) comp3)).mem 0x200 4 = [0x11, 1, 0, 0x90] := by decide +kernel

/-- A task that has ended, and one that has been aborted with one declared operation, or whose undo runs have all ended. -/
def task3 : State := end3.onTeam 0 (fun t => { t with ended := true })
def abort0 : State := end3.onTeam 0 (fun t => { t with aborting := some 0, errata := [⟨5, 0x1122334455667788, 9, 0⟩], slots := [(0, 0)] })
def abort1 : State := end3.onTeam 0 (fun t => { t with aborting := some 1, errata := [⟨5, 0x1122334455667788, 9, 0⟩] })
def abort2 : State := end3.onTeam 0 (fun t => { t with aborting := some 2 })
def abort3 : State := end3.onTeam 0 (fun t => { t with aborting := some 0 })

theorem witness_task_ends : (∃ s1, task3.launchAll (team task3) false (team task3).heldLaunches = some s1 ∧ s1.launch? 1 = some (lau task3)) ∧ task3.team? 0 = some (team task3) ∧ (team task3).ended = true ∧
    (team task3).aborting = none ∧ (lau task3).oldest = (team task3).tlin ∧ (lau task3).stopped = false := by
  have h : (task3.launchAll (team task3) false (team task3).heldLaunches).any (fun s1 => decide (s1.launch? 1 = some (lau task3))) = true := by decide +kernel
  obtain ⟨s1, a, b⟩ := some_of h
  exact ⟨⟨s1, a, of_decide_eq_true b⟩, chk, chk, chk, chk, chk⟩
theorem witness_undo : (∀ s ∈ [abort0, abort1, abort2, abort3], s.team? 0 = some (team s) ∧ (team s).killed = false ∧ s.twins = [] ∧ (∀ g ∈ (team s).groups, s.quiet 0 g.idx = true) ∧ s.engineBusy 0 = false ∧
      s.launch? (team s).launch = some (lau s) ∧ s.image? (lau s).image = some (img s)) ∧ (team abort0).errata = [⟨5, 0x1122334455667788, 9, 0⟩] ∧ (team abort0).slots = [(0, 0)] ∧ (team abort3).errata = [] ∧
    (team abort1).slots ≠ [] ∧ (∀ g ∈ (team abort1).groups, g.live = 0) ∧ abort1.wc = [] ∧ abort1.reqs = [] ∧ (team abort2).errs = 0 ∧ (team abort2).errCores = [] ∧ (team abort2).afterTask = none ∧ abort0.storeBufs = [] ∧ abort2.storeBufs = [] := by decide +kernel

theorem test_tasks_end : (after (exec (.taskCommit 0) task3)).teams = [] ∧ (lau (after (exec (.taskCommit 0) task3))).oldest = 1 ∧ reg (after (exec (.undoRunEnd 0) abort0)) 0 0 = 0x55667788 ∧
  reg (after (exec (.undoRunEnd 0) abort0)) 0 1 = 0x11223344 ∧ reg (after (exec (.undoRunEnd 0) abort0)) 0 3 = 5 ∧ (team (after (exec (.undoRunEnd 0) abort1))).aborting = some 2 ∧ (team (after (exec (.undoRunEnd 0) abort2))).aborting = none := by
  decide +kernel

/-- A launch whose one team waits at its FACSIM, in a context with a registration and in one without. -/
def cut0 : State := after (exec (.facsim always 4) fac1)
def cut1 : State := cut0.onCtx 0 (fun c => { c with fac := some ⟨[(0, 131072)], 0x40000000, 0x9000, 131072⟩ })
def cut2 : State := after (exec (.facsimCut 1) cut0)
/-- A facsimile that drains its next line: of the manifest, of a region, the parity chunk; one whose lines, or parity, have all gone; one that builds
the parity chunk of a group of two. -/
def fact1 : Facsimile := ⟨0, 3, 9, [(0x40010000, List.replicate 256 5)], [], [], [], 0, 0, 2, false, false, [], 0, 0⟩
def drainAt (f : Facsimile) : State := { cut1 with facs := [f] }
def drain1 : State := drainAt fact1
def drain2 : State := drainAt { fact1 with drained := 16 }
def drain3 : State := drainAt { fact1 with drained := 17, done := true, chunk := 256, parity := List.replicate 256 7 }
def drain4 : State := drainAt { fact1 with drained := 17 }
def drain6 : State := drainAt { fact1 with drained := 18, done := true, chunk := 256, parity := List.replicate 256 7 }
def drain7 : State := drainAt { fact1 with drained := 19, done := true, chunk := 256, parity := List.replicate 256 7 }
def drain5 : State := drainAt { fact1 with drained := 20, done := true, chunk := 256, parity := List.replicate 256 7 }
def par1 : State := drainAt { fact1 with done := true, drained := 17 }
def fac (s : State) : Facsimile := s.facs.headD fact1

theorem witness_cut : (∀ s ∈ [cut0, cut1], (lau s).facWait = some (0, [(0x40010000, 65536)]) ∧ (lau s).facCut = 0 ∧ (lau s).facSent = false ∧ (lau s).repl ≤ 1 ∧ s.twins = [] ∧ (team s).facsim = true ∧
      (s.launch? 1).isSome = true ∧ s.teams.length = 1) ∧ (cut1.facsimileOf (lau cut1) [(0x40010000, 65536)]).isSome = true ∧ cut0.facsimileOf (lau cut0) [(0x40010000, 65536)] = none :=
  ⟨chk, chk, noStop chk⟩
theorem witness_cut_ends : (lau cut2).facCut ≠ 0 ∧ cut2.teams.map (fun t => (t.uid, t.launch, t.groups.length)) = [(0, (lau cut2).uid, 1)] ∧ (grp cut2).wait = .facsim 0x40000100 true ∧ PartWrites cut2 0 (0x40000100 + 4) 4 0x104 :=
  ⟨chk, chk, chk, writable chk⟩
theorem witness_facsimiles : (∀ s ∈ [drain1, drain2, drain3, drain4, drain5, drain6, drain7], s.facs.find? (fun x => x.ctx == 0 && !x.pdone) = some (fac s) ∧ (s.ctx? 0).isSome = true ∧
      (s.ctx? 0).bind (fun c => c.fac) = some ⟨[(0, 131072)], 0x40000000, 0x9000, 131072⟩ ∧ s.spent 1 (s.stackOf 0 0x40000000) = false ∧ s.twins = [] ∧ Memory.wf s.mem = true ∧ ((fac s).regions.map (fun x => x.2)).flatten.length = 256) ∧
    [drain1, drain2, drain3, drain4, drain5, drain6, drain7].map (fun s => ((fac s).drained, (fac s).done, (fac s).chunk)) = [(0, false, 0), (16, false, 0), (17, true, 256), (17, false, 0), (20, true, 256), (18, true, 256), (19, true, 256)] ∧
    (fac drain3).parity.length = 256 ∧ (fac drain5).parity.length = 256 ∧ drain2.spent 1 (drain2.stackOf 0 0) = false := by decide +kernel
theorem witness_parity : par1.facs.find? (fun x => x.ctx == 0 && x.done && !x.pdone) = some (fac par1) ∧ (par1.ctx? 0).isSome = true ∧
    (par1.ctx? 0).bind (fun c => c.fac) = some ⟨[(0, 131072)], 0x40000000, 0x9000, 131072⟩ ∧ (fac par1).ngrp = 2 ∧ (fac par1).member = 0 ∧ par1.spent 2 0 = false ∧ par1.twins = [] ∧
    (fac par1).parity.length < (max 256 2 + 65536 * (2 - 1) - 1) / (65536 * (2 - 1)) * 65536 ∧ ∀ o, (∃ bs, (o, bs) ∈ ([(1, [5, 6])] : List (Nat × List Byte))) ↔ o < 2 ∧ o ≠ 0 := by
  refine ⟨chk, chk, chk, chk, chk, chk, chk, chk, fun o => ?_⟩
  simp only [List.mem_singleton, Prod.mk.injEq]
  exact ⟨fun ⟨bs, h, _⟩ => by omega, fun h => ⟨[5, 6], by omega, rfl⟩⟩

theorem test_facsimile : Memory.read (after (exec (.facsimCopyComplete 1) cut2)).mem 0x104 4 = [1, 0, 0, 0xC0] ∧ (grp (after (exec (.facsimCopyComplete 1) cut2))).wait = .none ∧ (lau (after (exec (.facsimCut 1) cut1))).facCut = 1 := by
  decide +kernel
/-- A line of the region lands 4,096 bytes behind the manifest's start (R388), and the last of them is followed by DONE. -/
theorem test_facsimile_drains : Memory.get (after (exec (.facsimileDrain 0) drain2)).mem (0x9000 + 4096 + 255) = 5 ∧ (fac (after (exec (.facsimileDrain 0) drain2))).drained = 17 ∧
  (fac (after (exec (.facsimileDrain 0) drain4))).done = true ∧ (fac (after (exec (.facsimileDrain 0) drain5))).pdone = true := by decide +kernel
/-- The parity of member 0 of 3 (R389) is chunk 1 of member 1 with chunk 0 of member 2; chunks are whole 65,536 bytes. -/
theorem test_parity : parityOf 2 3 0 [(1, [1, 2, 3, 4]), (2, [5, 6, 7, 8])] = [6, 2] ∧ chunkSize 131073 3 = 131072 ∧ chunkSize 131072 3 = 65536 := by decide +kernel

/-! ### Banks, recalls and sampling -/

/-- The loaded team of context 0 runs on core 0, and context 1 has a launch that is not placed; the second context is in the shadow bank; the first has
been told to leave; it has left. -/
def bank0 : State :=
  let s := mem1 1
  ({ s with cur := none, ctxs := s.ctxs ++ [Ctx.fresh 1 0 0], launches := s.launches ++ [{ loadLaunch 50 with ctx := 1, next := 0, placed := [] }] } : State)
def bank1 : State := (bank0.onCtx 0 (fun c => { c with cxtime := 0x10000, cxpark := 0x80010001, wdogLimit := 9 })).onCore 0 (fun c => { c with shadow := some 1 })
def bank2 : State := bank1.onCoreCtx 0 0 (fun c => { c with ladder := .halt })
def bank3 : State := (bank2.onCoreCtx 0 0 (fun c => { c with saved := true })).onCore 0 (fun c => { c with active := some 1, shadow := none })
def bank4 : State := (bank1.onCtx 0 (fun c => { c with cxtime := 0x10000010000 })).onCoreCtx 0 0 (fun c => { c with ladder := .soft })
/-- Every line of the context has left the core, and no other context is to run there. -/
def bank7 : State := bank3.onCoreCtx 0 0 (fun c => { c with spill := bank3.bankLines 0 0 + bank3.padLines 0 0 })
def bank8 : State := { (bank2.onCore 0 (fun c => { c with shadow := none })) with ctxs := bank2.ctxs.take 1 }
/-- The watchdog's count has reached its limit. -/
def bank9 : State := bank1.onCoreCtx 0 0 (fun c => { c with wdog := 9 })
/-- The group is parked on a page. -/
def bank5 : State := bank1.onGroup 0 0 (fun g => { g with parked := [0xC0010000] })
/-- The context in the shadow bank has been saved, and its team has a slot here. -/
def bank6 : State := ((bank2.onCtx 1 (fun c => { c with base := 0 })).onCoreCtx 0 1 (fun c => { c with saved := true }))

theorem single {s : State} (h : s.images.all (fun m => !m.coop) = true) (ctx : Nat) : Single s ctx := by
  intro l _ _ m e
  have k := List.all_eq_true.mp h m (List.mem_of_find?_eq_some e)
  simpa using k

theorem accepts0 {s : State} {own : Bool} (u : s.up = true) (h : (s.mailbox 0).ctl.getLsbD 30 = false) : Accepts s 0 true own := ⟨⟨by omega, u⟩, h, .inl rfl⟩

theorem witness_restore : (bank0.core 0).shadow = none ∧ bank0.nextContext 0 = some 1 := by decide +kernel
theorem witness_banks : ((bank1.core 0).active = some 0 ∧ Single bank1 0 ∧ (bank1.ctx? 0).any (fun c => decide (c.cxtime.extractLsb' 16 8 ≠ 0 ∧ c.cxtime.extractLsb' 40 16 = 0 ∧ c.wdogLimit ≠ 0)) = true ∧
      (bank1.core 0).shadow.isSome = true ∧ (bank1.coreCtx 0 0).ladder = .run ∧ (∃ tm ∈ bank1.teams, tm.ctx = 0 ∧ ∃ y ∈ tm.slots, y.1 = 0) ∧ Accepts bank1 0 true true ∧ bank1.twins = []) ∧
    ((bank4.core 0).active = some 0 ∧ (bank4.coreCtx 0 0).ladder = .soft ∧ (bank4.ctx? 0).any (fun c => decide (c.cxtime.extractLsb' 40 16 ≠ 0)) = true) ∧
    ((bank5.core 0).active = some 0 ∧ (bank5.ctx? 0).any (fun c => decide (c.cxpark.getLsbD 31 = true ∧ c.cxpark.extractLsb' 16 8 ≠ 0 ∧ c.cxpark.extractLsb' 0 16 ≠ 0)) = true ∧
      (let gs := ((bank5.teams.filter (fun t => t.ctx == 0 && !t.ended)).map (fun t => (t.groups.filter (fun g => g.core == 0 && !g.ended)).map (fun g => (t, g)))).flatten
       gs ≠ [] ∧ 1 * gs.length ≤ 256 * (gs.filter (fun x => bank5.isParked x.1 x.2)).length)) :=
  ⟨⟨chk, single chk 0, chk, chk, chk, chk, accepts0 chk chk, chk⟩,
    ⟨chk, chk, chk⟩, chk, chk, chk⟩
theorem witness_spill : (bank2.coreCtx 0 0).ladder = .halt ∧ (bank3.coreCtx 0 0).ladder = .halt ∧ (bank3.coreCtx 0 0).saved = true ∧ (bank3.core 0).active ≠ some 0 ∧ bank3.spillHeld 0 0 = false ∧
    (bank3.coreCtx 0 0).spill < bank3.bankLines 0 0 + bank3.padLines 0 0 ∧ (bank7.coreCtx 0 0).ladder = .halt ∧ (bank7.coreCtx 0 0).saved = true ∧ (bank7.core 0).active ≠ some 0 ∧ bank7.spillHeld 0 0 = false ∧
    bank7.bankLines 0 0 + bank7.padLines 0 0 ≤ (bank7.coreCtx 0 0).spill ∧ (bank7.spillCopies 0 0).isSome = true ∧ bank2.twins = [] := by decide +kernel
theorem witness_watchdog : (9 : Dword) ≤ (bank9.coreCtx 0 0).wdog ∧ (bank9.core 0).active = some 0 ∧ (bank9.ctx? 0).any (fun c => decide (c.wdogLimit = 9)) = true ∧ bank9.twins = [] ∧ (bank1.coreCtx 0 0).wdog < (9 : Dword) := by decide +kernel
theorem witness_no_next : (bank8.core 0).shadow = none ∧ bank8.nextContext 0 = none ∧ (bank8.core 0).active = some 0 ∧ (bank8.coreCtx 0 0).ladder = .halt ∧ bank8.chainOn 0 0 = false ∧ bank8.twinOf? 0 = none := by decide +kernel
theorem witness_swap : (bank2.core 0).shadow = some 1 ∧ Single bank2 1 ∧ (∀ e ∈ bank2.wc, ¬ (e.ctx = 0 ∧ e.core = 0)) ∧ (bank2.core 0).active = some 0 ∧ (bank2.coreCtx 0 0).ladder = .halt ∧ bank2.chainOn 0 0 = false ∧
    (bank6.core 0).shadow = some 1 ∧ (bank6.coreCtx 0 1).saved = true ∧ bank2.twinOf? 0 = none :=
  ⟨chk, single chk 1, chk, chk, chk, chk, chk, chk, chk⟩

theorem test_banks : ((after (exec (.restoreComplete 0) bank0)).core 0).shadow = some 1 ∧ ((after (exec (.quantumExpiry 0 0) bank1)).coreCtx 0 0).ladder = .halt ∧
  ((after (exec (.quantumExpiry 0 0) (bank1.onCtx 0 (fun c => { c with cxtime := 0x10000010000 })))).coreCtx 0 0).ladder = .soft ∧ ((after (exec (.graceTimerExpiry 0 0) bank4)).coreCtx 0 0).ladder = .halt ∧
  ((after (exec (.parkRule 0) bank5)).coreCtx 0 0).ladder = .halt ∧ ((after (exec (.preemptRequest 0 0 [0]) bank1)).coreCtx 0 0).ladder = .halt := by decide +kernel
theorem test_swap : ((after (exec (.swap 0) bank2)).core 0).active = some 1 ∧ ((after (exec (.swap 0) bank2)).coreCtx 0 0).saved = true ∧ ((after (exec (.spillComplete 0 0) bank7)).coreCtx 0 0).ladder = .out ∧
  ((after (exec (.spillLine 0 0) bank3)).coreCtx 0 0).spill = 1 ∧ ((after (exec (.swap 0) bank8)).core 0).active = none := by decide +kernel
theorem test_kills : (lau (after (exec (.watchdog 0 0) bank9))).fatal = some ⟨0x10, 0, 0, 0, 9⟩ ∧ (lau (after (exec (.killTimerExpiry 0 0) bank2))).again = [⟨0, 0, []⟩] ∧ (after (exec (.killTimerExpiry 0 0) bank2)).teams = [] := by
  decide +kernel

/-- Queue 0 of context 0 has the running launch; a recall of context 0 in which it is to run, with and without discarding. -/
def recall0 : State := { bank1 with queues := [⟨0, 0, false, 0, [0], 0, [], 1, [], none⟩] }
def recall1 (noDiscard : Bool) : State := { recall0 with recalls := [⟨1, 1000, noDiscard, [(0, 0)], false⟩] }

theorem witness_recall : Accepts recall0 0 true true ∧ recall0.twins = [] ∧ (recall0.queues.any (fun q => (1 : Dword).getLsbD q.ctx)) = true ∧ recall0.launches.any (fun l => decide (l.queue = 0 ∧ l.ctx = 0)) = true ∧
    (∀ b, (recall1 b).recallOf 0 = some ⟨1, 1000, b, [(0, 0)], false⟩) ∧ (⟨1, 1000, false, [(0, 0)], false⟩ : RecallSt).action 0 = 0 ∧ (team (recall1 true)).launch = (lau (recall1 true)).uid ∧
    (team (recall1 true)).ended = false ∧ (recall1 true).stopAction ⟨0, 0, false, 0, [0], 0, [], 1, [], none⟩ true = 1 ∧ Accepts (recall1 true) 0 true true ∧
    (recall1 true).teams.Pairwise (fun x y => x.uid ≠ y.uid) ∧ ∀ q ∈ (recall1 true).queues, ∀ w ∈ q.barrier, w.go = none :=
  ⟨accepts0 chk chk, chk, chk, chk, fun b => by cases b <;> decide +kernel, chk, chk, chk, chk,
    accepts0 chk chk, chk, chk⟩

theorem test_recall : (after (exec (.recall 0 2 1000 true) bank1)).recalls.map (fun r => (r.mask, r.due, r.noDiscard)) = [(2, 1000, true)] ∧ ((after (exec (.recallSwitchTime 0) (recall1 true))).coreCtx 0 0).ladder = .halt ∧
  (after (exec (.recallDue 1) (recall1 true))).teams = [] ∧ (after (exec (.recallLift 0 1) (recall1 true))).recalls = [] := by decide +kernel

/-- A core whose sampling unit is on, with a buffer of 4 records at 0x10000. -/
def samp0 : State := bank0.onCore 0 (fun c => { c with smpctl := 0x80000100, smpbuf := 0x10004 })
def samp1 : State := samp0.onGroup 0 0 (fun g => { g with susp := true })
def samp2 : State := samp0.onCore 0 (fun c => { c with smpctl := 0xC0000100 })
def samp3 : State := samp0.onCore 0 (fun c => { c with active := none })

theorem witness_samples : (∀ s ∈ [samp0, samp1, samp2, samp3], s.up = true ∧ (s.core 0).smpctl.getLsbD 31 = true ∧ 16 ≤ ((s.core 0).smpctl.extractLsb' 0 16).toNat) ∧ samp3.sampled 0 = none ∧
    (samp0.sampled 0).any (fun x => !x.2.2.susp) = true ∧ (samp0.core 0).smpctl.getLsbD 30 = false ∧ (samp0.core 0).smpbuf.extractLsb' 0 12 ≠ 0 ∧ Memory.wf samp0.mem = true ∧ samp0.twins = [] ∧
    (samp1.sampled 0).any (fun x => x.2.2.susp) = true ∧ (samp2.sampled 0).any (fun x => !x.2.2.susp) = true ∧ (samp2.core 0).smpctl.getLsbD 30 = true := by decide +kernel
theorem witness_host_registers : (bank0.ctx? 0).isSome = true ∧ (bank0.mailbox 0).arg.length = 256 ∧ (bank0.mailbox 0).ctl.getLsbD 30 = false ∧
    ((({ bank0 with mailboxes := [⟨0, 0x40000000, List.replicate 256 0, List.replicate 256 0⟩] } : State).mailbox 0).ctl.getLsbD 30) = true := by decide +kernel

theorem test_sampling : ((after (exec (.stallSample 0) samp0)).core 0).smpctl = 0x80010100 ∧ ((after (exec (.stallSample 0) samp2)).core 0).smpdrop = 1 ∧ ((after (exec (.stallSample 0) samp1)).core 0).smpK = 1 ∧
  ((after (exec (.smpctlWrite 0 0x80000200) samp2)).core 0).smpctl = 0x80000200 := by decide +kernel
theorem test_host_registers : ((after (exec (.hostRegisterWrite 0 0x32 0x20005) bank0)).core 0).smpbuf = 0x20005 ∧ ((after (exec (.hostRegisterWrite 0 0x38 77) bank0)).coreCtx 0 0).wdog = 77 ∧
  (after (exec (.budgetPeriod 3) { bank0 with bguse := [(5, 3, 8), (5, 4, 2)] })).bguseOf 5 3 = 0 ∧ (after (exec (.budgetPeriod 3) { bank0 with bguse := [(5, 3, 8), (5, 4, 2)] })).bguseOf 5 4 = 2 := by decide +kernel

/-! ### Twins and memory management -/

/-- The loaded team of context 0, whose group waits on a claim; twins are enabled, or not. -/
def claim0 : State := (bank0.onCtx 0 (fun c => { c with claims := [⟨0, 0, 0x15, 4, 3, 7⟩] })).onGroup 0 0 (fun g => { g with wait := .claim })
def claim1 : State := { claim0.onCtx 0 (fun c => { c with twinctl := 0x80000001 }) with nextId := 100, launches := [loadLaunch 1] }
/-- The twin of context 0 that all cores and homes but some have cut, or all. -/
def twinW (state : TwinState) (cores homes : List Nat) : Twin := ⟨0, 5, state, 0x15, 4, 3, 7, cores, homes, [], [], [], [], [], [], false, none, []⟩
def cutting (cores homes : List Nat) : State :=
  { claim1 with twins := [twinW .cutting cores homes], ctxs := claim1.ctxs ++ [{ Ctx.fresh 5 0 0x1000 with twinOf := some 0 }] }
/-- The twin, frozen or in another state, with its own copy of the team and the launch, and with the quarantined packets. -/
def twin0 (state : TwinState) (ps : List Packet) (step : Option (Nat × Nat × Nat)) : State :=
  let s := cutting [] []
  { s with
    twins := [{ twinW state (List.range 320) (List.range 8) with quarantine := ps, teams := [(0, 60)], launches := [(1, 61)], step := step }]
    teams := s.teams ++ [{ (team s) with uid := 60, ctx := 5, launch := 61, groups := (team s).groups.map (fun g => { g with wait := .none }) }]
    launches := s.launches ++ [{ lau s with uid := 61, ctx := 5 }] }
/-- The rival that has nothing left. -/
def twin1 : State := { cutting [] [] with twins := [twinW .rival [] []] }

theorem no_chain {s : State} (h : s.teams.all (fun t => t.groups.all (fun g => g.chain.isNone)) = true) (c n : Nat) : s.chainOn c n = false := by
  simp only [State.chainOn, List.any_eq_false, Bool.and_eq_true, beq_iff_eq, not_and]
  intro t ht _ hg
  obtain ⟨g, a, b⟩ := List.any_eq_true.mp hg
  have k := List.all_eq_true.mp (List.all_eq_true.mp h t ht) g a
  cases e : g.chain <;> simp_all

theorem not_active {s : State} {c : Nat} (h : s.cores.all (fun x => decide (x.active ≠ some c)) = true) (n : Nat) : (s.core n).active ≠ some c := by
  unfold State.core
  cases e : s.cores.find? (fun x => x.core == n) with
  | none => exact nofun
  | some x => exact of_decide_eq_true (List.all_eq_true.mp h x (List.mem_of_find?_eq_some e))

theorem witness_claim : (∃ c k, claim0.ctx? 0 = some c ∧ c.claims = k :: [] ∧ c.twinOn = false ∧ (∃ g, claim0.group? k.team k.grp = some g ∧ g.wait = .claim) ∧
      (∀ d ∈ claim0.ctxs, d.num ≠ 0 → ∀ j ∈ d.claims, j.team ≠ k.team)) ∧
    ∃ c k, claim1.ctx? 0 = some c ∧ c.claims = k :: [] ∧ c.twinOn = true ∧ claim1.twins = [] ∧ claim1.freeCtxs ≠ [] ∧ (∃ g, claim1.group? k.team k.grp = some g) ∧ claim1.wc = [] ∧ claim1.works = [] ∧
      (∀ x ∈ claim1.teams, x.uid < claim1.nextId ∧ x.launch < claim1.nextId) ∧ claim1.teams.Pairwise (fun x y => x.uid ≠ y.uid) ∧ (∀ x ∈ claim1.teams, (claim1.launch? x.launch).isSome = true) ∧
      ∀ x ∈ claim1.teams, x.ctx = 0 → ∀ h ∈ x.groups, h.chain = none := by
  constructor
  · cases e : claim0.ctx? 0 with
    | none => exact absurd e chk
    | some c =>
      have h : (claim0.ctx? 0).any (fun c => decide (c.claims = [⟨0, 0, 0x15, 4, 3, 7⟩] ∧ c.twinOn = false)) = true := by decide +kernel
      rw [e] at h
      have h := of_decide_eq_true h
      exact ⟨c, _, rfl, h.1, h.2, ⟨grp claim0, chk, chk⟩, chk⟩
  · cases e : claim1.ctx? 0 with
    | none => exact absurd e chk
    | some c =>
      have h : (claim1.ctx? 0).any (fun c => decide (c.claims = [⟨0, 0, 0x15, 4, 3, 7⟩] ∧ c.twinOn = true)) = true := by decide +kernel
      rw [e] at h
      have h := of_decide_eq_true h
      exact ⟨c, _, rfl, h.1, h.2, chk, chk, ⟨grp claim1, chk⟩, chk, chk, chk, chk, chk, chk⟩

theorem witness_cutting : ∀ p ∈ [(([] : List Nat), ([] : List Nat)), (List.range 320, List.range 8)], let s := cutting p.1 p.2; let w := twinW .cutting p.1 p.2
    (s.ctx? 0).isSome = true ∧ s.twinOf? 0 = some w ∧ s.twinNum? w.num = some w ∧ s.twins = [w] ∧ w.state = .cutting ∧ w.snap = [] ∧ s.wc = [] ∧ s.works = [] ∧
    (∀ x ∈ s.teams, x.ctx = 0 → x.pair = false ∧ ∀ h ∈ x.groups, h.chain = none) ∧ (∀ x ∈ s.teams, x.uid < s.nextId ∧ x.launch < s.nextId) ∧ s.teams.Pairwise (fun x y => x.uid ≠ y.uid) ∧
    (∀ x ∈ s.teams, (s.launch? x.launch).isSome = true) ∧ w.teams = [] := by decide +kernel
theorem witness_cut_places : (3 ∉ (twinW .cutting [] []).cutHomes ∧ 0 ∉ (twinW .cutting [] []).cutCores) ∧ (∀ n, n < 320 → n ∈ (twinW .cutting (List.range 320) (List.range 8)).cutCores) ∧
    ∀ n, n < 8 → n ∈ (twinW .cutting (List.range 320) (List.range 8)).cutHomes := by
  refine ⟨by decide, fun n h => ?_, fun n h => ?_⟩ <;> simpa [twinW] using h

theorem witness_step_done : (∃ w, (twin0 .stepping [] (some (60, 0, 0))).twins = [w] ∧ (twin0 .stepping [] (some (60, 0, 0))).twinOf? 0 = some w ∧ w.num = 5 ∧ w.state = .stepping ∧ w.step = some (60, 0, 0)) ∧
    (twin0 .stepping [] (some (60, 0, 0))).working 5 = false ∧ (∀ n, (twin0 .stepping [] (some (60, 0, 0))).chainOn 5 n = false) ∧ ∀ n, ((twin0 .stepping [] (some (60, 0, 0))).core n).active ≠ some 5 :=
  ⟨⟨_, rfl, chk, rfl, rfl, rfl⟩, chk, no_chain chk 5, not_active chk⟩
theorem witness_rival : twin1.twinOf? 0 = some (twinW .rival [] []) ∧ (∀ x ∈ twin1.teams, x.ctx ≠ 5) ∧ ∀ x ∈ twin1.launches, x.ctx ≠ 5 := by decide +kernel

/-- What a host command about context 0 needs of a state. -/
def cmdB (s : State) : Bool := s.up && !((s.mailbox 0).ctl.getLsbD 30)
theorem accepts {s : State} {v own : Bool} (h : cmdB s = true) : Accepts s 0 v own := by
  simp only [cmdB, Bool.and_eq_true, Bool.not_eq_true'] at h
  exact ⟨⟨by omega, h.1⟩, h.2, .inl rfl⟩

theorem witness_twin_commands : Accepts (twin0 .rival [] none) 0 true ((twin0 .rival [] none).ownCtx 0 0) ∧ (let s := twin0 .frozen [] none; ∃ w tm g l m, Accepts s 0 true (s.ownCtx 0 0) ∧ s.twins = [w] ∧
      s.twinOf? 0 = some w ∧ s.twinNum? w.num = some w ∧ w.state = .frozen ∧ (∀ p ∈ w.quarantine, p.kind ≠ 0xE0 ∧ p.kind ≠ 0xE1 ∧ p.kind ≠ 0x09) ∧ TwinTargeted s w 60 0 3 tm g l m ∧ g.ended = false ∧
      (20 : Nat) < m.regs ∧ m.regs ≤ 127 ∧ 0 + 4 ≤ m.scratch ∧ s.twinBytes w 0x40000100 4 = some 0x100) := by
  refine ⟨accepts chk, { twinW .frozen (List.range 320) (List.range 8) with teams := [(0, 60)], launches := [(1, 61)] },
    ((twin0 .frozen [] none).team? 60).getD (team claim1), ((twin0 .frozen [] none).group? 60 0).getD (grp claim1), ((twin0 .frozen [] none).launch? 61).getD (loadLaunch 61), img claim1,
    accepts chk, rfl, chk, chk, rfl, nofun, ⟨⟨chk, chk, chk, chk⟩, ⟨chk, chk, chk⟩,
      chk, by decide⟩, chk, chk, chk, chk, chk⟩

theorem test_claim_missed : ((after (exec (.twinClaim 0) claim0)).ctx? 0).map (fun c => (c.missed, c.claims)) = some (1, []) ∧ (grp (after (exec (.twinClaim 0) claim0))).wait = .none := by decide +kernel
theorem test_cut : (after (exec (.cut 0 0) (cutting [] []))).twins.map (fun w => (w.cutCores, w.teams)) = [([1, 0], [(0, 100)])] ∧
  (after (exec (.cutMarker 0 true 3) (cutting [] []))).twins.map (fun w => w.cutHomes) = [[3]] := by decide +kernel
theorem test_cut_complete : (fun t : State => decide (t.twins.map (fun w => w.state) = [.frozen] ∧ t.out = [.cut 0])) (after (exec (.cutComplete 0) (cutting (List.range 320) (List.range 8)))) = true := by decide +kernel
theorem test_twin_ends : (after (exec (.stepDone 0) (twin0 .stepping [] (some (60, 0, 0))))).twins.map (fun w => (w.state, w.step)) = [(.frozen, none)] ∧ (after (exec (.rivalEnd 5) twin1)).twins = [] ∧
  ((after (exec (.rivalEnd 5) twin1)).ctx? 5).isNone = true := by decide +kernel
theorem test_twin_state_commands : (after (exec (.twinStep 0 0 60 0 7) (twin0 .frozen [] none))).twins.map (fun w => (w.state, w.step)) = [(.stepping, some (60, 0, 7))] ∧
  (after (exec (.twinResume 0 0) (twin0 .frozen [] none))).twins.map (fun w => w.state) = [.rival] ∧ (after (exec (.twinDiscard 0 0) (twin0 .frozen [] none))).teams.map (fun t => t.uid) = [0] := by decide +kernel
theorem test_twin_release : (after (exec (.twinRelease 0 0) (twin0 .frozen [{ kind := 2 }, { kind := 1 }] none))).out.take 2 = [.packet { kind := 1 }, .packet { kind := 2 }] ∧
  ((after (exec (.twinRelease 0 0) (twin0 .rival [] none))).mailbox 0).ctl = 0x0001000C := by decide +kernel
theorem test_twin_edit : ((((after (exec (.twinEdit 0 0 (.reg 60 0 3 20) [1, 2, 3, 4]) (twin0 .frozen [] none))).group? 60 0).map (fun g => (g.lane 3).reg 20)) = some 0x04030201) ∧
  (((after (exec (.twinEdit 0 0 (.special 60 0 0 0x1A) [1]) (twin0 .frozen [] none))).mailbox 0).ctl.extractLsb' 16 8 = 1) := by decide +kernel
theorem test_tread : ((after (exec (.tread 0 0 (.reg 60 0 0 4)) (twin0 .frozen [] none))).mailbox 0).res.take 4 = [0, 1, 0, 0x40] ∧
  ((after (exec (.tread 0 0 (.bytes 0x40000100 4)) (twin0 .frozen [] none))).mailbox 0).res.take 4 = [1, 2, 3, 0x84] := by decide +kernel

/-- The group is parked on the page at 0xC0010000, which the host's fault queue has. -/
def park1 : State := { bank0.onGroup 0 0 (fun g => { g with parked := [0xC0010000] }) with faultq := [⟨0, 0xC0010000, 1⟩] }
/-- A page of 65,536 bytes moves from physical 0 to 0x40000000; a held line of it. -/
def moving (st : MigState) (dirty : List Nat) : State :=
  { bank0 with migrations := [⟨9, 0, 0x40000000, 0, 0x40000000, 65536, st, dirty, 0, []⟩], held := [⟨0, 2, [(0x200, 7)], 0, .way⟩] }
/-- Frames of an area are to be scrubbed. -/
def scrub2 : State := { bank0 with scrubAreas := [(0, 2), (3, 1)] }
/-- Frame 3 of stack 0 is to be scrubbed; it holds a byte and a poisoned granule. -/
def scrub1 : State := { bank0 with frames := [(3, .scrub)], mem := Memory.write bank0.mem 0x30005 [7], poison := [0x30000 / 32] }

theorem witness_fill : park1.twins = [] ∧ Memory.wf park1.mem = true ∧ (park1.ctx? 0).isSome = true ∧ (∃ r ∈ park1.faultq, r.ctx = 0 ∧ r.page = 0xC0012345 % 2 ^ 64 / 65536 * 65536) ∧ park1.copies = [] ∧ park1.migrations = [] ∧
    (park1.ctx? 0).bind (fun c => walkEntry park1.mem 0xC0012345 c.base walkLevels) = some (0x1018, 2 ^ 30) := by decide +kernel
theorem witness_invalidate : (∀ a ∈ bank0.accesses, bank0.ctxOf a.team ≠ 0) ∧ (∀ e ∈ bank0.wc, e.ctx ≠ 0) ∧ (∀ r ∈ bank0.reqs, r.pkt.ctx ≠ 0) ∧ bank0.copies = [] ∧ bank0.colls = [] := by decide +kernel
theorem witness_migrate : Accepts bank0 0 true (bank0.ownCtx 0 0) ∧ (bank0.ctx? 0).any (fun c => decide (walk bank0.mem 0x40000000 c.base walkLevels = .leaf 0x1B (2 ^ 30))) = true ∧
    ((0x1B : Dword).extractLsb' 52 12).toNat = bank0.part ∧ entryAddr 0x1B < Config.hostBase ∧ 0x40000000 % 2 ^ 30 = 0 ∧ 0x40000000 < Config.hostBase ∧
    (bank0.sliceStacks 0).getLsbD (0x40000000 / 2 ^ 36) = true ∧ entryAddr 0x1B ≠ 0x40000000 ∧ (0x1B : Dword).getLsbD 6 = false ∧ (0x1B : Dword).getLsbD 7 = false ∧ bank0.migrations = [] :=
  ⟨accepts chk, chk, chk, chk, by decide, by decide, chk, chk, by decide, by decide, chk⟩
theorem of_few {l : List α} {p : α → Bool} (h : l.length ≤ 1) : (l.filter p).length ≤ 1 := Nat.le_trans (List.length_filter_le _ _) h
theorem sum_few (l : List Nat) (f : Nat → Nat) (h : ∀ n, f n ≤ 1) : sumOf (l.map f) ≤ l.length := by
  induction l with
  | nil => simp [sumOf]
  | cons a l ih => simp only [List.map_cons, sumOf, List.length_cons]; have := h a; omega
/-- One held copy has a way, whichever set it falls in. -/
theorem ways_few {s : State} {n line : Nat} (h : s.heldCopies.length ≤ 1) (w : s.sliceWays n (homeDie (line * 256)) = 16) : s.waysHold n line = true := by
  have a : ∀ k, ((s.copiesIn line).filter (fun h => s.sliceOf h.2.1 == k)).length ≤ 1 := fun k => of_few (of_few h)
  have b := sum_few ((List.range 8).filter (fun k => k != n)) (fun k => ((s.copiesIn line).filter (fun h => s.sliceOf h.2.1 == k)).length - s.sliceWays k (homeDie (line * 256)))
    (fun k => Nat.le_trans (Nat.sub_le _ _) (a k))
  have c : ((List.range 8).filter (fun k => k != n)).length ≤ 8 := List.length_filter_le _ _
  have d := a n
  simp only [State.waysHold, State.waysUsed, State.heldBound, w, decide_eq_true_eq]
  omega
theorem witness_ways : ∀ h ∈ ((moving .freeze []).movePage ⟨9, 0, 0x40000000, 0, 0x40000000, 65536, .freeze, [], 0, []⟩).held,
    ((moving .freeze []).movePage ⟨9, 0, 0x40000000, 0, 0x40000000, 65536, .freeze, [], 0, []⟩).waysHold
      (((moving .freeze []).movePage ⟨9, 0, 0x40000000, 0, 0x40000000, 65536, .freeze, [], 0, []⟩).sliceOf h.ctx) h.line = true := by
  have e : ((moving .freeze []).movePage ⟨9, 0, 0x40000000, 0, 0x40000000, 65536, .freeze, [], 0, []⟩).held = [⟨0, 0x400002, [(0x40000200, 7)], 0, .way⟩] := by decide +kernel
  intro h m
  rw [e, List.mem_singleton] at m
  subst m
  exact ways_few (by decide +kernel) (by decide +kernel)
theorem witness_migration : (∀ st ∈ [MigState.copy, .freeze, .drain], let s := moving st []; let m : Migration := ⟨9, 0, 0x40000000, 0, 0x40000000, 65536, st, [], 0, []⟩
      s.twins = [] ∧ Memory.wf s.mem = true ∧ s.mig? m.id = some m ∧ s.migrations = [m] ∧ m.dirty.length ≤ 2048 ∧ m.queued = []) ∧
    2048 < (List.range 3000).length ∧ (let s := moving .freeze []; (s.ctx? 0).bind (fun c => walkEntry s.mem 0x40000000 c.base walkLevels) = some (0x1008, 2 ^ 30)) ∧ 0x1008 + 8 ≤ 0x40000000 ∧
    0 + 65536 ≤ 0x40000000 ∧ 0x40000000 % 256 = 0 ∧ 65536 % 256 = 0 ∧ ∃ h ∈ (moving .freeze []).held, 0 ≤ h.line * 256 ∧ h.line * 256 < 0 + 65536 := by
  refine ⟨chk, by simp, chk, by decide, by decide, by decide, by decide, chk⟩
theorem witness_host_accesses : bank0.migrations = [] ∧ 0x100 % 256 + 4 ≤ 256 ∧ 0x100 < Config.hostBase ∧ bank0.meter? 0x100 = none ∧ bank0.marks = [] ∧
    (({ bank0 with meters := [⟨1, 0, 1, [], 0, 0, [], false, []⟩] } : State).meter? 0x100).isSome = true := ⟨chk, by decide, by decide, noStop chk, chk, chk⟩
theorem witness_scrub : scrub1.twins = [] ∧ Memory.wf scrub1.mem = true ∧ scrub1.frames.find? (fun x => x.1 / 2 ^ 20 == 0 && x.2 == .scrub) = some (3, .scrub) ∧ scrub1.spent 0 0 = false ∧ scrub1.stalls = [] ∧
    (∀ x ∈ scrub2.frames, x.1 / 2 ^ 20 = 0 → x.2 ≠ .scrub) ∧ scrub2.scrubAreas = [(0, 2), (3, 1)] ∧ scrub2.spent 0 0 = false ∧ scrub2.stalls = [] ∧ scrub2.twins = [] ∧ Memory.wf scrub2.mem = true := by
  decide +kernel

theorem test_faults : Memory.read (after (exec (.faultFill 0 0xC0012345 0x8000001B) park1)).mem 0x1018 8 = leBytes 8 0x8000001B ∧ (grp (after (exec (.faultFill 0 0xC0012345 0x8000001B) park1))).parked = [] ∧
  (grp (after (exec (.faultRefusal 0 0xC0012345) park1))).refused = [0xC0010000] ∧ (after (exec (.faultRefusal 0 0xC0012345) park1)).faultq = [] := by decide +kernel
theorem test_invalidate : (after (exec (.hostInvalidate 0 0x40000000) bank0)).out = [.invalidated 0 0x40000000] := by decide +kernel
/-- An invalidation that an old request still holds back is not lost: the step keeps it until the answer has come. -/
theorem test_invalidate_waits : (let s : State := { bank0 with
      ctxs := [Ctx.fresh 0 0 0], inbox := [.event (.hostInvalidate 0 0x40000000)]
      reqs := [⟨92, true, 0, 0, { kind := 2 }, some (1, 0), none, none, 1, false, false, 0, 0, 0⟩] }
    (after (step s)).due.contains (.hostInvalidate 0 0x40000000) && (after (step s)).out.isEmpty) = true := by decide +kernel
theorem test_migrate : (after (exec (.pageMigrate 0 0 0x40000000 0x80000000) bank0)).migrations.map (fun m => (m.oldPa, m.newPa, m.bytes)) = [(0, 0x80000000, 0x40000000)] ∧
  (after (exec (.migrationCopyEnd 9) (moving .copy (List.replicate 2049 0)))).migrations.map (fun m => (m.state, m.passes)) = [(.copy, 1)] ∧
  (after (exec (.migrationCopyEnd 9) (moving .copy [4]))).migrations.map (fun m => m.state) = [.freeze] := by decide +kernel
theorem test_migration : Memory.read (after (exec (.migrationFreezeEnd 9) { moving .freeze [] with held := [] })).mem 0x40000100 4 = [1, 2, 3, 0x84] ∧
  Memory.read (after (exec (.migrationFreezeEnd 9) { moving .freeze [] with held := [] })).mem 0x1008 8 = leBytes 8 0x4000001B ∧
  ((moving .freeze []).movePage ⟨9, 0, 0x40000000, 0, 0x40000000, 65536, .freeze, [], 0, []⟩).held.map (fun h => h.line) = [0x400002] ∧ (after (exec (.migrationDrainEnd 9) (moving .drain []))).migrations = [] := by decide +kernel
theorem test_host_memory : (after (exec (.cxlMemRead 0x101 3) bank0)).out = [.hostRead 0x101 (some [2, 3, 0x84])] ∧ Memory.read (after (exec (.cxlMemWrite 0x102 [9, 8]) bank0)).mem 0x101 4 = [2, 9, 8, 5] := by decide +kernel
theorem test_scrub : Memory.get (after (exec (.frameScrub 0) scrub1)).mem 0x30005 = 0 ∧ (after (exec (.frameScrub 0) scrub1)).poison = [] ∧ (after (exec (.frameScrub 0) scrub1)).frames = [] ∧ (after (exec (.frameScrub 0) scrub1)).bguseOf 0 0 = 256 ∧
    (after (exec (.frameScrub 0) scrub2)).scrubAreas = [(0, 1), (3, 1)] := by
  decide +kernel

/-! ### Host commands -/

/-- A context with no work, and sixteen that reserve every frame of the stacks. -/
def idle1 : State := { bank0 with ctxs := bank0.ctxs ++ [Ctx.fresh 7 0 0] }
def full1 : State := { bank0 with ctxs := bank0.ctxs ++ (List.range 16).map (fun k => { Ctx.fresh (k + 8) 0 0 with twinctl := 0x80001000 }) }
/-- An image at 0x40020000: one pool word that a relocation gives the low half of the data base plus 0x10, one word of code, four bytes of data. -/
def imgHeader : List Byte := loadHeader.take 0x44 ++ leBytes 4 1 ++ leBytes 4 1 ++ leBytes 4 1 ++ leBytes 4 4 ++ List.replicate 44 0
def image1 : State := { bank0 with mem := Memory.write bank0.mem 0x20000 (imgHeader ++ leBytes 4 0x11111111 ++ leBytes 8 0x10 ++ leBytes 4 0x12345678 ++ [9, 8, 7, 6]) }

theorem witness_guard : bank0.up = true ∧ (bank0.mailbox 1).ctl.getLsbD 30 = false ∧ (({ bank0 with mailboxes := [⟨1, 0x40000000, List.replicate 256 0, List.replicate 256 0⟩] } : State).mailbox 1).ctl.getLsbD 30 = true ∧
    bank0.ownCtx 3 0 = false ∧ ({ bank0 with frames := [(3, .taken 0)] } : State).frames.find? (fun x => x.1 == 3) = some (3, .taken 0) := by decide +kernel
theorem witness_contexts : (∀ v own, Accepts idle1 0 v own) ∧ (idle1.ctx? 9).isNone = true ∧ idle1.startMode ≠ 1 ∧ (idle1.ctx? 7).isSome = true ∧ (∀ x ∈ idle1.teams, x.ctx ≠ 7) ∧ (∀ q ∈ idle1.queues, q.ctx ≠ 7) ∧ idle1.stalls = [] ∧
    (idle1.twinOf? 7).isNone = true ∧ (idle1.twinNum? 7).isNone = true ∧ (idle1.ctx? 0).isSome = true ∧ (∃ x ∈ idle1.teams, x.ctx = 0) ∧ idle1.part = 0 ∧ [0, 5].eraseDups = [0, 5] ∧ (idle1.queue? 3).isNone = true ∧
    (recall0.queue? 0).isSome = true :=
  ⟨fun _ _ => accepts chk, chk, chk, chk, chk, chk, chk, chk, chk, chk,
    chk, chk, chk, chk, chk⟩
theorem witness_image : (∀ l ∈ image1.launches, l.image ≠ 0x40020000) ∧ image1.vaBytes 0 2 0x40020000 128 = (some imgHeader, []) ∧ imageSize imgHeader = 148 ∧ (image1.vaBytes 0 2 0x40020000 148).2 = [] ∧ ((image1.vaBytes 0 2 0x40020000 148).1.any (fun bs => decide (bs.take 128 = imgHeader ∧ bs.length = 148))) = true ∧
    (image1.images.filter (fun m => m.addr != 0x40020000)).length < 4096 ∧ sumOf ((image1.images.filter (fun m => m.addr != 0x40020000)).map (fun m => imageSize m.header)) + 148 ≤ 2 ^ 31 ∧
    (image1.placeBytes 0 .write 2 0x40030000 [9, 8, 7, 6]).any (fun x => decide (x.2 = some true)) = true ∧ ((image1.vaBytes 0 2 0x80000000 128).1).isNone = true := by decide +kernel
theorem witness_registers : bank0.canReserve 0 0x80000001 = true ∧ bank0.stalls = [] ∧ (0x80000001 : Word).getLsbD 31 = true ∧ full1.canReserve 0 0x80000001 = false ∧ (full1.twinNum? 0).isNone = true ∧
    4096 < ((0x80001001 : Word).extractLsb' 0 13).toNat ∧ (bank0.sliceStacks 0).getLsbD 0 = true ∧
    ∃ w ∈ ({ bank0 with windows := [(0, 2 ^ 40, 2097152)] } : State).windows, w.2.1 ≤ 2 ^ 40 + 64 ∧ 2 ^ 40 + 64 + 65536 ≤ w.2.1 + w.2.2 := by decide +kernel

/-- The result bytes and the STATUS of function 0's mailbox after a command. -/
def mbox (o : Outcome State Fault Refusal) : Nat × List Byte := ((((after o).mailbox 0).ctl.extractLsb' 16 8).toNat, ((after o).mailbox 0).res.take 4)

theorem test_contexts : ((after (exec (.ctxnew 0 9 2 0x3000) bank0)).ctx? 9).map (fun c => (c.slice, c.base, c.cxpark)) = some (2, 0x3000, 0x00800040) ∧ (mbox (exec (.ctxnew 0 0 2 0x3000) bank0)).1 = 1 ∧
  ((after (exec (.ctxfree 0 7) idle1)).ctx? 7).isNone = true ∧ (mbox (exec (.ctxfree 0 0) idle1)).1 = 1 := by decide +kernel
theorem test_queue : ((after (exec (.qcreate 0 3 0 true 0x80 [0, 5] 0) bank0)).queue? 3).map (fun q => (q.ctx, q.tail, q.repset)) = some (0, 0x80, [0, 5]) ∧ (mbox (exec (.qcreate 0 3 0 true 0x81 [0] 0) bank0)).1 = 3 := by decide +kernel
theorem test_image : ((after (exec (.regimg 0 0 0x40020000 0x40030000) image1)).image? 0x40020000).map (fun m => (m.pool, m.code, m.dataOk)) = some ([0x40030010], [0x12345678], true) ∧
  Memory.read (after (exec (.regimg 0 0 0x40020000 0x40030000) image1)).mem 0x30000 4 = [9, 8, 7, 6] := by decide +kernel
theorem test_setreg : ((after (exec (.setregCxpark 0 0 0xFFFFFFFF) bank0)).ctx? 0).map (fun c => c.cxpark) = some 0x80FFFFFF ∧ ((after (exec (.setregCxtime 0 0 0xFFFFFFFFFFFFFFFF) bank0)).ctx? 0).map (fun c => c.cxtime) = some 0x00FFFFFFFFFF0000 ∧
  ((after (exec (.setregWatchdogLimit 0 0 77) bank0)).ctx? 0).map (fun c => c.wdogLimit) = some 77 ∧ ((after (exec (.setregBpimg 0 0 2 5) bank0)).ctx? 0).map (fun c => c.bpimg.take 3) = some [0, 0, 5] := by decide +kernel
theorem test_setreg_twinctl : ((after (exec (.setregTwinctl 0 0 0xFFFFE001) bank0)).ctx? 0).map (fun c => c.twinctl) = some 0xC0000001 ∧ (after (exec (.setregTwinctl 0 0 0x80000001) full1)).stalls = [.twinctl 0 0 0x80000001] := by decide +kernel
theorem test_setreg_dies : (after (exec (.setregBgbud 0 3 7 0xFFFFFFFF) bank0)).bgbudOf 3 7 = 0x80FFFFFF ∧ (mbox (exec (.setregBgbud 0 3 8 1) bank0)).1 = 3 ∧ (after (exec (.setregWarncfg 0 7 0x81000005) bank0)).warncfgOf 7 = 0x81000005 ∧
  (mbox (exec (.setregWarncfg 0 8 1) bank0)).1 = 3 := by decide +kernel
theorem test_registrations : ((after (exec (.warningWordRegistration 0 0 0x1238) bank0)).ctx? 0).map (fun c => c.warnWord) = some (some 0x1238) ∧
  ((after (exec (.facsimileRegistration 0 0 [(0, 65536)] 0x40000000 (2 ^ 40 + 64) 65536) { bank0 with windows := [(0, 2 ^ 40, 2097152)] })).ctx? 0).map (fun c => c.fac) = some (some ⟨[(0, 65536)], 0x40000000, 2 ^ 40 + 64, 65536⟩) := by decide +kernel
/-- A valid window of context 3 of part 5, pages 2 and 3, with V, R and W: the fields of R369 from SPART down, the reserved ones as ones and as they read. -/
def window1 (r3 : BitVec 3) (r12 : BitVec 12) (r16 : BitVec 16) : BitVec 128 :=
  (5 : BitVec 12) ++ (3 : BitVec 6) ++ r3 ++ (1 : BitVec 1) ++ (1 : BitVec 1) ++ (1 : BitVec 1) ++ (2 : BitVec 40) ++ r12 ++ (2 : BitVec 36) ++ r16
theorem test_export : lookupD 9 0 (after (exec (.exportWindow 0 9 (window1 7 0xFFF 0xFFFF)) bank0)).exports = window1 0 0 0 := by decide +kernel
theorem test_power_limit : (after (exec (.pwrlim 0 1225) bank0)).pwrLimit = 1225 ∧ (mbox (exec (.pwrlim 0 1230) bank0)).1 = 3 ∧
  mbox (exec (.startinfo 0) { bank0 with startMode := 1, startReason := 0x30, startFails := 300, portsDown := 5 }) = (0, [1, 0x30, 255, 0]) := by decide +kernel

/-- A taken frame, a region registered at 0x100000000 (open or closed) or over the mapped page, a publishable region of context 0. -/
def frame1 : State := { bank0 with frames := [(3, .taken 0)] }
def meter1 (base : Nat) (closed : Bool) : State := { bank0 with ctxs := if base = 0 then bank0.ctxs else [], meters := [⟨7, base, 2, [], 9, 4, List.replicate 48 1, closed, []⟩] }
def pub2 : State := { bank0 with pubs := [⟨0, 0x50000000, 65536, 0x200000, false, false, []⟩] }
def slice1 : State := { bank0 with slices := [(0, ⟨0x7FFFFFFFFF, 0xFFFF⟩), (1, ⟨0x8000000000, 0⟩)] }
/-- A migrate-out statement of region 7 with sequence number 5 and count 9. -/
def stmt1 : List Byte := leBytes 4 0x4D545243 ++ leBytes 2 3 ++ leBytes 2 0 ++ List.replicate 16 0 ++ leBytes 4 7 ++ leBytes 4 0 ++ leBytes 8 5 ++ leBytes 8 9 ++ List.replicate 48 0 ++ List.replicate 96 0
/-- A good manifest of this part at step 3, generation 6, of two bytes at 0x40040000. -/
def man1 : Manifest := ⟨0, 3, 6, 0, 1, true, false, true, 2, [(0x40040000, [5, 6])], [sha384 [5, 6]], [], []⟩

theorem witness_frames : (∀ v own, Accepts frame1 0 v own) ∧ (frame1.sliceRow 0).stackSet.getLsbD 2 = true ∧ frame1.cleanCount 2 ≠ 0 ∧ frame1.frames.find? (fun x => x.1 == 3) = some (3, .taken 0) ∧ ∀ x ∈ frame1.frames, x.1 ≠ 4 :=
  ⟨fun _ _ => accepts chk, chk, chk, chk, chk⟩
theorem witness_empty_stack : full1.cleanCount 2 = 0 ∧ (full1.sliceRow 0).stackSet.getLsbD 2 = true := by decide +kernel
theorem witness_pubreg : (pub2.ctx? 0).isSome = true ∧ (pub2.pubs.filter (fun p => p.ctx == 0)).length < 64 ∧ (∀ p ∈ pub2.pubs, (p.ctx = 0 → p.va + p.bytes ≤ 0x50010000 ∨ 0x50010000 + 65536 ≤ p.va) ∧
      (p.pa + 2 * p.bytes ≤ 0x300000 ∨ 0x300000 + 2 * 65536 ≤ p.pa)) ∧ (∃ p ∈ pub2.pubs, p.ctx = 0 ∧ p.va = 0x50000000 ∧ p.copying = false) ∧
    ((({ pub2 with pubs := List.replicate 64 ⟨0, 0x50000000, 65536, 0x200000, false, false, []⟩ } : State).pubs.filter (fun p => p.ctx == 0)).length = 64) := by decide +kernel
theorem witness_slices : (∃ r ∈ slice1.slices, r.1 ≠ 1 ∧ (r.2.clusters &&& 1 ≠ 0 ∨ r.2.stackSet &&& 0 ≠ 0)) ∧ (∃ c, c < 40 ∧ (slice1.sliceRow 0).clusters.getLsbD c ≠ (0 : BitVec 40).getLsbD c ∧ slice1.clusterBusy c = true) ∧
    (∀ r ∈ slice1.slices, r.1 ≠ 1 → r.2.clusters &&& 0 = 0 ∧ r.2.stackSet &&& 0 = 0) ∧ slice1.startMode ≠ 1 ∧ (∀ c, c < 40 → (slice1.sliceRow 1).clusters.getLsbD c ≠ (0 : BitVec 40).getLsbD c → slice1.clusterBusy c = false ∧ c ∉ slice1.retired) ∧
    (∀ k, k < 16 → (slice1.sliceRow 1).stackSet.getLsbD k = (0 : BitVec 16).getLsbD k) :=
  ⟨chk, ⟨0, by decide, chk, chk⟩, chk, chk, chk, chk⟩
theorem witness_meters : Meterable bank0 7 0x100000000 2 [] ∧ (bank0.meterNamed? 7).isNone = true ∧ ((meter1 0x100000000 true).meterNamed? 7).isSome = true ∧ Meterable (meter1 0x100000000 true) 7 0x100000000 2 [] ∧
    stmt1.length = 192 ∧ bytesAt stmt1 0 4 = 0x4D545243 ∧ bytesAt stmt1 0x18 4 = (7 : Word).toNat ∧ sha384 (stmt1.take 0x60) ∉ bank0.chained ∧ bytesAt stmt1 4 2 = 3 ∧
    ((meter1 0x100000000 false).meterNamed? 7).any (fun m => !m.closed && !((meter1 0x100000000 false).regionMapped m)) = true ∧ ((meter1 0 false).meterNamed? 7).any (fun m => !m.closed && (meter1 0 false).regionMapped m) = true :=
  ⟨⟨by decide, by decide, chk⟩, chk, chk, ⟨by decide, by decide, chk⟩, chk, chk, chk, chk, chk,
    chk, chk⟩
theorem witness_manifests : (∀ m ∈ ([] : List Manifest), usable [] [bank0.part] m.step = none) ∧ (∀ p ∈ [bank0.part], ∃ m ∈ [man1], goodManifest [bank0.part] m = true ∧ m.part = p ∧ m.step = 3) ∧ usable [man1] [bank0.part] man1.step = some none ∧
    (∀ m ∈ [man1], m.step ≤ man1.step) ∧ [man1].find? (fun m => goodManifest [bank0.part] m && m.step == man1.step) = some man1 ∧ (bank0.placeRegions 0 [(0x40040000, [5, 6])]).any (fun x => decide (x.2 = some true)) = true := by decide +kernel

theorem test_windows : (after (exec (.mapwin 0 2 (2 ^ 40) 2097152) bank0)).windows = [(2, 2 ^ 40, 2097152)] ∧ (mbox (exec (.mapwin 0 16 (2 ^ 40) 2097152) bank0)).1 = 3 := by decide +kernel
theorem test_frames : (after (exec (.frameAlloc 0 0 2) full1)).stalls = [.frame 0 0 2] ∧ (after (exec (.frameFree 0 3) frame1)).frames = [(3, .scrub)] ∧ (mbox (exec (.frameFree 0 4) frame1)).1 = 1 := by decide +kernel
theorem test_pubreg : (after (exec (.pubreg 0 0 0x50010000 65536 0x300000) pub2)).pubs.map (fun p => (p.va, p.pa, p.sel)) = [(0x50000000, 0x200000, false), (0x50010000, 0x300000, false)] ∧ (after (exec (.pubreg 0 0 0x50000000 0 0) pub2)).pubs = [] := by
  decide +kernel
theorem test_sliceset : (after (exec (.sliceset 0 1 0 0) slice1)).sliceRow 1 = ⟨0, 0⟩ ∧ (mbox (exec (.sliceset 0 1 1 0) slice1)).1 = 1 ∧ (mbox (exec (.sliceset 0 0 0 0) slice1)).1 = 5 := by decide +kernel
theorem test_metreg : (after (exec (.metreg 0 7 0x100000000 2 []) bank0)).meters.map (fun m => (m.region, m.base, m.pages, m.counter, m.seq, m.closed)) = [(7, 0x100000000, 2, 0, 0, false)] ∧
  (after (exec (.metreg 0 7 0x100000000 2 []) (meter1 0x100000000 true))).meters.map (fun m => (m.counter, m.seq, m.closed)) = [(9, 5, false)] := by decide +kernel
theorem test_metdereg : (after (exec (.metdereg 0 7) (meter1 0x100000000 false))).meters.map (fun m => (m.counter, m.seq, m.closed)) = [(9, 5, true)] ∧ (mbox (exec (.metdereg 0 7) (meter1 0x100000000 true))).1 = 1 := by decide +kernel
theorem test_migrations_of_regions : (after (exec (.migrateOut 0 7) (meter1 0x100000000 false))).meters.map (fun m => (m.seq, m.closed)) = [(5, true)] ∧ (mbox (exec (.migrateOut 0 7) (meter1 0 false))).1 = 1 ∧
  (mbox (exec (.migrateIn 0 8 0x100000000 2 [] stmt1) bank0)).1 = 1 ∧ (mbox (exec (.replace 0 8 0x100000000 2 [] stmt1) bank0)).1 = 1 := by decide +kernel
theorem test_restore : (mbox (exec (.restore 0 0 [] 0) bank0)) = (1, [0x30, 0, 0, 0]) ∧ (mbox (exec (.restore 0 0 [man1] 0) recall0)) = (0, [0, 0, 0, 0]) ∧ Memory.read (after (exec (.restore 0 0 [man1] 0) recall0)).mem 0x40000 2 = [5, 6] ∧
  ((after (exec (.restore 0 0 [man1] 0) recall0)).queue? 0).map (fun q => q.nextGen) = some (some 6) := by decide +kernel

/-! ### Start-up, power, tests and management -/

/-- A launch of context 0 whose COMPL lies in host memory, through a window, as the gibibyte at 0x140000000; a die is throttled, the clock is at step 2,
and three start attempts have failed. -/
def hot1 : State :=
  { bank0 with
    launches := [{ loadLaunch 1 with compl := 0x140000200 }], mem := Memory.write bank0.mem 0x1028 (leBytes 8 0x1000000001B), windows := [(0, 2 ^ 40, 2097152)]
    throttled := [3], startFails := 3, clockStep := 2, startReason := 0x20 }
/-- Corrected errors of die 3 have reached a threshold of 5 within one period, and context 0 has a warning word at 0x40000300. -/
def warn1 : State := { bank0.onCtx 0 (fun c => { c with warnWord := some 0x40000300 }) with warncfg := [(3, 0x81000005)], errors := [(3, 5)] }
def warn2 : State := { bank0 with warncfg := [(3, 0x81000005)], errors := [(3, 5)] }
/-- The placement log has a team of launch 9, generation 4, on cluster 0, of a queue whose replica set is parts 0 and 7; cluster 0 passed at time 50. -/
def test1 (spares : List Nat) : State :=
  { bank0 with plog := [⟨10, 4, 9, 0, 2, 0, 0, 0⟩], queues := [⟨0, 0, false, 0, [0, 7], 0, [], 1, [], none⟩], passTime := [(0, 50)], spares := spares }

theorem witness_heat : hot1.up = true ∧ 3 ≤ hot1.startFails ∧ hot1.clockStep ≠ 0 ∧ 5 ∉ hot1.throttled ∧ 3 ∈ hot1.throttled ∧ PartWrites hot1 0 0x140000200 32 (2 ^ 40 + 0x200) ∧ hot1.launches = [{ loadLaunch 1 with compl := 0x140000200 }] ∧
    ({ hot1 with launches := [] } : State).up = true ∧ bank0.startFails < 3 :=
  ⟨chk, chk, chk, chk, chk, writable chk, chk, chk, chk⟩
theorem witness_tests : (∀ sp ∈ [[0], [1]], let s := test1 sp; (0 : Nat) ∉ s.retired ∧ s.up = true ∧ (∀ c ∈ s.ctxs, c.warnWord = none) ∧ s.plog = [] ++ ⟨10, 4, 9, 0, 2, 0, 0, 0⟩ :: [] ∧
      (∃ tm ∈ s.teams, tm.ended = false ∧ (∃ c ∈ s.ctxs, c.num = tm.ctx ∧ s.runs c.num = true) ∧ ∃ g ∈ tm.groups, g.core / 8 = 0) ∧ (∃ c ∈ s.ctxs, s.runs c.num = true ∧ (s.core 0).active = some c.num) ∧
      ∃ q ∈ s.queues, q.num = 0 ∧ q.ctx = 0 ∧ 7 ∈ q.repset) := by decide +kernel
theorem witness_warning : (∀ s ∈ [warn1, warn2], let w := s.warncfgOf 3; w.getLsbD 31 = true ∧ w.extractLsb' 24 7 ≠ 0 ∧ w.extractLsb' 0 24 ≠ 0 ∧
      (w.extractLsb' 0 24).toNat ≤ s.corrections 3 - getAt (lookupD 3 [] s.errHist) ((w.extractLsb' 24 7).toNat - 1) 0) ∧ (∀ c ∈ warn2.ctxs, c.warnWord = none) ∧
    ((warn1.ctxs.filter (fun c => c.warnWord.isSome)).map (fun c => (c.num, c.warnWord)) = [(0, some 0x40000300)]) ∧ PartWrites warn1 0 0x40000300 8 0x300 :=
  ⟨chk, chk, chk, writable chk⟩

theorem test_start : ((after (exec (.powerGood ⟨0x23, 0, 0⟩) hot1)).startFails, (after (exec (.powerGood ⟨0x23, 0, 0⟩) hot1)).startReason, (after (exec (.powerGood ⟨0x23, 0, 0⟩) hot1)).up) = (4, 0x23, false) ∧
  ((after (exec (.powerGood ⟨0, 5, 2⟩) hot1)).startMode, (after (exec (.powerGood ⟨0, 5, 2⟩) hot1)).cap, (after (exec (.powerGood ⟨0, 5, 2⟩) hot1)).slices) = (1, [1, 0, 0, 0], [(0, ⟨1, 3⟩)]) := by decide +kernel
theorem test_reset : ((after (exec (.fundamentalReset true ⟨0, 5, 2⟩) hot1)).startMode, (after (exec (.fundamentalReset true ⟨0, 5, 2⟩) hot1)).startReason, (after (exec (.fundamentalReset true ⟨0, 5, 2⟩) hot1)).planes.take 2) = (0, 0, [1, 3]) ∧
  (after (exec (.fundamentalReset true ⟨0, 5, 2⟩) hot1)).teams = [] ∧ Memory.get (after (exec (.fundamentalReset true ⟨0, 5, 2⟩) hot1)).mem 0x100 = 0 := by decide +kernel
/-- 2,700 W is the limit: 2,700.001 W lowers the clock; 2,402 W at 680 MHz would be 2,702.25 W at 765, 2,400 W is 2,700 W. -/
theorem test_power : (after (exec (.powerWindow 2700001) hot1)).clockStep = 3 ∧ (after (exec (.powerWindow 2402000) hot1)).clockStep = 2 ∧ (after (exec (.powerWindow 2400000) hot1)).clockStep = 1 := by decide +kernel
theorem test_heat : (after (exec (.throttle105 5) hot1)).throttled = [5, 3] ∧ (after (exec (.throttleEnd95 3) hot1)).throttled = [] ∧ (after (exec (.thermalTrip 1) hot1)).up = false ∧ (after (exec (.thermalTrip 1) hot1)).out.take 1 = [.thermal 1] ∧
  Memory.read (after (exec (.thermalTrip 1) hot1)).mem (2 ^ 40 + 0x200) 4 = [0, 3, 0, 0xA0] := by decide +kernel
theorem test_passes : lookupD 9 0 (after (exec (.testPassEnd 9 77) bank0)).passTime = 77 ∧ (after (exec (.testPassFail 0 60) (test1 [0]))).spares = [] ∧ (after (exec (.testPassFail 0 60) (test1 [1]))).retired = [0] ∧
  ((after (exec (.testPassFail 0 60) (test1 [1]))).sliceRow 0).clusters = 0xFFFFFFFFFE ∧ (after (exec (.testPassFail 0 60) (test1 [1]))).teams = [] := by decide +kernel
theorem test_taint : (after (exec (.testPassFail 0 60) (test1 [1]))).out.take 2 = [.taint 7 ([0, 0, 0, 1, 0, 0, 0, 0] ++ leBytes 8 50 ++ leBytes 8 60 ++ [0] ++ leBytes 4 9 ++ leBytes 4 4 ++ [0, 0, 0]),
    .taint 0 ([0, 0, 0, 1, 0, 0, 0, 0] ++ leBytes 8 50 ++ leBytes 8 60 ++ [0] ++ leBytes 4 9 ++ leBytes 4 4 ++ [0, 0, 0])] := by decide +kernel
theorem test_warning : Memory.read (after (exec (.warning 3) warn1)).mem 0x300 8 = [1, 0, 0, 0, 8, 0, 0, 0] ∧ ((after (exec (.warning 3) warn1)).ctx? 0).map (fun c => c.warnCount) = some 1 ∧ goes (exec (.warning 2) warn1) = false := by decide +kernel

/-- A responder that has reached a state, with nothing said before. -/
def spdm1 (v c a : Bool) (session : Nat) : State := { bank0 with spdm := ⟨v, c, a, session, 0, []⟩ }

theorem witness_management : bank0.up = true ∧ (bank0.sensor 0).isSome = true ∧ (spdm1 true true true 0).spdm.algs = true ∧ bank0.spdm.algs = false ∧ (8 ≤ 9 ∧ 9 ≤ 254) ∧ (6 < 7 ∧ 7 ≠ 0xFF) := by decide +kernel

theorem test_sensors : ((after (exec (.sensorUpdate ⟨1, 9, [40, 41], 20, 30⟩) hot1)).sensors) = ⟨1, 2, [40, 41], 20, 30⟩ ∧ (after (exec (.pldmSensorRead 3) { hot1 with sensors := ⟨1, 2, [40, 41], 20, 30⟩ })).out.take 1 = [.sensor 3 41] ∧
  (after (exec (.pldmSensorRead 15) warn1)).out.take 1 = [.sensor 15 5] := by decide +kernel
theorem test_mctp : (after (exec (.mctpControl 1 9) bank0)).eid = 9 ∧ (after (exec (.mctpControl 5 0) bank0)).out.take 1 = [.mctp [5, 0, 3, 0, 1, 5]] := by decide +kernel
theorem test_spdm_start : (after (exec .getVersion (spdm1 true true true 2))).spdm = ⟨true, false, false, 0, 0, [0x84, 4, 1, 0, 0, 0x13]⟩ ∧ (after (exec (.getCapabilities [7]) (spdm1 true false false 0))).spdm = ⟨true, true, false, 0, 0, [0xE1, 7, 0x61, 0xF6, 2, 0, 0]⟩ ∧
  (after (exec (.getCapabilities [7]) (spdm1 false false false 0))).out.take 1 = [.spdm 0x7F [4]] := by decide +kernel
theorem test_spdm_algorithms : (after (exec (.negotiateAlgorithms ⟨true, true, true, true⟩) (spdm1 true true false 0))).spdm.algs = true ∧ (after (exec (.negotiateAlgorithms ⟨true, false, true, true⟩) (spdm1 true true false 0))).out.take 1 = [.spdm 0x7F [1]] := by decide +kernel
theorem test_spdm_out_of_order : ([.getDigests, .getCertificate 0 0 4, .challenge 0 [], .getMeasurements 0 false [], .keyExchange [], .finish [], .keyUpdate 1] : List Instr).all
  (fun i => (after (exec i (spdm1 true true false 0))).out.take 1 == [.spdm 0x7F [4]]) = true := by decide +kernel
theorem test_spdm_measurements : (after (exec (.getMeasurements 0 false [3]) (spdm1 true true true 0))).out.take 1 = [.spdm 0x60 [6]] ∧ (after (exec (.getMeasurements 7 false [3]) (spdm1 true true true 0))).out.take 1 = [.spdm 0x7F [1]] ∧
  (after (exec (.challenge 1 []) (spdm1 true true true 0))).out.take 1 = [.spdm 0x7F [1]] ∧ (after (exec (.getCertificate 1 0 4) (spdm1 true true true 0))).out.take 1 = [.spdm 0x7F [1]] := by decide +kernel
theorem test_spdm_session : (after (exec (.keyExchange [2]) (spdm1 true true true 0))).spdm.session = 1 ∧ ((after (exec .getDigests (spdm1 true true true 0))).spdm.transcript.take 3 = [0x81, 1, 1]) ∧
  (after (exec (.keyUpdate 3) (spdm1 true true true 2))).out.take 1 = [.spdm 0x69 [3]] ∧ (after (exec (.keyUpdate 3) (spdm1 true true true 2))).spdm.updates = 1 ∧ (after (exec (.keyUpdate 4) (spdm1 true true true 2))).out.take 1 = [.spdm 0x7F [1]] := by decide +kernel

/-! ### The fabric -/

/-- Part 5's context 3 may load and store pages 0 and 1, or only load. -/
def fab0 (w : BitVec 1) : State :=
  { bank0 with exports := [(2, (5 : BitVec 12) ++ (3 : BitVec 6) ++ (0 : BitVec 3) ++ w ++ (1 : BitVec 1) ++ (1 : BitVec 1) ++ (2 : BitVec 40) ++ (0 : BitVec 12) ++ (0 : BitVec 36) ++ (0 : BitVec 16))] }
/-- A request of part 5 about physical address 0x100, as request 7. -/
def from5 (kind ctx aux : Nat) (bs : List Byte) : Packet := { kind := kind, srcPart := 5, srcDie := 1, ctx := ctx, rid := 7, key := 0x100, aux := aux, payload := bs }
/-- A store of 9 to byte 2 of the line. -/
def store5 : Packet := from5 2 3 0 (4 :: List.replicate 31 0 ++ List.replicate 2 0 ++ [9] ++ List.replicate 253 0)
def load5 (ctx : Nat) : Packet := from5 1 ctx 0 [4, 6, 0, 0]
/-- An atomic ADD of 32 bits at system scope. -/
def add5 : Packet := from5 3 3 (1 * 8 + 6) (leBytes 4 1 ++ [0, 0])
/-- A request to part 7 with a number, of an access's lane or a store. -/
def req7 (id rid sends : Nat) (acc : Option (Nat × Nat)) (busy : Bool) : Req := ⟨id, false, 7, 1, { kind := 1, dstPart := 7, dstDie := 1, rid := rid, key := 0x500 }, acc, none, none, sends, false, busy, 0, 0, 0⟩
def asked1 (rs : List Req) : State := { bank0 with reqs := rs }
/-- A reply of part 7 to request 4. -/
def reply7 (bs : List Byte) : Packet := { kind := 4, srcPart := 7, srcDie := 1, rid := 4, payload := bs }
/-- Sprayed data of part 7 at its address 0x500. -/
def data7 (rid : Nat) : Packet := { kind := 8, spray := true, srcPart := 7, srcDie := 1, rid := rid, key := 0x500, payload := 0 :: leBytes 8 20 ++ [5, 6] }

/-- A request reaches its home, said as one decision. -/
def reachesB (s : State) (p : Packet) (k : Nat) : Bool :=
  s.up && decide (p.kind = k ∧ p.dstPart = s.part ∧ p.dstDie = homeDie p.key ∧ p.key < 2 ^ 52) && fabricOk p && (s.twins.isEmpty && s.migrations.isEmpty && s.marks.isEmpty) && Memory.wf s.mem
theorem reaches {s : State} {p : Packet} {k : Nat} (h : reachesB s p k = true) : Reaches s p k := by
  simp only [reachesB, Bool.and_eq_true, decide_eq_true_eq] at h
  exact ⟨h.1.1.1.1, h.1.1.1.2, h.1.1.2, plain (by simp only [Bool.and_eq_true]; exact h.1.2), h.2⟩

/-- An allowlist turns nothing away, and no line is metered, each said as one decision. -/
theorem allowed {s : State} {a : Nat} {meas : List Byte} (h : (s.meter? a).all (fun m => m.allow.contains meas) = true) : Allowed s a meas := by
  intro m e
  rw [e] at h
  simpa using h
theorem uncounted {s : State} {a n : Nat} (h : (linesOf a n).all (fun k => (s.meter? (k * 256)).isNone) = true) : Uncounted s a n := by
  intro k hk
  simpa using List.all_eq_true.mp h k hk
/-- Region 7 of two pages from 0 on, whose allowlist holds the empty measurement or not; a sprayed load of four bytes for transfer 20. -/
def fabMet (ok : Bool) : State := { fab0 1 with meters := [⟨7, 0, 2, if ok then [[]] else [[1]], 0, 0, List.replicate 48 1, false, []⟩] }
def load5s : Packet := { from5 1 3 0 (leBytes 2 4 ++ leBytes 8 20) with spray := true }

theorem witness_loads_from_parts : (∀ p ∈ [load5 3, load5s], Reaches (fab0 1) p 1 ∧ Window (fab0 1) p 0x100 4 true false ∧ Allowed (fab0 1) 0x100 [] ∧ Uncounted (fab0 1) 0x100 4) ∧
    bytesAt (load5 3).payload 0 1 = 4 ∧ (load5 3).payload.drop 4 = [] ∧ bytesAt load5s.payload 0 2 = 4 ∧ load5s.payload.drop 10 = [] ∧ (fab0 1).planes ≠ [] ∧
    (fab0 1).poisoned ((fab0 1).place 0x100) 4 = false ∧ ({ fab0 1 with poison := [8] } : State).poisoned (({ fab0 1 with poison := [8] } : State).place 0x100) 4 = true ∧
    Reaches bank0 (load5 3) 1 ∧ ¬ Window bank0 (load5 3) 0x100 4 true false := by
  refine ⟨fun p h => ?_, chk, chk, chk, chk, chk, chk, chk, reaches chk, fun ⟨_, e, h, _⟩ => absurd h (by simp [show bank0.exports = [] from rfl])⟩
  simp only [List.mem_cons, List.mem_nil_iff, or_false] at h
  rcases h with rfl | rfl <;> exact ⟨reaches chk, ⟨chk, _, .head _, chk, chk, chk, chk, chk, chk, chk⟩, allowed chk, uncounted chk⟩
theorem witness_metered_loads : Reaches (fabMet true) (load5 3) 1 ∧ Window (fabMet true) (load5 3) 0x100 4 true false ∧ Allowed (fabMet true) 0x100 [] ∧ ¬ Allowed (fabMet false) 0x100 [] ∧
    ∃ m, (fabMet true).meter? 0x100 = some m ∧ m.counter ≠ BitVec.allOnes 64 ∧ (m.counter + 1).toNat % 2 ^ 20 ≠ 0 := by
  have h : ((fabMet false).meter? 0x100).any (fun m => !(m.allow.contains [])) = true := by decide +kernel
  have k : ((fabMet true).meter? 0x100).any (fun m => decide (m.counter ≠ BitVec.allOnes 64 ∧ (m.counter + 1).toNat % 2 ^ 20 ≠ 0)) = true := by decide +kernel
  obtain ⟨m, e, f⟩ := some_of h
  obtain ⟨n, g, j⟩ := some_of k
  exact ⟨reaches chk, ⟨chk, _, .head _, chk, chk, chk, chk, chk, chk, chk⟩, allowed chk, fun x => absurd (x m e) (by simpa using f), n, g, of_decide_eq_true j⟩
theorem witness_stores_from_parts : Reaches (fab0 1) store5 2 ∧ ((acked (fab0 1) store5).cached store5 false).isNone = true ∧ (¬ ∃ b ∈ (fab0 1).busy, b.1 = store5.srcPart ∧ b.2.1 < store5.rid ∧ b.2.2 = store5.key / 256) ∧
    (acked (fab0 1) store5).cacheFull store5.dstDie store5.srcPart = false ∧ StoreAnswer (fab0 1) store5 0 ∧ StoreAnswer (fabMet false) store5 6 ∧
    (∃ b ∈ ({ fab0 1 with busy := [(5, 6, 1)] } : State).busy, b.1 = store5.srcPart ∧ b.2.1 < store5.rid ∧ b.2.2 = store5.key / 256) ∧
    ((acked { fab0 1 with cache := [⟨0, 5, 7, false, [], 0⟩] } store5).cached store5 false).isSome = true := by
  have h : ((fabMet false).meter? 0x102).any (fun m => !(m.allow.contains [])) = true := by decide +kernel
  obtain ⟨m, e, f⟩ := some_of h
  exact ⟨reaches chk, chk, chk, chk, .inr ⟨2, 2, ⟨chk, chk, by decide, chk⟩, .inl ⟨⟨chk, _, .head _, chk, chk, chk, chk, chk, chk, chk⟩, .inl ⟨allowed chk, rfl⟩⟩⟩,
    .inr ⟨2, 2, ⟨chk, chk, by decide, chk⟩, .inl ⟨⟨chk, _, .head _, chk, chk, chk, chk, chk, chk, chk⟩, .inr ⟨fun x => absurd (show ([] : List Byte) ∈ m.allow from (show store5.payload.drop 288 = [] by decide +kernel) ▸ x m e) (by simpa using f), rfl⟩⟩⟩, chk, chk⟩
theorem witness_atomics_from_parts : Reaches (fab0 1) add5 3 ∧ ((acked (fab0 1) add5).cached add5 true).isNone = true ∧ (fab0 1).expiryMark 0 5 ≤ add5.rid ∧ Window (fab0 1) add5 0x100 4 true true ∧ Allowed (fab0 1) 0x100 [] ∧
    Uncounted (fab0 1) 0x100 4 ∧ (fab0 1).poisoned ((fab0 1).place 0x100) 4 = false ∧ (acked (fab0 1) add5).cacheFull 0 5 = false ∧ add5.rid < ({ fab0 1 with expiry := [(0, 5, 8)] } : State).expiryMark 0 5 ∧
    ((acked { fab0 1 with cache := [⟨0, 5, 7, true, [8], 0⟩] } add5).cached add5 true).isSome = true :=
  ⟨reaches chk, chk, chk, ⟨chk, _, .head _, chk, chk, chk, chk, chk, chk, chk⟩, allowed chk, uncounted chk, chk, chk, chk, chk⟩
/-- The request of a mark of this part at another's line, and one that asks a part to promote (R245). -/
def promote7 (b : Byte) : Req := { req7 9 4 1 none false with pkt := { kind := 7, dstPart := 7, dstDie := 1, rid := 4, key := 0x500, payload := [1, 0, b] } }
theorem witness_promotion_replies : (promote7 1).pkt.kind = 7 ∧ bytesAt (promote7 1).pkt.payload 2 1 < 3 ∧ ¬ bytesAt (promote7 3).pkt.payload 2 1 < 3 ∧ (promote7 3).acc = none ∧ (promote7 3).monitor = none ∧
    ∀ b ∈ [1, 3], ((asked1 [promote7 b]).reqOf 7 1 4) = some (promote7 b) ∧ fabricOk (reply7 [0]) = true ∧ (reply7 [0]).dstPart = bank0.part := by decide +kernel
theorem witness_replies : (∀ s ∈ [asked1 [req7 9 4 1 (some (2, 0)) false], asked1 [req7 9 4 1 none false]], s.nextPlanes = none ∧ (s.reqOf 7 1 4).isSome = true) ∧ (asked1 []).reqOf 7 1 4 = none ∧
    (let s : State := { disp [link (pk 0 1 0x40000080 0) true false] [] with reqs := [{ req7 9 4 1 none false with monitor := some (3, 0x40000100, 0x40000060) }] }
     s.nextPlanes = none ∧ (s.reqOf 7 1 4).map (fun r => (r.acc, r.monitor)) = some (none, some (3, 0x40000100, 0x40000060)) ∧ ((s.queue? 3).any (fun qu => (qu.linked.find? (fun k => k.addr == 0x40000100)).isSome)) = true) := by decide +kernel
/-- A collective of part 7's that has written 32 bytes into a region's shadow here, as the second of its transfer 20. -/
def shadow7 : Packet := { data7 1 with srcPart := 5, ctx := 3, key := 0x100, payload := 1 :: leBytes 8 20 ++ List.replicate 32 9 }
def sprays (s : State) : State := { s with reorder := [⟨0, 7, 1, 20, 4, [data7 5]⟩] }
/-- Region 2^32 bytes long at 0, of a context: its shadow copy follows it. -/
def shad0 : State := { fab0 1 with pubs := [⟨3, 0x40000000, 65536, 0, false, false, []⟩], reorder := [⟨0, 5, 1, 20, 1, []⟩] }
theorem witness_engine_data : bank0.reorder = [] ∧ fabricOk (data7 0) = true ∧ (data7 0).rid = 0 ∧ bytesAt (data7 0).payload 1 8 = 20 ∧ getAt (data7 0).payload 0 (0 : Byte) ≠ 1 ∧
    (sprays bank0).reorder.find? (fun r => r.die == (data7 4).dstDie && r.src == (data7 4).srcPart && r.srcDie == (data7 4).srcDie && r.xfer == 20) = some ⟨0, 7, 1, 20, 4, [data7 5]⟩ ∧ (data7 4).rid = 4 ∧ (data7 5).rid = 4 + 1 ∧
      (data7 3).rid < 4 ∧ 4 < (data7 6).rid ∧ (sprays bank0).reorderBytes 0 + (data7 6).payload.length ≤ 2 ^ 21 ∧ ∀ q ∈ [data7 5], q.rid ≠ (data7 6).rid ∧ q.rid ≠ 4 := by decide +kernel
theorem witness_shadow_data : fabricOk shadow7 = true ∧ Window shad0 shadow7 0x100 32 false true ∧ shad0.meter? 0x100 = none ∧ (shad0.shadow 64 0x100).map (fun x => x.2) = some false ∧ Plain shad0 ∧ Memory.wf shad0.mem = true ∧
    ¬ Window bank0 shadow7 0x100 32 false false :=
  ⟨chk, ⟨chk, _, .head _, chk, chk, chk, chk, chk, chk, chk⟩, chk, chk, plain chk, chk, fun ⟨_, e, h, _⟩ => absurd h (by simp [show bank0.exports = [] from rfl])⟩
theorem witness_retransmission : (∀ n ∈ [1, 4], (asked1 [req7 9 4 n (some (2, 0)) false]).reqs.find? (fun x => x.id == 9 && !x.host && !x.busy) = some (req7 9 4 n (some (2, 0)) false)) ∧
    (∃ r ∈ (asked1 [req7 9 4 1 none true, req7 10 3 1 none true]).reqs, r.host = false ∧ r.busy = true ∧ r.part = 7 ∧ r.die = 1) ∧
    ({ bank0 with cache := [⟨0, 5, 7, true, [8], 0⟩] } : State).cache.find? (fun e => e.die == 0 && e.src == 5 && e.rid == (7 : Word).toNat && e.atomic) = some ⟨0, 5, 7, true, [8], 0⟩ := by decide +kernel
theorem witness_planes : [2, 9].Pairwise (fun a b => a < b) ∧ (∃ r ∈ (asked1 [req7 9 4 1 none false]).reqs, r.host = false ∧ r.pkt.spray = false ∧ r.busy = false ∧ r.failed = 0) ∧ bank0.reqs = [] ∧ bank0.routers = [] ∧ bank0.kept = [] ∧ ({ req7 9 4 1 none false with failed := 2 } : Req).failed ≠ 0 ∧
    4 ∉ bank0.linksDown ∧ lookupD 4 0 bank0.links + 1 < 16 ∧ 16 ≤ lookupD 4 0 ({ bank0 with links := [(4, 15)] } : State).links + 1 := by decide +kernel

/-- The status and the data of a reply that has been sent. -/
def replied (o : Outcome State Fault Refusal) : List Byte :=
  match (after o).out.head? with
  | some (.packet p) => if p.kind = 4 ∧ p.dstPart = 5 ∧ p.dstDie = 1 ∧ p.rid = 7 then p.payload else []
  | _ => []

theorem test_loads_from_parts : replied (exec (.loadPacket (load5 3)) (fab0 1)) = [0, 1, 2, 3, 0x84] ∧ replied (exec (.loadPacket (load5 4)) (fab0 1)) = [2] ∧ replied (exec (.loadPacket (load5 3)) (fabMet false)) = [6] ∧
  (after (exec (.loadPacket (load5 3)) (fabMet true))).meters.map (fun m => m.counter) = [1] := by decide +kernel
theorem test_stores_from_parts : replied (exec (.storePacket store5) (fab0 1)) = [0] ∧ Memory.read (after (exec (.storePacket store5) (fab0 1))).mem 0x101 3 = [2, 9, 0x84] ∧ replied (exec (.storePacket store5) (fab0 0)) = [4] ∧ replied (exec (.storePacket store5) (fabMet false)) = [6] ∧
  replied (exec (.storePacket store5) bank0) = [2] ∧ replied (exec (.storePacket store5) { fab0 1 with busy := [(5, 6, 1)] }) = [3] := by decide +kernel
theorem test_atomics_from_parts : replied (exec (.atomicPacket add5) (fab0 1)) = [0, 1, 2, 3, 0x84] ∧ Memory.read (after (exec (.atomicPacket add5) (fab0 1))).mem 0x100 4 = [2, 2, 3, 0x84] ∧
  replied (exec (.atomicPacket add5) { fab0 1 with expiry := [(0, 5, 8)] }) = [1] ∧ replied (exec (.atomicPacket add5) { fab0 1 with cache := [⟨0, 5, 7, true, [8, 8, 8, 8], 0⟩] }) = [0, 8, 8, 8, 8] := by decide +kernel
theorem test_replies : ((after (exec (.replyPacket (reply7 [3])) (asked1 [req7 9 4 1 none false]))).reqs.map (fun r => r.busy)) = [true] ∧ (after (exec (.replyPacket (reply7 [0])) (asked1 [req7 9 4 1 none false]))).reqs = [] := by decide +kernel
theorem test_custody : ((after (exec (.custodyPacket { kind := 5, srcPart := 7, srcDie := 1, rid := 4, key := 0x500 }) (asked1 [req7 9 4 1 none false]))).reqs.map (fun r => r.custody)) = [true] ∧
  ((after (exec (.errorNotice { kind := 6, srcPart := 7, srcDie := 1, rid := 4, key := 0x500, payload := [2] }) (asked1 [req7 9 4 1 none false]))).reqs.map (fun r => r.failed)) = [2] := by decide +kernel
theorem test_engine_data : (after (exec (.engineDataPacket (data7 1) false) bank0)).reorder.map (fun r => (r.next, r.packets.length)) = [(0, 1)] ∧
  (after (exec (.engineDataPacket (data7 4) false) (sprays bank0))).reorder.map (fun r => (r.next, r.packets.length)) = [(6, 0)] ∧
  (after (exec (.engineDataPacket (data7 0) true) bank0)).reorder = [] := by decide +kernel
theorem test_retransmission : (after (exec (.retransmitTimeout 9) (asked1 [req7 9 4 1 none false]))).reqs.map (fun r => r.sends) = [2] ∧ (after (exec (.retransmitTimeout 9) (asked1 [req7 9 4 4 (some (2, 0)) false]))).out.take 1 = [.peerDown 7 1] ∧
  (after (exec (.busyResend 7 1) (asked1 [req7 9 4 1 none true]))).reqs.map (fun r => (r.busy, r.sends)) = [(false, 1)] := by decide +kernel
theorem test_expiry : (after (exec (.replyCacheExpiry 0 5 7) { bank0 with cache := [⟨0, 5, 7, true, [8], 0⟩] })).cache = [] ∧ (after (exec (.replyCacheExpiry 0 5 7) { bank0 with cache := [⟨0, 5, 7, true, [8], 0⟩] })).expiryMark 0 5 = 8 := by decide +kernel
theorem test_planes : (after (exec (.activeListChange [2, 9]) bank0)).planes = [2, 9] ∧ (after (exec (.activeListChange [2, 9]) (asked1 [req7 9 4 1 none false]))).nextPlanes = some [2, 9] ∧
  lookupD 4 0 (after (exec (.flitCrcError 4 false) bank0)).links = 1 ∧ (after (exec (.flitCrcError 4 false) { bank0 with links := [(4, 15)] })).linksDown = [4] := by decide +kernel

/-- A catalogue entry's fields (R373) from BASE down: BASE, NTILE, PREFIX, PLEN, ACT, part and die; V is 1. -/
def entry1 (base : BitVec 40) (ntile : BitVec 12) (prefix_ : Word) (plen : BitVec 6) (act : BitVec 2) (part : BitVec 12) (die : BitVec 3) : BitVec 128 :=
  (0 : BitVec 12) ++ base ++ ntile ++ prefix_ ++ plen ++ act ++ part ++ die ++ (1 : BitVec 1) ++ (0 : BitVec 8)
/-- The name of tensor 9, tile 2, iteration 4, and its packets. -/
def name9 : TileName := ⟨9, 2, 4⟩
def named9 (kind : Nat) (bs : List Byte) : Packet := { kind := kind, rid := 100, key := 9 + 2 ^ 32 * 2, aux := 4, dstPart := 7, dstDie := 3, payload := bs }
/-- A leaf switch of plane 2, or hub 0, with a catalogue, entries and holdings. -/
def rt (r : Router) (v : List (Nat × BitVec 128)) (ps : List Pending) (hs : List Holding) : State := { bank0 with routers := [⟨r, v, ps, hs, []⟩] }
def wait9 (fs : List Face) : Pending := ⟨77, name9, [1, 2], fs, [(4, 3, 1)], 10, none, none⟩
/-- A leaf switch to which some packets of the tile have come, 256 bytes each. -/
def filling (fs : List Face) (n : Nat) : State := { bank0 with routers := [⟨.leaf 2 0, [], [wait9 fs], [], [⟨name9, (0, 0), List.replicate (256 * n) 5⟩]⟩] }
/-- A slip of tensor 9, tile 9, iteration 9 whose entry has gone, and one that still has its entry. -/
def lapse0 : State := { slip0 with routers := [⟨.hub 0, [(0, 0x100)], [], [], []⟩] }

theorem witness_interests : (∀ s ∈ [rt (.leaf 2 0) [] [] [], rt (.leaf 2 0) [] [wait9 [.port 4]] [], rt (.leaf 2 0) [] [] [⟨name9, [3], 1, 0⟩], rt (.hub 0) [(0, entry1 0 1 0 0 1 0 0)] [] [], rt (.hub 0) [(0, entry1 0 1 0 0 2 0 0)] [] [],
      rt (.hub 0) [(0, entry1 0 1 0 0 0 0 0)] [] [], rt (.leaf 2 0) [(0, entry1 0 1 0 0 0 8 1)] [] []], s.twins = [] ∧ s.up = true) ∧ packetName (named9 9 [1, 2]) = name9 ∧ (named9 9 [1, 2]).kind = 9 ∧
    ((rt (.leaf 2 0) [] [] [⟨name9, [3], 1, 0⟩]).router (.leaf 2 0)).holdings.filter (fun h => h.name == name9) = [⟨name9, [3], 1, 0⟩] ∧
    (∃ e ∈ ((rt (.leaf 2 0) [] [wait9 [.port 4]] []).router (.leaf 2 0)).pending, e.name = name9 ∧ e.meas = [1, 2]) ∧ ((rt (.leaf 2 0) [] [] []).router (.leaf 2 0)).lookup 9 = none := by decide +kernel
theorem witness_catalogue : (entry1 0 1 0 0 1 0 0).extractLsb' 24 2 = 1 ∧ (∀ a ∈ [0, 1, 2], ((rt (.hub 0) [(0, entry1 0 1 0 0 (BitVec.ofNat 2 a) 0 0)] [] []).router (.hub 0)).lookup 9 = some (entry1 0 1 0 0 (BitVec.ofNat 2 a) 0 0)) ∧
    ((entry1 0 1 0 0 0 0 0).extractLsb' 12 12).toNat = bank0.part ∧ ((entry1 0 1 0 0 0 0 0).extractLsb' 9 3).toNat = 0 ∧ name9.tile.toNat < 256 ∧ 256 ≤ (1000 : Word).toNat ∧ bank0.spent 6 0 = false ∧
    ((rt (.hub 0) [(0, entry1 0 1 0 0 1 0 0)] [] []).meter? (4096 * 2)).isNone = true ∧ (rt (.hub 0) [(0, entry1 0 1 0 0 1 0 0)] [] []).poisoned ((rt (.hub 0) [(0, entry1 0 1 0 0 1 0 0)] [] []).place (4096 * 2)) 4096 = false := by decide +kernel
theorem witness_tile_data : (let p := { named9 0x0A (List.replicate 256 6) with rid := 15 }; fabricOk p = true ∧ routerOk (.leaf 2 0) = true ∧ 256 ≤ p.payload.length ∧
      ∀ fs ∈ [[.port 4], [Face.slip 2]], ((filling fs 15).router (.leaf 2 0)).arriving.map (fun a => (a.name, a.src, a.data.length)) = [(packetName p, (0, 0), 256 * 15)] ∧
        ((filling fs 15).router (.leaf 2 0)).pending.filter (fun e => e.name == name9 && (p.payload.length == 256 || e.meas == p.payload.drop 256)) = [wait9 fs]) ∧
    (let s : State := { rt (.hub 0) [] [wait9 [.slip 2]] [] with slips := [⟨2, 0, name9, 8, 0, 1000, none⟩] }; (s.slips.find? (fun z => z.id == 2)).map (fun y => y.data) = some none) := by
  decide +kernel
theorem witness_lapse : lapse0.twins = [] ∧ lapse0.up = true ∧ lapse0.slips.filter (fun y => y.die == 0 && y.name == ⟨9, 9, 9⟩ && y.data.isNone) = lapse0.slips ∧ lapse0.slips.length = 1 ∧ (∀ x ∈ lapse0.slips, (lapse0.team? x.team).isSome = true ∧ lapse0.slipMeas x = []) ∧
    (∀ e ∈ (lapse0.router (.hub 0)).pending, e.name ≠ ⟨9, 9, 9⟩) ∧ (rt (.leaf 2 0) [] [wait9 [.port 4]] []).router (.leaf 2 0) = ⟨.leaf 2 0, [], [wait9 [.port 4]], [], []⟩ ∧
    (∃ e ∈ (slip0.router (.hub 0)).pending, ∃ x ∈ slip0.slips, e.faces = [.slip x.id] ∧ e.name = x.name) := by decide +kernel
/-- Parts 0 and 5 meet; part 0 arrives with a result, part 5 already has. -/
def meet1 (kind part : Nat) (pass status : Byte) : Packet := { kind := 0x0C, key := 2 ^ 32 * kind, payload := [pass, status] ++ leBytes 2 part ++ leBytes 2 0 ++ leBytes 2 5 }
def met1 : State := { bank0 with barriers := [⟨0, 0, [0, 5], 0, [(5, true, 0)]⟩], starts := [([0, 5], 7)] }
theorem witness_barrier : (∀ m ∈ [0, 5], m < 65536) ∧ (meet1 0 0 1 0).payload = [1, 0] ++ leBytes 2 0 ++ ([0, 5].map (leBytes 2)).flatten ∧ (∀ a ∈ [((5 : Nat), true, (0 : Nat))], a.1 ≠ 0) ∧ met1.barriers.find? (fun b => b.plane == 0 && b.spine == 0 && (b.parts == [0, 5]) && b.kind == 0) = some ⟨0, 0, [0, 5], 0, [(5, true, 0)]⟩ ∧
    (∀ m ∈ [0, 5], ∃ a ∈ [((5 : Nat), true, (0 : Nat)), (0, true, 0)], a.1 = m) ∧ (∃ m ∈ [0, 5], ∀ a ∈ [((0 : Nat), true, (0 : Nat))], a.1 ≠ m) ∧ bank0.barriers = [] := by decide +kernel
def free1 (kind : Nat) : Packet := { kind := 0x0D, key := 2 ^ 32 * kind, payload := [1, 0] ++ leBytes 4 9 ++ leBytes 2 0 }
def cut3 : State := cut1.onLaunch 1 (fun l => { l with facSent := true })
/-- The queue whose head waits at the start barrier, and a part of hub 0's holdings (R280). -/
theorem witness_start_head : ∀ k ∈ bar1.queues, (k.startHead = some (link (pk 0 0 0 0x40000200) true true)) ∧ ∀ x ∈ k.linked, k.waits x.addr = true → x = link (pk 0 0 0 0x40000200) true true := by decide +kernel
theorem witness_holdings : (let s := rt (.hub 0) [(0, entry1 0 1 0 0 1 0 0)] [] []; s.spent 6 0 = false ∧ s.holdShare (.hub 0) (s.stackOwner 0x2000) ≠ 0) ∧ isHub (.leaf 2 0) = false := by decide +kernel
theorem witness_release : bar1.queues = [⟨3, 0, false, 0x40000140, [0], 0, [link (pk 0 0 0 0x40000200) true true], 4, [⟨2, 0x40000100, 0, true, [], none⟩], none⟩] ∧
    replicaSet ⟨3, 0, false, 0x40000140, [0], 0, [link (pk 0 0 0 0x40000200) true true], 4, [⟨2, 0x40000100, 0, true, [], none⟩], none⟩ (pk 0 0 0 0x40000200) = [0] ∧ (free1 0).payload = [1, 0] ++ leBytes 4 9 ++ (([0] : List Nat).map (leBytes 2)).flatten ∧ fabricOk (free1 0) = true ∧
    cut3.launches = [lau cut3] ∧ (lau cut3).facSent = true ∧ (lau cut3).facWait = some (0, [(0x40010000, 65536)]) ∧ cut3.replicas (lau cut3) = [0] ∧
    (cut3.facsimileOf (lau cut3) [(0x40010000, 65536)]).isSome = true ∧ (let s : State := { cut1 with facEnded := [[0]] }; ∀ l ∈ s.launches, l.facSent = true → s.replicas l ≠ [0]) :=
  ⟨chk, chk, chk, chk, chk, chk, chk, chk, chk, chk⟩

/-- The kind, plane and destination of the last packet sent, and the first bytes of its payload. -/
def sentLast (o : Outcome State Fault Refusal) : List Nat × List Byte :=
  match (after o).out.head? with
  | some (.packet p) => ([p.kind, p.plane, p.dstPart, p.dstDie, p.rid], p.payload.take 4)
  | some (.relay _ port p) => ([p.kind, port, p.dstPart, p.dstDie, p.rid], p.payload.take 4)
  | _ => ([], [])

theorem test_catalogue : ((after (exec (.catalogueLoad (.leaf 2 0) 3 (BitVec.allOnes 128)) bank0)).router (.leaf 2 0)).catalogue = [(3, entry1 0xFFFFFFFFFF 0xFFF 0xFFFFFFFF 63 3 0xFFF 7)] := by decide +kernel
theorem test_interests : sentLast (exec (.interestPacket (.leaf 2 0) (.port 6) (named9 9 [1, 2])) (rt (.leaf 2 0) [] [] [])) = ([9, 7, 7, 3, 100], [1, 2]) ∧
  sentLast (exec (.interestPacket (.leaf 2 0) (.port 6) (named9 9 [1, 2])) (rt (.leaf 2 0) [(0, entry1 0 1 0 0 2 0 0)] [] [])) = ([0x0B, 6, 0, 0, 0], []) ∧
  ((after (exec (.interestPacket (.leaf 2 0) (.port 6) (named9 9 [1, 2])) (rt (.leaf 2 0) [] [wait9 [.port 4]] []))).router (.leaf 2 0)).pending.map (fun e => (e.faces, e.expiry, e.askers)) = [([.port 4, .port 6], 100, [(4, 3, 1), (6, 0, 0)])] := by decide +kernel
/-- Tile 2 of a tensor based at physical 0 stands at 0x2000; a page of a table is not it. -/
theorem test_memory_home : (after (exec (.interestPacket (.hub 0) (.port 6) (named9 9 [])) { rt (.hub 0) [(0, entry1 0 1 0 0 1 0 0)] [] [] with mem := Memory.write bank0.mem 0x20FF [8, 7, 6] })).out.reverse.map
    (fun n => match n with | .packet p => ([p.kind, p.plane, p.rid, p.payload.length], p.payload.take 2, p.payload.drop 255) | _ => ([], [], [])) =
  (([0x0A, 6, 0, 256], [0, 0], [8]) :: ([0x0A, 6, 1, 256], [7, 6], [0]) :: (List.range 14).map (fun k => ([0x0A, 6, k + 2, 256], [0, 0], [0])) : List (List Nat × List Byte × List Byte)) := by decide +kernel
/-- The last of a tile's packets gives it to the port that asked and to the holdings. -/
theorem test_tile_data : (let s := after (exec (.tileDataPacket (.leaf 2 0) { named9 0x0A (List.replicate 256 6) with rid := 15 }) (filling [.port 4] 15))
    sentLast (.next s) = ([0x0A, 4, 3, 1, 15], [6, 6, 6, 6]) ∧ s.out.length = 16 ∧ (s.router (.leaf 2 0)).holdings.map (fun h => (h.name, h.data.length)) = [(name9, 4096)]) ∧
  ((after (exec (.tileDataPacket (.leaf 2 0) { named9 0x0A (List.replicate 256 6) with rid := 3 }) (filling [.port 4] 3))).router (.leaf 2 0)).arriving.map (fun a => a.data.length) = [1024] := by decide +kernel
theorem test_lapse : (after (exec (.lapseNotice { kind := 0x0B, key := 9 + 2 ^ 32 * 9, aux := 9 }) lapse0)).slips = [] ∧ sentLast (exec (.pendingEntryExpiry (.leaf 2 0) 77) (rt (.leaf 2 0) [] [wait9 [.port 4]] [])) = ([0x0B, 4, 3, 1, 0], []) ∧
  ((after (exec (.pendingEntryExpiry (.leaf 2 0) 77) (rt (.leaf 2 0) [] [wait9 [.port 4]] []))).router (.leaf 2 0)).pending = [] := by decide +kernel
theorem test_barrier_units : (after (exec (.barrierPacket 0 0 (meet1 0 0 1 0)) bank0)).barriers = [⟨0, 0, [0, 5], 0, [(0, true, 0)]⟩] ∧
  (after (exec (.barrierPacket 0 0 (meet1 0 0 1 0)) met1)).out.map (fun n => match n with | .packet p => (p.dstPart, p.payload) | _ => (0, [])) = [(5, [1, 0, 8, 0, 0, 0, 0, 0, 5, 0]), (0, [1, 0, 8, 0, 0, 0, 0, 0, 5, 0])] ∧
  sentLast (exec (.barrierPacket 0 0 (meet1 0 0 0 0x21)) met1) = ([0x0D, 0, 5, 0, 0], [0, 0x21, 7, 0]) ∧ sentLast (exec (.barrierHomeFailure [0, 5] 0) met1) = ([0x0D, 0, 5, 0, 0], [0, 0x24, 7, 0]) := by decide +kernel
theorem test_release : (after (exec (.releasePacket (free1 0)) bar1)).launches.map (fun l => l.gen) = [9] ∧ (lau (after (exec (.releasePacket (free1 1)) cut3))).facCut = 1 ∧
  (after (exec (.releasePacket { free1 1 with payload := [1, 0x80] ++ leBytes 4 9 ++ leBytes 2 0 }) { cut1 with facEnded := [[0]] })).facEnded = [] ∧
  (sentLast (exec (.releasePacket (free1 1)) { cut1 with facEnded := [[0]] })).2 = [1, 0x80, 0, 0] := by decide +kernel

/-! ### Hypotheses about other parts, areas, swaps and scrubs that some state meets -/

/-- The mapped page is homed on part 7. -/
def farMap : State := { mem1 1 with mem := Memory.write (mem1 1).mem 0x1008 (leBytes 8 0x007000000000001B) }
/-- A load of part 7 has been answered in every lane, as its homes do, or with a refusal. -/
def farAcc (st : Nat) : Access :=
  { acc ld1 with waiting := true, ctr := none, lanes := (acc ld1).lanes.map (fun x => { x with loc := { x.loc with part := 7 } }), got := (acc ld1).lanes.map (fun x => (x.lane, [1, 2, 3, 4], st)) }
def farLoad (st : Nat) : State := ({ ld1 with accesses := [farAcc st] } : State).onGroup 0 0 (fun g => { g with wait := .reply 1 })
theorem witness_far_issue : (¬ Near farMap (iss farMap) ((iss farMap).pairAddrs always 4) .read ∧ Mapped farMap (iss farMap) ((iss farMap).pairAddrs always 4) 4 .read) ∧
    ¬ Near farMap (iss farMap) ((iss farMap).pairAddrs always 4) .atomic ∧ Mapped farMap (iss farMap) ((iss farMap).pairAddrs always 4) 4 .atomic := by
  refine ⟨⟨fun h => ?_, (reachable chk).toMapped⟩, fun h => ?_, (reachable chk).toMapped⟩ <;>
  · rcases h with h | h
    · revert h; decide +kernel
    · revert h; decide +kernel
theorem holds_some {s : State} (h : ((s.team? 0).isSome && ((team s).group? 0).isSome && ((s.launch? 1).isSome && (s.image? 0).isSome) && decide ((team s).launch = 1 ∧ (lau s).image = 0)) = true) :
    Holds s 0 0 (team s) (grp s) (lau s) (img s) := by
  simp only [Bool.and_eq_true, decide_eq_true_eq] at h
  obtain ⟨⟨⟨a, b⟩, c, d⟩, x, y⟩ := h
  have e := team_some a
  obtain ⟨g, f⟩ := Option.isSome_iff_exists.mp b
  obtain ⟨l, c⟩ := Option.isSome_iff_exists.mp c
  obtain ⟨m, d⟩ := Option.isSome_iff_exists.mp d
  exact ⟨e, by rw [f]; simp [grp, State.group?, e, f], by rw [x, c]; simp [lau, c], by rw [y, d]; simp [img, d]⟩
theorem witness_answered : ∀ st ∈ [0, 2], AllAnswered (farLoad st) (acc (farLoad st)) (team (farLoad st)) (grp (farLoad st)) ∧ Plain (farLoad st) ∧ Holds (farLoad st) 0 0 (team (farLoad st)) (grp (farLoad st)) (lau (farLoad st)) (img (farLoad st)) ∧
    ((acc (farLoad st)).lanes.map (fun x => (answerOf (acc (farLoad st)) x.lane).2)) = [st] := by
  intro st h
  have k : ∀ (s : State) (o : Option Ctx) (p : Ctx → LaneAcc → Prop) [∀ c x, Decidable (p c x)], o.all (fun c => (acc s).lanes.all (fun x => decide (p c x))) = true →
      ∀ c, o = some c → ∀ x ∈ (acc s).lanes, p c x := by
    intro s o p _ a c e x hx
    subst e
    exact of_decide_eq_true (List.all_eq_true.mp (by simpa only [Option.all_some] using a) x hx)
  have a : ∀ st ∈ [0, 2], ∀ y ∈ (acc (farLoad st)).lanes, y.loc.met = false ∧ y.lane < 64 ∧ ((acc (farLoad st)).got.find? (fun z => z.1 == y.lane)).isSome = true := by decide +kernel
  have b := a st h
  simp only [List.mem_cons, List.mem_nil_iff, or_false] at h
  rcases h with rfl | rfl <;>
  exact ⟨⟨chk, chk, ⟨⟨1, chk⟩, chk, chk, chk⟩, chk, fun x hx => ⟨(b x hx).1, (b x hx).2.1, fun _ => Option.isSome_iff_exists.mp (b x hx).2.2⟩, chk, fun c e _ _ => k (farLoad _) _ (fun c x => c.watchpoint (BitVec.ofNat 64 x.va).toNat (acc (farLoad _)).size true false = none) chk c e⟩,
    plain chk, holds_some chk, chk⟩
/-- A facsimile with an area and no region, cut. -/
def cut4 : State := let s := cut2.onLaunch 1 (fun l => { l with facCut := 1 }); { s with ctxs := cut1.ctxs, facs := [{ fact1 with regions := [] }] }
theorem filled_with_nothing {s : State} {l : Launch} {f : Facsimile} {r : FacReg} (w : Memory.wf s.mem = true) (hf : s.facs.find? (fun x => x.ctx == l.ctx) = some f) (n : f.regions = [])
    (hc : (s.ctx? l.ctx).any (fun k => decide (k.fac = some r)) = true) (e : areaCopies s f r = [(0, [])]) (d : l.facCut = 1) : FilledAreas s s l := by
  obtain ⟨k, h, g⟩ := some_of hc
  refine ⟨fun h => absurd d h, fun _ => ⟨w, rfl, f, k, r, hf, h, of_decide_eq_true g, by simp [n], fun b => ?_⟩⟩
  rw [e]
  simp [lastStored]
theorem witness_filled : FilledAreas cut2 cut2 (lau cut2) ∧ FilledAreas cut4 cut4 (lau cut4) ∧ (lau cut4).facCut = 1 := by
  have d : (lau cut2).facCut ≠ 1 := by decide +kernel
  exact ⟨⟨fun _ => rfl, fun h => absurd h d⟩, filled_with_nothing (f := { fact1 with regions := [] }) (r := ⟨[(0, 131072)], 0x40000000, 0x9000, 131072⟩) chk chk rfl chk chk chk, chk⟩
/-- An incoming context's first line is to be restored. -/
def arrive1 : State := bank0.onTeam 0 (fun t => { t with absent := [⟨0, true, .free, 0, 0⟩] })
theorem witness_line_arrival : (team arrive1).uid = 0 ∧ (team arrive1).absentLine? 0 = some ⟨0, true, .free, 0, 0⟩ ∧ 0 ∈ (team arrive1).cores ∧ 0 ∈ arrive1.swapLines (team arrive1) 0 ∧ (arrive1.core 0).active = some (team arrive1).ctx ∧
    (∀ x ∈ (arrive1.lineSeq (team arrive1).ctx 0).takeWhile (fun x => x != (0, 0)), arrive1.restoring x = false) ∧ (∀ c ∈ arrive1.coreCtxs, c.core = 0 → arrive1.spilling 0 c.ctx = false) := by decide +kernel
/-- Every line of the outgoing context has moved, and one of them could not be corrected. -/
def bank10 : State := bank7.onTeam 0 (fun t => { t with bad := [1] })
theorem witness_bad_spill : bank10.spillHeld 0 0 = false ∧ bank10.bankLines 0 0 + bank10.padLines 0 0 ≤ (bank10.coreCtx 0 0).spill ∧ bank10.spillBad 0 0 = some (0, 0, 1) ∧ (team bank10).killed = false ∧ (team bank10).ended = false ∧
    (bank7.spillBad 0 0).isNone = true ∧ lookupD 19 0 scrub1.scrubAt < 256 ∧ lookupD 0 0 scrub2.scrubAt < 256 ∧ await1.watches (acc await1) = true ∧ (acc await1).got = [] ∧ await0.watches (acc await0) = true ∧ (acc await0).got = [] ∧
    await1.behind (acc await1) = false := by decide +kernel

/-! ### Encoding and the memory -/

theorem witness_round_trip : ∃ (i : Instr) (w : Word), encode i = some w ∧ decodeWord w = some i := ⟨.iadd ⟨false, 0⟩ 1 2 3, 0x00#6 ++ 0#1 ++ 0#4 ++ 1#7 ++ 2#7 ++ 3#7, chk, chk⟩
theorem witness_any_step : Memory.wf State.reset.mem = true ∧ goes (step State.reset) = true ∧ Memory.wf (State.reset.loadWord (0x00#6 ++ 0#1 ++ 0#4 ++ 1#7 ++ 2#7 ++ 3#7)).mem = true ∧
    goes (step (State.reset.loadWord (0x00#6 ++ 0#1 ++ 0#4 ++ 1#7 ++ 2#7 ++ 3#7))) = true := ⟨chk, chk, chk, chk⟩

/-! ### Instructions that wait, and instructions of the system, complete -/

/-- A committed team with nothing outstanding; the states of the engine tests so. -/
def calm (s : State) : State := s.onTeam 0 (fun t => { t with committed := true })

def doneB (s : State) : Bool :=
  (iss s).team.committed && s.accesses.isEmpty && (s.wc.isEmpty && s.heldOut.isEmpty) && s.reqs.isEmpty && (iss s).grp.frel.isNone && s.twins.isEmpty
theorem done {s : State} (h : doneB s = true) : AllDone s (iss s) := by
  simp only [doneB, Bool.and_eq_true, List.isEmpty_iff, Option.isNone_iff_eq_none] at h
  exact ⟨h.1.1.1.1.1, h.1.1.1.1.2, h.1.1.1.2, h.1.1.2, h.1.2, h.2⟩

def stillB (s : State) : Bool :=
  (s.copies.isEmpty && s.tileops.isEmpty && s.accessions.isEmpty && s.works.isEmpty) && ((iss s).team.absent.isEmpty && (iss s).team.bad.isEmpty) &&
    (decide ((iss s).grp.lapse = none) && (iss s).team.groups.all (fun k => k.lineWait.isEmpty))
theorem still {s : State} (h : stillB s = true) : AllStill s (iss s) := by
  simp only [stillB, Bool.and_eq_true, List.isEmpty_iff, List.all_eq_true, decide_eq_true_eq] at h
  exact ⟨⟨h.1.1.1.1.1, h.1.1.1.1.2, h.1.1.1.2, h.1.1.2⟩, h.1.2, h.2.1, h.2.2⟩

theorem witness_calm : ∃ s i, (∀ sc ∈ [(2 : BitVec 3), 6], Passes s i true [] (scopeValid sc)) ∧ AllDone s i ∧ i.image.det = false ∧ Passes s i true [] true ∧ Passes s i true [.srcNoLatch 4 2] true ∧
    Passes s i true [.rw 10 1, .srcNoLatch 4 2] (scopeValid 6) ∧ Reachable s i (i.pairAddrs always 4) 4 .read ∧ i.pairAddrs always 4 ≠ [] ∧ Reachable s i (i.pairAddrs ⟨true, 0⟩ 4) 4 .read ∧ i.pairAddrs ⟨true, 0⟩ 4 = [] :=
  ⟨calm (eng 1 []), _, fun sc h => by
      simp only [List.mem_cons, List.mem_nil_iff, or_false] at h
      rcases h with rfl | rfl <;> exact passes chk,
    done chk, chk, passes chk, passes chk, passes chk, reachable chk, chk, reachable chk, chk⟩

theorem witness_calm_system : (∃ s i, Passes s i true [.srcStrict 4 2] true ∧ i.effect ⟨true, 0⟩ = 0) ∧
    (∃ s i p, Passes s i true [.srcStrict 4 2] true ∧ AllDone s i ∧ i.taking always = [0] ∧ s.region? (s.pubCtx i.team.ctx) (i.pair 4 0).toNat = some p) ∧
    (∃ s i, Passes s i true [.srcStrict 4 2] true ∧ AllDone s i ∧ Mapped s i (i.pairAddrs always 4) 64 .read ∧
      (let ls := (i.pairAddrs always 4).map (fun x => (⟨x.1, x.2.toNat, i.locOf s x.2 .read, []⟩ : LaneAcc))
       ReadsNow s i ls ∧ (i.image.boosted = false → ((s.tap (ls.map (fun x => x.loc))).launchAll i.team false
        (ls.map (fun x => (x.va, s.teamRead i.cur.team i.team.ctx i.grp.core x.loc.pa 64)))).isSome = true))) ∧
    ∃ s, Passes s (iss s) true [.srcStrict 4 2] true ∧ AllDone s (iss s) ∧ (iss s).taking always = [0] ∧ ((iss s).pair 4 0).toNat % 64 = 0 ∧ ReadsNow s (iss s) ((iss s).listPieces s ((iss s).pair 4 0).toNat) ∧
      (16 + 16 * bytesAt (facList s 1) 0 4 + 63) / 64 = 1 ∧ (iss s).pieceStop s 0 ((iss s).pair 4 0) 1 = none ∧ listOk (facList s 1) = true ∧ (iss s).image.boosted = false ∧
      (iss s).regionStop s 0 ((listRegions (facList s 1)).map regionPages).flatten = none := by
  obtain ⟨p, e, _⟩ := some_of (o := (calm pub1).region? ((calm pub1).pubCtx (iss (calm pub1)).team.ctx) ((iss (calm pub1)).pair 4 0).toNat) (p := fun _ => true) chk
  exact ⟨⟨eng 1 [], _, passes chk, chk⟩, ⟨calm pub1, _, p, passes chk, done chk, chk, e⟩,
    ⟨calm fed1, _, passes chk, done chk, (reachable chk).toMapped, readsNow chk, fun _ => by decide +kernel⟩,
    calm fac1, passes chk, done chk, chk, chk, readsNow chk, chk, noStop chk, chk, chk, noStop chk⟩

theorem witness_calm_names : (∃ s i, Passes s i true [.rw 20 1, .srcStrict 2 2] true ∧ i.effect ⟨true, 0⟩ = 0 ∧ i.taking always = [0] ∧ AllStill s i ∧ s.acquiring i = false ∧ (i.regAt 2 0 0).toNat = 0x400 ∧ i.regAt 2 1 0 = 0xFFFFFFFF ∧
      0x400 + 32 ≤ i.image.scratch ∧ (i.team.bar 4).expected ≠ 0 ∧ sendOk (i.team.words 0x400 8) = true ∧ i.sendStop (i.regAt 20 0 0) (i.team.words 0x400 8) = none) ∧
    ∃ s i, Passes s i true [.rwStrict 10 2, .srcStrict 6 3] true ∧ Passes s i true [.rw 10 1, .srcStrict 6 3] true ∧ Passes s i true [.srcStrict 6 3] true ∧ AllStill s i ∧ AllDone s i ∧
      i.tileOffsets always 10 = [(0, 0x800)] ∧ 0x800 + 4096 ≤ i.image.scratch ∧ (i.regAt 10 1 0).toNat = 1000 :=
  ⟨⟨withRegs (eng 1 sendRecord) [(20, 1)], _, passes chk, chk, chk, still chk, chk, chk, chk, chk,
      chk, chk, chk⟩,
    calm hub1, _, passes chk, passes chk, passes chk, still chk, done chk, chk, chk, chk⟩

/-- An instruction goes past: the lane that issues it stands at the next word, another does not. -/
def goneBy (s : State) (i : Instr) : Bool := pcOf s i 0 == 4 && pcOf s i 1 == 0 && (after (exec i s)).teams.length == 1

theorem test_fences_complete : ([.fence always 2, .fenceAcq always 2, .fenceRel always 6, .waitc always 3 1, .pref always 4 0, .await ⟨true, 0⟩ 10 4 6] : List Instr).all (goneBy (calm (eng 1 []))) = true ∧
  (grp (after (exec (.await always 10 4 6) (calm (eng 1 []))))).wait = .await 1 := by decide +kernel
theorem test_system_completes : goneBy (calm pub1) (.publish always 4) = true ∧ goneBy (calm fed1) (.launch always 4) = true ∧ goneBy (calm fac1) (.facsim always 4) = true ∧
  goneBy (withRegs (eng 1 sendRecord) [(20, 1)]) (.mcast always 20 2 4) = true ∧ ([.callslip always 10 6, .accession always 10 6, .slipcan always 6] : List Instr).all (goneBy (calm hub1)) = true := by decide +kernel

end Sys2Proof.Tests
end

section
/-!
The integer instructions of majors 0x03-0x17 complete with their results (R97-R104). Three layers: each result function of the
model equals the library's operation on words, or is given bit by bit; each shape of instruction completes, whatever its result
function; each instruction of a table of the statements is its shape at the table's function.
-/
namespace Sys2Proof.Proofs

open Sys2Proof.Machine Sys2Proof.Claims

/-! ### Lane masks -/

/-- A lane is in the set of the lanes that meet a test; the set holds at most the 64 lanes of its word. -/
theorem inMask_maskOf (p : Nat → Bool) (w l : Nat) : inMask (maskOf p w) l = (decide (l < w) && decide (l < 64) && p l) := by
  induction w with
  | zero => simp [maskOf, inMask]
  | succ w ih =>
    have hbit : (if p w then BitVec.ofNat 64 (2 ^ w) else 0 : LaneMask).getLsbD l = (decide (l < 64) && decide (w = l) && p w) := by
      cases p w
      · simp
      · rw [if_pos rfl, BitVec.getLsbD_ofNat, Nat.testBit_two_pow, Bool.and_true]
    unfold inMask at ih ⊢
    rw [maskOf, BitVec.getLsbD_or, ih, hbit]
    by_cases hl : w = l
    · subst hl; simp
    · have hlt : l < w + 1 ↔ l < w := by omega
      simp [hl, hlt]

theorem inMask_effect (i : Issue) (g : Guard) (l : Nat) :
    inMask (i.effect g) l = true ↔ guardHolds g (i.grp.lane l) ∧ inMask i.cur.exec l ∧ l < i.width := by
  have hexec : inMask i.cur.exec l = true → l < 64 := BitVec.lt_of_getLsbD
  rw [Issue.effect, inMask_maskOf]
  simp only [Bool.and_eq_true, decide_eq_true_eq]
  constructor
  · rintro ⟨⟨hw, -⟩, he, hg⟩
    exact ⟨hg, he, hw⟩
  · rintro ⟨hg, he, hw⟩
    exact ⟨⟨hw, hexec he⟩, he, hg⟩

/-! ### What the result functions compute -/

theorem length_filter_range_eq_cpopNatRec {w : Nat} (a : BitVec w) (n : Nat) :
    ((List.range n).filter (fun k => a.getLsbD k)).length = a.cpopNatRec n 0 := by
  induction n with
  | zero => rfl
  | succ n ih =>
    rw [List.range_succ, List.filter_append, List.length_append, ih, BitVec.cpopNatRec_succ, Nat.zero_add,
      BitVec.cpopNatRec_eq (acc := (a.getLsbD n).toNat)]
    cases h : a.getLsbD n <;> simp [h]

theorem popCount_eq (a : Word) : popCount a = a.cpop := congrArg (BitVec.ofNat 32) (length_filter_range_eq_cpopNatRec a 32)

theorem bitLen_toNat (a : Word) : bitLen a.toNat = 32 - a.clz.toNat := by
  by_cases ha : a = 0
  · subst ha; rfl
  · have hne : a.toNat ≠ 0 := fun h => ha (BitVec.eq_of_toNat_eq h)
    have hlo := BitVec.two_pow_sub_clz_le_toNat_of_ne_zero (by decide) ha
    have hhi := a.toNat_lt_two_pow_sub_clz
    have hlt : a.clz.toNat < 32 := BitVec.lt_def.mp (BitVec.clz_lt_iff_ne_zero.mpr ha)
    have hlog : a.toNat.log2 = 32 - 1 - a.clz.toNat :=
      (Nat.log2_eq_iff hne).mpr ⟨hlo, by rwa [show 32 - 1 - a.clz.toNat + 1 = 32 - a.clz.toNat by omega]⟩
    rw [bitLen, if_neg hne, hlog]
    omega

theorem leadingZeros_eq (a : Word) : leadingZeros a = a.clz := by
  have hle : a.clz.toNat ≤ 32 := BitVec.le_def.mp BitVec.clz_le
  rw [leadingZeros, bitLen_toNat, show 32 - (32 - a.clz.toNat) = a.clz.toNat by omega, BitVec.ofNat_toNat, BitVec.setWidth_eq]

/-- The fold of the bit reverse after the low `n` bits: they stand at the top, in reverse. -/
theorem getLsbD_bitReverse_fold (a : Word) (n j : Nat) (hn : n ≤ 32) (hj : j < 32) :
    ((List.range n).foldl (fun r k => if a.getLsbD k then r ||| BitVec.ofNat 32 (2 ^ (31 - k)) else r) (0 : Word)).getLsbD j =
      (decide (31 - j < n) && a.getLsbD (31 - j)) := by
  induction n with
  | zero => simp
  | succ n ih =>
    have hpos : (31 - n = j) ↔ (31 - j = n) := by omega
    have hbit : (BitVec.ofNat 32 (2 ^ (31 - n))).getLsbD j = decide (31 - j = n) := by
      rw [BitVec.getLsbD_ofNat, Nat.testBit_two_pow, decide_eq_true hj, Bool.true_and, decide_eq_decide]
      exact hpos
    have hif : ∀ r : Word, (if a.getLsbD n then r ||| BitVec.ofNat 32 (2 ^ (31 - n)) else r).getLsbD j =
        (r.getLsbD j || (decide (31 - j = n) && a.getLsbD n)) := by
      intro r
      cases a.getLsbD n
      · simp
      · rw [if_pos rfl, BitVec.getLsbD_or, hbit, Bool.and_true]
    rw [List.range_succ, List.foldl_append, List.foldl_cons, List.foldl_nil, hif, ih (by omega)]
    by_cases hjn : 31 - j = n
    · subst hjn; simp
    · have hlt : 31 - j < n + 1 ↔ 31 - j < n := by omega
      simp [hjn, hlt]

theorem bitReverse_eq (a : Word) : bitReverse a = a.reverse := by
  apply BitVec.eq_of_getLsbD_eq
  intro j hj
  rw [BitVec.getLsbD_reverse, BitVec.getMsbD, bitReverse, getLsbD_bitReverse_fold a 32 j (Nat.le_refl _) hj]
  simp [hj, show 31 - j < 32 by omega]

theorem byteReverse_eq (a : Word) :
    byteReverse a = a.extractLsb' 0 8 ++ a.extractLsb' 8 8 ++ a.extractLsb' 16 8 ++ a.extractLsb' 24 8 := rfl

theorem absolute_eq (a : Word) : (if a.msb then 0 - a else a) = if a.slt 0 then -a else a := by
  have hneg : 0 - a = -a := BitVec.zero_sub a
  have hsign : a.slt 0 = a.msb := BitVec.slt_zero_eq_msb
  rw [hneg, hsign]

/-- The field of BFX, before its sign is repeated. -/
def bfxField (a b : Word) : Nat := (a.toNat / 2 ^ (fld b 0 5).toNat) % 2 ^ fieldLen b

theorem testBit_bfxField (a b : Word) (k : Nat) :
    (bfxField a b).testBit k = (decide (k < fieldLen b) && a.getLsbD ((fld b 0 5).toNat + k)) := by
  rw [bfxField, Nat.testBit_mod_two_pow, Nat.testBit_div_two_pow, Nat.add_comm k]; rfl

theorem bfxField_lt (a b : Word) : bfxField a b < 2 ^ fieldLen b := Nat.mod_lt _ (Nat.two_pow_pos _)

/-- The highest bit of a number below `2 ^ n` is set when the number reaches `2 ^ (n - 1)`. -/
theorem testBit_pred_of_lt {f n : Nat} (hn : 0 < n) (hf : f < 2 ^ n) : f.testBit (n - 1) = decide (2 ^ (n - 1) ≤ f) := by
  by_cases h : 2 ^ (n - 1) ≤ f
  · have : f.testBit (n - 1) = true := by
      apply Nat.testBit_of_two_pow_le_and_two_pow_add_one_gt h
      rwa [Nat.sub_add_cancel hn]
    rw [this, decide_eq_true h]
  · rw [decide_eq_false h, Nat.testBit_lt_two_pow (Nat.lt_of_not_le h)]

/-- Taking `2 ^ n` from a number below it sets every bit from `n` up. -/
theorem getLsbD_ofInt_sub_two_pow {f n k : Nat} (hf : f < 2 ^ n) (hk : k < 32) :
    (BitVec.ofInt 32 ((f : Int) - 2 ^ n)).getLsbD k = (f.testBit k || decide (n ≤ k)) := by
  have hneg : (f : Int) - 2 ^ n = Int.negSucc (2 ^ n - (f + 1)) := by
    have hcast : ((2 ^ n : Nat) : Int) = 2 ^ n := Int.natCast_pow 2 n
    omega
  rw [hneg, BitVec.ofInt_negSucc_eq_not_ofNat, BitVec.getLsbD_not, BitVec.getLsbD_ofNat, Nat.testBit_two_pow_sub_succ hf]
  by_cases hkn : k < n
  · simp [hk, hkn, Nat.not_le.mpr hkn]
  · simp [hk, hkn, Nat.not_lt.mp hkn]

theorem fieldSign_eq (a b : Word) :
    (b.getLsbD 16 && decide (0 < fieldLen b) && decide (2 ^ (fieldLen b - 1) ≤ bfxField a b)) =
      (b.getLsbD 16 && decide (0 < fieldLen b) && a.getLsbD ((fld b 0 5).toNat + fieldLen b - 1)) := by
  by_cases hn : 0 < fieldLen b
  · rw [← testBit_pred_of_lt hn (bfxField_lt a b), testBit_bfxField, decide_eq_true (Nat.sub_lt hn Nat.one_pos), Bool.true_and,
      Nat.add_sub_assoc hn]
  · simp [hn]

theorem getLsbD_bfx (a b : Word) (k : Nat) (hk : k < 32) : (bfx a b).getLsbD k = extractBit a b k := by
  have hext : extractBit a b k = if k < fieldLen b then a.getLsbD ((fld b 0 5).toNat + k)
      else b.getLsbD 16 && decide (0 < fieldLen b) && a.getLsbD ((fld b 0 5).toNat + fieldLen b - 1) := rfl
  have hbfx : bfx a b = if b.getLsbD 16 && decide (0 < fieldLen b) && decide (2 ^ (fieldLen b - 1) ≤ bfxField a b)
      then BitVec.ofInt 32 ((bfxField a b : Int) - 2 ^ fieldLen b) else BitVec.ofNat 32 (bfxField a b) := rfl
  rw [hext, hbfx, fieldSign_eq]
  cases b.getLsbD 16 && decide (0 < fieldLen b) && a.getLsbD ((fld b 0 5).toNat + fieldLen b - 1)
  case false =>
    rw [if_neg Bool.false_ne_true, BitVec.getLsbD_ofNat, testBit_bfxField]
    by_cases hkn : k < fieldLen b <;> simp [hk, hkn]
  case true =>
    rw [if_pos rfl, getLsbD_ofInt_sub_two_pow (bfxField_lt a b) hk, testBit_bfxField]
    by_cases hkn : k < fieldLen b
    · simp [hkn, Nat.not_le.mpr hkn]
    · simp [hkn, Nat.not_lt.mp hkn]

theorem getLsbD_bfi (d a b : Word) (k : Nat) (hk : k < 32) : (bfi d a b).getLsbD k = insertBit d a b k := by
  have hins : insertBit d a b k = if (fld b 0 5).toNat ≤ k ∧ k < (fld b 0 5).toNat + fieldLen b
      then a.getLsbD (k - (fld b 0 5).toNat) else d.getLsbD k := rfl
  have hmask : ∀ j, j < 32 → (BitVec.ofNat 32 (2 ^ fieldLen b - 1)).getLsbD j = decide (j < fieldLen b) := by
    intro j hj
    rw [BitVec.getLsbD_ofNat, Nat.testBit_two_pow_sub_one, decide_eq_true hj, Bool.true_and]
  have hfield : k - (fld b 0 5).toNat < 32 := by omega
  rw [hins, bfi]
  simp only [BitVec.getLsbD_or, BitVec.getLsbD_and, BitVec.getLsbD_not, BitVec.getLsbD_shiftLeft, hmask _ hfield, decide_eq_true hk,
    Bool.true_and]
  by_cases hp : (fld b 0 5).toNat ≤ k
  · by_cases hl : k < (fld b 0 5).toNat + fieldLen b
    · simp [hp, Nat.not_lt.mpr hp, hl, show k - (fld b 0 5).toNat < fieldLen b by omega]
    · simp [hp, hl, show ¬ k - (fld b 0 5).toNat < fieldLen b by omega]
  · simp [hp, Nat.lt_of_not_le hp]

theorem divUnsigned_eq (d a : Word) : divUnsigned d a = if a = 0 then BitVec.allOnes 32 else d / a := by
  rw [divUnsigned, ← BitVec.udiv_def]; rfl

theorem remUnsigned_eq (d a : Word) : remUnsigned d a = if a = 0 then d else d % a := by
  rw [remUnsigned, ← BitVec.umod_def]

theorem divSigned_eq (d a : Word) : divSigned d a = if a = 0 then BitVec.allOnes 32 else d.sdiv a := by
  unfold divSigned
  by_cases ha : a = 0
  · simp [ha]
  by_cases hc : d = 0x80000000 ∧ a = 0xFFFFFFFF
  · obtain ⟨rfl, rfl⟩ := hc; decide
  · have hov : d ≠ BitVec.intMin 32 ∨ a ≠ -1#32 := Decidable.not_and_iff_not_or_not.mp hc
    rw [if_neg ha, if_neg hc, if_neg ha, ← BitVec.toInt_sdiv_of_ne_or_ne d a hov, BitVec.ofInt_toInt]

theorem remSigned_eq (d a : Word) : remSigned d a = if a = 0 then d else d.srem a := by
  unfold remSigned
  by_cases ha : a = 0
  · simp [ha]
  by_cases hc : d = 0x80000000 ∧ a = 0xFFFFFFFF
  · obtain ⟨rfl, rfl⟩ := hc; decide
  · rw [if_neg ha, if_neg hc, if_neg ha, ← BitVec.toInt_srem, BitVec.ofInt_toInt]

/-- The two words of a pair, low word first (R101). -/
theorem pairWords_eq (r : Dword) : [r.setWidth 32, (r >>> 32).setWidth 32] = [r.extractLsb' 0 32, r.extractLsb' 32 32] := by
  rw [BitVec.setWidth_eq_extractLsb' (by decide)]; rfl

/-! ### Each shape of instruction completes -/

section Shapes

variable {s : State} {i : Issue} {g : Guard} {d a b : RegField}

/-- A register-only instruction whose issue passes its checks completes with its words at D. -/
theorem issued_regOnly_completes {os : List Opnd} (h : Passes s i true os true) (eff : Issue → LaneMask) (n : Nat) (latched : Bool)
    (vals : Issue → Nat → List Word) (hn : ∀ l, (vals i l).length = n) :
    ∃ t g', issued s true (fun _ => os) true (fun i => regOnly i (eff i) d latched (vals i) s) = .next t ∧
      WritesD s t i (eff i) d n latched (vals i) g' := by
  rw [issued_passes h]
  exact regOnly_writes h.issuing (eff i) d n latched (vals i) hn

theorem alu3_completes (h : Passes s i true [.dst d 1, .src a, .src b] true) (f : Word → Word → Word) :
    ∃ t g', alu3 g d a b f s = .next t ∧ WritesD s t i (i.effect g) d 1 true (fun l => [f (i.src a l) (i.src b l)]) g' :=
  issued_regOnly_completes h (fun i => i.effect g) 1 true (fun i l => [f (i.src a l) (i.src b l)]) (fun _ => rfl)

theorem alu3d_completes (h : Passes s i true [.rw d 1, .src a, .src b] true) (f : Word → Word → Word → Word) :
    ∃ t g', alu3d g d a b f s = .next t ∧
      WritesD s t i (i.effect g) d 1 true (fun l => [f (i.regAt d 0 l) (i.src a l) (i.src b l)]) g' :=
  issued_regOnly_completes h (fun i => i.effect g) 1 true (fun i l => [f (i.regAt d 0 l) (i.src a l) (i.src b l)]) (fun _ => rfl)

theorem alu1_completes (h : Passes s i true [.dst d 1, .src a] true) (f : Word → Word) :
    ∃ t g', alu1 g d a f s = .next t ∧ WritesD s t i (i.effect g) d 1 true (fun l => [f (i.src a l)]) g' :=
  issued_regOnly_completes h (fun i => i.effect g) 1 true (fun i l => [f (i.src a l)]) (fun _ => rfl)

theorem alu64_completes (h : Passes s i true [.rw d 2, .srcNoLatch a 2] true) (f : Dword → Dword → Dword) :
    ∃ t g', alu64 g d a f s = .next t ∧ WritesD s t i (i.effect g) d 2 true
      (fun l => [(f (i.pair d l) (i.pair a l)).extractLsb' 0 32, (f (i.pair d l) (i.pair a l)).extractLsb' 32 32]) g' := by
  simp only [← pairWords_eq]
  exact issued_regOnly_completes h (fun i => i.effect g) 2 true
    (fun i l => let r := f (i.pair d l) (i.pair a l); [r.setWidth 32, (r >>> 32).setWidth 32]) (fun _ => rfl)

theorem divide_completes (h : Passes s i true [.rw d 1, .src a] true) (f : Word → Word → Word) :
    ∃ t g', divide g d a f s = .next t ∧ WritesD s t i (i.effect g) d 1 false (fun l => [f (i.regAt d 0 l) (i.src a l)]) g' :=
  issued_regOnly_completes h (fun i => i.effect g) 1 false (fun i l => [f (i.regAt d 0 l) (i.src a l)]) (fun _ => rfl)

/-- SEL: the lanes that execute, whatever the guard, and the guard only chooses (R98). -/
theorem execSel_completes (h : Passes s i true [.dst d 1, .src a, .src b] true) :
    ∃ t g', execSel g d a b s = .next t ∧ WritesD s t i (maskOf (inMask i.cur.exec) i.width) d 1 true
      (fun l => [if guardHolds g (i.grp.lane l) ∧ inMask i.cur.exec l ∧ l < i.width then i.src a l else i.src b l]) g' := by
  simp only [← inMask_effect]
  exact issued_regOnly_completes h (fun i => maskOf (inMask i.cur.exec) i.width) 1 true
    (fun i l => [if inMask (i.effect g) l then i.src a l else i.src b l]) (fun _ => rfl)

theorem execMovi_completes (h : Passes s i true [.dst d 1] true) (v : BitVec 14) :
    ∃ t g', execMovi g d v s = .next t ∧ WritesD s t i (i.effect g) d 1 true (fun _ => [v.signExtend 32]) g' :=
  issued_regOnly_completes h (fun i => i.effect g) 1 true (fun _ _ => [imm14 v]) (fun _ => rfl)

theorem execAddi_completes (h : Passes s i true [.rw d 1] true) (v : BitVec 14) :
    ∃ t g', execAddi g d v s = .next t ∧ WritesD s t i (i.effect g) d 1 true (fun l => [i.regAt d 0 l + v.signExtend 32]) g' :=
  issued_regOnly_completes h (fun i => i.effect g) 1 true (fun i l => [i.regAt d 0 l + imm14 v]) (fun _ => rfl)

end Shapes

/-! ### Each instruction of a table is its shape at the table's function -/

theorem exec_iabs (g : Guard) (d a : RegField) (s : State) :
    exec (.iabs g d a) s = alu1 g d a (fun x => if x.msb then 0 - x else x) s := rfl

theorem exec_intUnary : ∀ op ∈ intUnary, ∀ (g : Guard) (d a : RegField) (s : State), exec (op.1 g d a) s = alu1 g d a op.2 s := by
  simp only [intUnary, List.forall_mem_cons]
  refine ⟨?popc, ?clz, ?brev, ?bswap, ?iabs, ?ineg, ?mov, by simp⟩ <;> intro g d a s
  case popc => exact congrArg (alu1 g d a · s) (funext popCount_eq)
  case clz => exact congrArg (alu1 g d a · s) (funext leadingZeros_eq)
  case brev => exact congrArg (alu1 g d a · s) (funext bitReverse_eq)
  case bswap => exact congrArg (alu1 g d a · s) (funext byteReverse_eq)
  case iabs => exact (exec_iabs g d a s).trans (congrArg (alu1 g d a · s) (funext absolute_eq))
  case ineg => exact congrArg (alu1 g d a · s) (funext fun x => BitVec.zero_sub x)
  case mov => rfl

theorem exec_immShifts : ∀ op ∈ immShifts, ∀ (g : Guard) (d a : RegField) (k : BitVec 5) (s : State),
    exec (op.1 g d a k) s = alu1 g d a (fun x => op.2 x k.toNat) s := by
  simp only [immShifts, List.forall_mem_cons]
  refine ⟨?shli, ?shri, ?srai, ?rori, by simp⟩ <;> intro g d a k s <;> rfl

theorem exec_add64 (g : Guard) (d a : RegField) (s : State) : exec (.add64 g d a) s = alu64 g d a (fun x y => x + y) s := rfl

theorem exec_sub64 (g : Guard) (d a : RegField) (s : State) : exec (.sub64 g d a) s = alu64 g d a (fun x y => x - y) s := rfl

theorem exec_divOps : ∀ op ∈ divOps, ∀ (g : Guard) (d a : RegField) (s : State), exec (op.1 g d a) s = divide g d a op.2 s := by
  simp only [divOps, List.forall_mem_cons]
  refine ⟨?divs, ?divn, ?rems, ?remn, by simp⟩ <;> intro g d a s
  case divs => exact congrArg (divide g d a · s) (funext fun x => funext (divSigned_eq x))
  case divn => exact congrArg (divide g d a · s) (funext fun x => funext (divUnsigned_eq x))
  case rems => exact congrArg (divide g d a · s) (funext fun x => funext (remSigned_eq x))
  case remn => exact congrArg (divide g d a · s) (funext fun x => funext (remUnsigned_eq x))

/-! ### The statements -/

/-- Settles O2: each clause is the completion of its instruction's shape at the result of R97-R104. -/
theorem integerTwoAndThreeSources : Obligations.IntegerTwoAndThreeSources := by
  refine ⟨⟨?imad, ?sel, ?bfx, ?bfi⟩, ?unary, ?shifts, ?movi, ?addi⟩
  case imad =>
    intro g d a b s i h
    exact alu3d_completes h (fun o x y => o + x * y)
  case sel =>
    intro g d a b s i h
    exact execSel_completes h
  case bfx =>
    intro g d a b s i h
    obtain ⟨t, g', ht, hw⟩ := alu3_completes (g := g) h bfx
    exact ⟨t, g', fun l => bfx (i.src a l) (i.src b l), ht, hw, fun l => getLsbD_bfx (i.src a l) (i.src b l)⟩
  case bfi =>
    intro g d a b s i h
    obtain ⟨t, g', ht, hw⟩ := alu3d_completes (g := g) h bfi
    exact ⟨t, g', fun l => bfi (i.regAt d 0 l) (i.src a l) (i.src b l), ht, hw,
      fun l => getLsbD_bfi (i.regAt d 0 l) (i.src a l) (i.src b l)⟩
  case unary =>
    intro op hop g d a s i h
    rw [exec_intUnary op hop]
    exact alu1_completes h op.2
  case shifts =>
    intro op hop g d a k s i h
    rw [exec_immShifts op hop]
    exact alu1_completes h (fun x => op.2 x k.toNat)
  case movi =>
    intro g d v s i h
    exact execMovi_completes h v
  case addi =>
    intro g d v s i h
    exact execAddi_completes h v

/-- Settles O3: the pair sums and the divisions complete with the results of R101 and R102, the zero divisor included. -/
theorem pairsAndDivisions : Obligations.PairsAndDivisions := by
  refine ⟨?pairs, ?divisions⟩
  case pairs =>
    intro g d a s i h
    rw [exec_add64, exec_sub64]
    exact ⟨alu64_completes h (fun x y => x + y), alu64_completes h (fun x y => x - y)⟩
  case divisions =>
    intro op hop g d a s i h
    rw [exec_divOps op hop]
    exact divide_completes h op.2

end Sys2Proof.Proofs
end

section
/-!
The lane operations of major 0x29 complete over the executing lanes (R127-R131): votes, shuffles, reductions and scans. Three layers:
the model's tree, built level by level over a list of leaves, has the nodes that the statements define from the root down, and
for an associative operation the root is the combination of the executing lanes in order; the one shape of LANE functions
completes whatever it computes; each instruction of a table is that shape at the table's function.
-/
namespace Sys2Proof.Proofs

open Sys2Proof.Machine Sys2Proof.Claims

/-! ### The executing lanes (R5, R128, R129) -/

theorem mem_executing {i : Issue} {l : Nat} : l ∈ executing i ↔ l < i.width ∧ inMask i.cur.exec l = true := by
  simp [executing, inMask]

theorem lanesOf_exec (i : Issue) : lanesOf i.cur.exec i.width = executing i := rfl

theorem lowest_exec (i : Issue) : (lowest i.cur.exec i.width).getD 0 = (executing i).headD 0 :=
  List.headD_eq_head?_getD.symm

theorem any_executing (i : Issue) (v : Nat → Word) :
    (lanesOf i.cur.exec i.width).any (fun j => v j != 0) = true ↔ ∃ l ∈ executing i, v l ≠ 0 := by
  simp [lanesOf_exec]

theorem all_executing (i : Issue) (v : Nat → Word) :
    (lanesOf i.cur.exec i.width).all (fun j => v j != 0) = true ↔ ∀ l ∈ executing i, v l ≠ 0 := by
  simp [lanesOf_exec]

theorem shuffled_eq (i : Issue) (v : Nat → Word) (l : Nat) (j : Int) : i.shuffled v l j = shuffleFrom i v l j := by
  have hsrc : (0 ≤ j ∧ j < (i.width : Int) ∧ inMask i.cur.exec j.toNat = true) ↔ 0 ≤ j ∧ j.toNat ∈ executing i := by
    rw [mem_executing]
    exact and_congr_right fun hj => and_congr_left fun _ => (Int.toNat_lt hj).symm
  simp only [Issue.shuffled, shuffleFrom, hsrc]

/-- The ballot of VBAL: a bit for each executing lane whose A is not zero (R129). -/
theorem getLsbD_ballot (i : Issue) (v : Nat → Word) (l : Nat) (hl : l < 64) :
    (maskOf (fun j => inMask i.cur.exec j && v j != 0) i.width).getLsbD l = decide (l ∈ executing i ∧ v l ≠ 0) := by
  refine (inMask_maskOf _ _ _).trans ?_
  rw [Bool.eq_iff_iff]
  simp [mem_executing, hl, and_assoc]

/-! ### The tree (R130, R131) -/

theorem comb_eq (op : Word → Word → Word) (x y : Option Word) : comb op x y = combine op x y := by
  cases x <;> cases y <;> rfl

@[simp] theorem combine_none_left (op : Word → Word → Word) (y : Option Word) : combine op none y = y := rfl

@[simp] theorem combine_none_right (op : Word → Word → Word) (x : Option Word) : combine op x none = x := by
  cases x <;> rfl

/-- The node at a position of a level: empty beyond the level's end. -/
def nodeAt (xs : List (Option Word)) (j : Nat) : Option Word := xs[j]?.getD none

theorem nodeAt_drop (xs : List (Option Word)) (m j : Nat) : nodeAt (xs.drop m) j = nodeAt xs (m + j) := by
  rw [nodeAt, List.getElem?_drop, nodeAt]

theorem nodeAt_take {xs : List (Option Word)} {m j : Nat} (h : j < m) : nodeAt (xs.take m) j = nodeAt xs j := by
  rw [nodeAt, List.getElem?_take, if_pos h, nodeAt]

theorem nodeAt_treeUp (op : Word → Word → Word) (xs : List (Option Word)) (j : Nat) :
    nodeAt (treeUp op xs) j = combine op (nodeAt xs (2 * j)) (nodeAt xs (2 * j + 1)) := by
  induction xs using treeUp.induct generalizing j with
  | case1 x y rest ih =>
    cases j with
    | zero => exact comb_eq op x y
    | succ j => exact ih j
  | case2 x =>
    cases j with
    | zero => exact (combine_none_right op x).symm
    | succ j => rfl
  | case3 => rfl

/-- A node of a level is the node of the level below over the leaves combined in pairs. -/
theorem treeNode_succ (op : Word → Word → Word) (leaf : Nat → Option Word) (k j : Nat) :
    Claims.treeNode op leaf (k + 1) j = Claims.treeNode op (fun n => combine op (leaf (2 * n)) (leaf (2 * n + 1))) k j := by
  induction k generalizing j with
  | zero => rfl
  | succ k ih => rw [Claims.treeNode, ih, ih, Claims.treeNode]

theorem treeNode_eq (op : Word → Word → Word) (k : Nat) (xs : List (Option Word)) :
    Machine.treeNode op k xs = Claims.treeNode op (nodeAt xs) k 0 := by
  induction k generalizing xs with
  | zero => exact congrArg (Option.getD · none) List.head?_eq_getElem?
  | succ k ih =>
    rw [Machine.treeNode, ih, treeNode_succ, funext (nodeAt_treeUp op xs)]

/-- A node's first child starts where the node does. -/
theorem lowChild_mul (j k : Nat) : 2 * j * 2 ^ k = j * 2 ^ (k + 1) := by
  rw [Nat.pow_succ', Nat.mul_left_comm, Nat.mul_assoc]

/-- A node depends only on the leaves that it covers. -/
theorem treeNode_congr (op : Word → Word → Word) {leaf leaf' : Nat → Option Word} {k j j' : Nat}
    (h : ∀ n, n < 2 ^ k → leaf (j * 2 ^ k + n) = leaf' (j' * 2 ^ k + n)) :
    Claims.treeNode op leaf k j = Claims.treeNode op leaf' k j' := by
  induction k generalizing j j' with
  | zero => simpa [Claims.treeNode] using h 0 Nat.one_pos
  | succ k ih =>
    have hstart : ∀ m n, (2 * m + 1) * 2 ^ k + n = m * 2 ^ (k + 1) + (2 ^ k + n) := fun m n => by
      rw [Nat.add_one_mul, lowChild_mul, Nat.add_assoc]
    have hlow : Claims.treeNode op leaf k (2 * j) = Claims.treeNode op leaf' k (2 * j') := ih fun n hn => by
      rw [lowChild_mul, lowChild_mul]
      exact h n (by omega)
    have hhigh : Claims.treeNode op leaf k (2 * j + 1) = Claims.treeNode op leaf' k (2 * j' + 1) := ih fun n hn => by
      rw [hstart, hstart]
      exact h (2 ^ k + n) (by omega)
    rw [Claims.treeNode, Claims.treeNode, hlow, hhigh]

/-- The model's scan from a position that its blocks divide is the statement's. -/
theorem scanBlocks_eq (op : Word → Word → Word) (leaf : Nat → Option Word) (k at_ m : Nat) (xs : List (Option Word))
    (acc : Option Word) (hdvd : 2 ^ k ∣ at_) (hxs : ∀ n, nodeAt xs n = leaf (at_ + n)) :
    scanBlocks op k m xs acc = scanFrom op leaf k at_ m acc := by
  induction k generalizing at_ m xs acc with
  | zero => rfl
  | succ k ih =>
    have hk : 2 ^ k ∣ at_ := Nat.dvd_trans (Nat.pow_dvd_pow 2 (Nat.le_succ k)) hdvd
    have hblock : Machine.treeNode op k (xs.take (2 ^ k)) = Claims.treeNode op leaf k (at_ / 2 ^ k) := by
      rw [treeNode_eq]
      refine treeNode_congr op fun n hn => ?_
      rw [Nat.zero_mul, Nat.zero_add, nodeAt_take hn, hxs, Nat.div_mul_cancel hk]
    rw [scanBlocks, scanFrom, hblock, comb_eq]
    split
    · refine ih (at_ + 2 ^ k) (m - 2 ^ k) (xs.drop (2 ^ k)) _ (Nat.dvd_add hk (Nat.dvd_refl _)) fun n => ?_
      rw [nodeAt_drop, hxs, Nat.add_assoc]
    · exact ih at_ m xs acc hk hxs

theorem nodeAt_leaves (i : Issue) (v : Nat → Word) (l : Nat) : nodeAt (i.leaves v) l = leafOf i v l := by
  unfold nodeAt Issue.leaves leafOf
  by_cases hl : l < i.width <;> simp [hl, mem_executing]

/-- A node is the combination of the leaves that it covers, in order, when the operation is associative. -/
theorem treeNode_eq_foldl {op : Word → Word → Word} (hop : ∀ x y z, op (op x y) z = op x (op y z)) (leaf : Nat → Option Word)
    (k j : Nat) : Claims.treeNode op leaf k j = ((List.range' (j * 2 ^ k) (2 ^ k)).map leaf).foldl (combine op) none := by
  have hassoc : Std.Associative (combine op) := ⟨fun x y z => by cases x <;> cases y <;> cases z <;> simp [combine, hop]⟩
  induction k generalizing j with
  | zero => simp [Claims.treeNode]
  | succ k ih =>
    have hsplit : List.range' (j * 2 ^ (k + 1)) (2 ^ (k + 1)) =
        List.range' (2 * j * 2 ^ k) (2 ^ k) ++ List.range' ((2 * j + 1) * 2 ^ k) (2 ^ k) := by
      rw [Nat.add_one_mul (2 * j), List.range'_append_1, lowChild_mul, ← Nat.two_mul, ← Nat.pow_succ']
    rw [Claims.treeNode, ih, ih, hsplit, List.map_append, List.foldl_append, ← List.foldl_assoc (op := combine op), combine_none_right]

theorem foldl_leaves_eq_foldl_executing (op : Word → Word → Word) (i : Issue) (v : Nat → Word) :
    ((List.range i.width).map (leafOf i v)).foldl (combine op) none =
      (executing i).foldl (fun acc l => combine op acc (some (v l))) none := by
  rw [List.foldl_map, executing, List.foldl_filter]
  refine List.foldl_rel (r := Eq) rfl fun l hl acc acc' hacc => ?_
  subst hacc
  have hexec : l ∈ executing i ↔ i.cur.exec.getLsbD l = true := by
    rw [mem_executing]
    exact and_iff_right (List.mem_range.mp hl)
  by_cases he : i.cur.exec.getLsbD l = true <;> simp [leafOf, hexec, he]

/-! ### What reductions and scans compute -/

theorem reduceOp_eq_root (op : RMode → Word → Word → Word) {i : Issue} {k : Nat} (hw : i.width = 2 ^ k) (v : Nat → Word) (l : Nat) :
    reduceOp op i v l = [(Claims.treeNode (op (RMode.ofBits i.grp.rm)) (leafOf i v) k 0).getD 0] := by
  rw [reduceOp, hw, Nat.log2_two_pow, treeNode_eq, funext (nodeAt_leaves i v), Issue.rm]

theorem reduceOp_eq_foldl {op : Word → Word → Word} (hop : ∀ x y z, op (op x y) z = op x (op y z)) {i : Issue} {k : Nat}
    (hw : i.width = 2 ^ k) (v : Nat → Word) (l : Nat) :
    reduceOp (fun _ => op) i v l = [((executing i).foldl (fun acc l => combine op acc (some (v l))) none).getD 0] := by
  rw [reduceOp_eq_root (fun _ => op) hw, treeNode_eq_foldl hop, Nat.zero_mul, ← hw, ← List.range_eq_range',
    foldl_leaves_eq_foldl_executing]

theorem scanOp_eq (op : RMode → Word → Word → Word) (incl : Bool) (i : Issue) (v : Nat → Word) (l : Nat) :
    scanOp op incl i v l =
      [(scanFrom (op (RMode.ofBits i.grp.rm)) (leafOf i v) 7 0 (if incl then l + 1 else l) none).getD 0] := by
  rw [scanOp, scanBlocks_eq (op i.rm) (leafOf i v) 7 0 _ (i.leaves v) none (Nat.dvd_zero _) fun n => ?_, Issue.rm]
  rw [Nat.zero_add, nodeAt_leaves]

/-! ### The operations that combine (R97, R119, R130) -/

section Order

variable (key : Word → Int)

/-- Each side picks, of the three words, the last with the least key; `grind` splits on the comparisons and closes by transitivity. -/
theorem lesser_assoc (x y z : Word) :
    let op := fun a b => if key a < key b then a else b
    op (op x y) z = op x (op y z) := by
  grind

/-- Each side picks, of the three words, the first with the greatest key. -/
theorem greater_assoc (x y z : Word) :
    let op := fun a b => if key a < key b then b else a
    op (op x y) z = op x (op y z) := by
  grind

variable {key} (hkey : Function.Injective key)
include hkey

/-- A tie of two keys is one word, so it does not matter which operand a tie picks. -/
theorem lesser_of_le (a b : Word) : (if decide (key a ≤ key b) != false then a else b) = if key a < key b then a else b := by
  rcases Int.lt_trichotomy (key a) (key b) with h | h | h
  · simp [h, Int.le_of_lt h]
  · rw [hkey h, ite_self, ite_self]
  · simp [Int.not_lt.mpr (Int.le_of_lt h), Int.not_le.mpr h]

theorem greater_of_le (a b : Word) : (if decide (key a ≤ key b) != true then a else b) = if key a < key b then b else a := by
  rcases Int.lt_trichotomy (key a) (key b) with h | h | h
  · simp [h, Int.le_of_lt h]
  · rw [hkey h, ite_self, ite_self]
  · simp [Int.not_lt.mpr (Int.le_of_lt h), Int.not_le.mpr h]

end Order

theorem toInt_injective : Function.Injective (fun a : Word => a.toInt) := fun _ _ => BitVec.eq_of_toInt_eq

theorem toNat_injective : Function.Injective (fun a : Word => (a.toNat : Int)) :=
  fun _ _ h => BitVec.eq_of_toNat_eq (Int.ofNat_inj.mp h)

theorem slt_iff (a b : Word) : a.slt b = true ↔ a.toInt < b.toInt := BitVec.slt_iff_toInt_lt

theorem ult_iff (a b : Word) : a.ult b = true ↔ (a.toNat : Int) < (b.toNat : Int) := BitVec.ult_iff_toNat_lt.trans Int.ofNat_lt.symm

theorem pickSigned_false (a b : Word) : pickSigned false a b = if a.slt b then a else b := by
  simp only [slt_iff]
  exact lesser_of_le toInt_injective a b

theorem pickSigned_true (a b : Word) : pickSigned true a b = if a.slt b then b else a := by
  simp only [slt_iff]
  exact greater_of_le toInt_injective a b

theorem pickUnsigned_false (a b : Word) : pickUnsigned false a b = if a.ult b then a else b := by
  simp only [pickUnsigned, ult_iff, ← Int.ofNat_le]
  exact lesser_of_le toNat_injective a b

theorem pickUnsigned_true (a b : Word) : pickUnsigned true a b = if a.ult b then b else a := by
  simp only [pickUnsigned, ult_iff, ← Int.ofNat_le]
  exact greater_of_le toNat_injective a b

theorem intReduce_assoc : ∀ op ∈ intReduce, ∀ x y z, op.2 (op.2 x y) z = op.2 x (op.2 y z) := by
  simp only [intReduce, List.forall_mem_cons, slt_iff, ult_iff]
  exact ⟨BitVec.add_assoc, lesser_assoc (fun a => a.toInt), greater_assoc (fun a => a.toInt), lesser_assoc (fun a => a.toNat),
    greater_assoc (fun a => a.toNat), BitVec.and_assoc, BitVec.or_assoc, BitVec.xor_assoc, by simp⟩

theorem half_zero (a : Word) : half 0 a = (a.extractLsb' 0 16).toNat := by
  simp [half]

theorem half_one (a : Word) : half 1 a = (a.extractLsb' 16 16).toNat := by
  simp [half, Nat.shiftRight_eq_div_pow]

theorem halves_eq (f : Nat → Nat) : halves f = BitVec.ofNat 16 (f 1) ++ BitVec.ofNat 16 (f 0) := by
  have hlow : f 0 % 2 ^ 16 < 2 ^ 16 := Nat.mod_lt _ (Nat.two_pow_pos 16)
  apply BitVec.eq_of_toNat_eq
  rw [halves, BitVec.toNat_append, BitVec.toNat_ofNat, BitVec.toNat_ofNat, BitVec.toNat_ofNat, ← Nat.shiftLeft_add_eq_or_of_lt hlow,
    Nat.shiftLeft_eq]
  omega

theorem h2Sum_eq (rm : RMode) (a b : Word) : h2Sum rm a b = f16Of (fun rm x y => Val.add rm x y) rm a b := by
  simp only [h2Sum, halves_eq, half_zero, half_one, f16Of]

/-! ### The shape of LANE functions completes -/

/-- A LANE function whose issue passes its checks completes with its words at D (R127). -/
theorem laneOp_completes {s : State} {i : Issue} {g : Guard} {d a : RegField} {n : Issue → Nat} {ok : Issue → Bool}
    (f : Issue → (Nat → Word) → Nat → List Word) (h : Passes s i true [.dstMem d (n i), .srcLost a] true) (hok : ok i = true)
    (hn : ∀ l, (f i (fun j => i.src a j) l).length = n i) :
    ∃ t g', laneOp g d a n ok f s = .next t ∧
      Completes s t i (i.view.withRegs (i.written (i.effect g) d.toNat (n i) (f i (fun j => i.src a j)))) g' := by
  rw [laneOp, h.issuing]
  dsimp only
  rw [hok, issued_passes h]
  exact retire_writes h.issuing (i.effect g) d.toNat (n i) (f i (fun j => i.src a j)) hn

/-- A LANE function of one register with no condition of its own completes with one word at D. -/
theorem laneOp_completes_one {s : State} {i : Issue} {g : Guard} {d a : RegField} {ok : Issue → Bool}
    (f : Issue → (Nat → Word) → Nat → List Word) (w : Nat → Word) (h : Passes s i true [.dstMem d 1, .srcLost a] true)
    (hok : ok i = true) (hf : ∀ l, f i (fun j => i.src a j) l = [w l]) :
    ∃ t g', laneOp g d a oneReg ok f s = .next t ∧
      Completes s t i (i.view.withRegs (i.written (i.effect g) d.toNat 1 (fun l => [w l]))) g' := by
  rw [← funext hf]
  exact laneOp_completes (n := oneReg) f h hok fun l => congrArg List.length (hf l)

theorem execVbal_completes {s : State} {i : Issue} (g : Guard) {d a : RegField}
    (h : Passes s i true [.dstMem d (if i.width = 64 then 2 else 1), .srcLost a] true) :
    ∃ t g', execVbal g d a s = .next t ∧
      Completes s t i (i.view.withRegs (i.written (i.effect g) d.toNat (if i.width = 64 then 2 else 1) (fun _ =>
        let m := maskOf (fun j => inMask i.cur.exec j && i.src a j != 0) i.width
        if i.width = 64 then [m.extractLsb' 0 32, m.extractLsb' 32 32] else [m.extractLsb' 0 32]))) g' := by
  simp only [← BitVec.setWidth_eq_extractLsb' (show 32 ≤ 64 by decide)]
  refine laneOp_completes (n := fun i => if i.width = 64 then 2 else 1) _ h rfl fun _ => ?_
  dsimp only
  split <;> rfl

theorem execShflIdx_completes {s : State} {i : Issue} (g : Guard) {d a : RegField} (h : Passes s i true [.rw d 1, .srcLost a] true) :
    ∃ t g', execShflIdx g d a s = .next t ∧ Completes s t i (i.view.withRegs (i.written (i.effect g) d.toNat 1
      (fun l => [shuffleFrom i (fun j => i.src a j) l (((i.regAt d 0 l).toNat % i.width : Nat) : Int)]))) g' := by
  simp only [← shuffled_eq]
  rw [execShflIdx, issued_passes h]
  exact retire_writes h.issuing (i.effect g) d.toNat 1 _ fun _ => rfl

/-! ### Each instruction of a table is the shape at the table's function -/

theorem exec_voteOps : ∀ op ∈ voteOps, ∀ (g : Guard) (d a : RegField) (s : State),
    exec (op.1 g d a) s = laneOp g d a oneReg anyForm (fun i v _ => [op.2 i v]) s := by
  simp only [voteOps, List.forall_mem_cons, ← any_executing, ← all_executing, ← lowest_exec]
  refine ⟨?lowest, ?vany, ?vall, by simp⟩ <;> intro g d a s <;> rfl

theorem exec_shuffleOps : ∀ op ∈ shuffleOps, ∀ (g : Guard) (d a : RegField) (k : BitVec 5) (s : State),
    exec (op.1 g d a k) s = laneOp g d a oneReg (fun i => decide (k.toNat < i.width)) (fun i v l => [i.shuffled v l (op.2 l k.toNat)]) s := by
  simp only [shuffleOps, List.forall_mem_cons]
  refine ⟨?shflUp, ?shflDn, ?shflXor, by simp⟩ <;> intro g d a k s <;> rfl

theorem exec_intReduce : ∀ op ∈ intReduce, ∀ (g : Guard) (d a : RegField) (s : State),
    exec (op.1 g d a) s = laneOp g d a oneReg anyForm (reduceOp (fun _ => op.2)) s := by
  simp only [intReduce, List.forall_mem_cons, ← pickSigned_false, ← pickSigned_true, ← pickUnsigned_false, ← pickUnsigned_true]
  refine ⟨?sum, ?smin, ?smax, ?umin, ?umax, ?and, ?or, ?xor, by simp⟩ <;> intro g d a s <;> rfl

theorem exec_floatReduce : ∀ op ∈ floatReduce, ∀ (g : Guard) (d a : RegField) (s : State),
    exec (op.1 g d a) s = laneOp g d a oneReg anyForm (reduceOp op.2) s := by
  simp only [floatReduce, List.forall_mem_cons]
  refine ⟨?fsum, ?hsum, ?fmin, ?fmax, by simp⟩ <;> intro g d a s
  case hsum =>
    have hop : h2Sum = f16Of (fun rm x y => Val.add rm x y) := funext fun rm => funext fun x => funext (h2Sum_eq rm x)
    exact congrArg (fun op => laneOp g d a oneReg anyForm (reduceOp op) s) hop
  all_goals rfl

theorem exec_scanOps : ∀ op ∈ scanOps, ∀ (g : Guard) (d a : RegField) (s : State),
    exec (op.1 g d a) s = laneOp g d a oneReg anyForm (scanOp op.2.1 op.2.2) s := by
  simp only [scanOps, List.forall_mem_cons]
  refine ⟨?iscan, ?iscanx, ?fscan, ?fscanx, by simp⟩ <;> intro g d a s <;> rfl

/-! ### The statement -/

/-- Settles O7: each clause is the completion of the LANE shape at its table's function; the model's tree and blocks are the
statement's, and over an associative operation the root is the fold of the executing lanes. -/
theorem laneExchanges : Obligations.LaneExchanges := by
  refine ⟨⟨?votes, ?ballot, ?index, ?shuffles⟩, ?intReductions, ?floatReductions, ?scans⟩
  case votes =>
    intro op hop g d a s i h
    rw [exec_voteOps op hop]
    exact laneOp_completes_one _ (fun _ => op.2 i (fun j => i.src a j)) h rfl fun _ => rfl
  case ballot =>
    intro g d a s i h
    obtain ⟨t, g', ht, hc⟩ := execVbal_completes g h
    exact ⟨t, g', _, ht, getLsbD_ballot i (fun j => i.src a j), hc⟩
  case index =>
    intro g d a s i h
    exact execShflIdx_completes g h
  case shuffles =>
    intro op hop g d a k s i hk h
    rw [exec_shuffleOps op hop]
    exact laneOp_completes_one _ (fun l => shuffleFrom i (fun j => i.src a j) l (op.2 l k.toNat)) h (decide_eq_true hk)
      fun l => congrArg (fun w => [w]) (shuffled_eq i _ l _)
  case intReductions =>
    intro op hop g d a s i k hw _ h
    rw [exec_intReduce op hop]
    exact laneOp_completes_one _ _ h rfl (reduceOp_eq_foldl (intReduce_assoc op hop) hw _)
  case floatReductions =>
    intro op hop g d a s i k hw _ h
    rw [exec_floatReduce op hop]
    exact laneOp_completes_one _ _ h rfl (reduceOp_eq_root op.2 hw _)
  case scans =>
    intro op hop g d a s i _ _ _ h
    rw [exec_scanOps op hop]
    obtain ⟨t, g', ht, hc⟩ := laneOp_completes_one (g := g) (ok := anyForm) (scanOp op.2.1 op.2.2) _ h rfl
      (scanOp_eq op.2.1 op.2.2 i fun j => i.src a j)
    exact ⟨t, g', _, ht, fun _ _ => rfl, hc⟩

end Sys2Proof.Proofs
end
